-- ==== Sys2Proof/Word.lean ====
section
/-! DEFINITION. The plain word types of the GZ-8 and the bit-slice helper every other file reads fields with. -/

namespace Sys2Proof

/-- A byte of memory. -/
abbrev Byte := BitVec 8

/-- A general or special register, and a scalar token (R188, R194). -/
abbrev Word := BitVec 64

/-- A vector register and a vector token (R188, R194). -/
abbrev Vec := BitVec 512

/-- One 32-bit word of a block: a header word or a slot (R183). -/
abbrev Slot32 := BitVec 32

/-- A virtual address of 80 bits (R8). -/
abbrev VAddr := BitVec 80

/-- Field [hi:lo] of a natural number, both ends included (R4). -/
def field (n hi lo : Nat) : Nat := (n >>> lo) % 2 ^ (hi + 1 - lo)

/-- Bits [lo + len - 1 : lo] of a bit vector (R4). -/
abbrev bits {w : Nat} (x : BitVec w) (lo len : Nat) : BitVec len := x.extractLsb' lo len

end Sys2Proof
end

