-- ==== Sys2Proof/Machine/Alu.lean ====
section
/-! DEFINITION. The results of the scalar integer instructions as functions of their operands (R237 to R241). -/

namespace Sys2Proof.Machine

/-- SExt32 (R237). -/
def sext32 (x : Word) : Word := (bits x 0 32).signExtend 64
/-- The low half of a scalar, zero-extended. -/
def zext32 (x : Word) : Word := (bits x 0 32).setWidth 64

/-- High half of the signed product (R237). -/
def aluMulh (a b : Word) : Word := BitVec.ofInt 64 (a.toInt * b.toInt / 2 ^ 64)
/-- High half of the unsigned product (R237). -/
def aluMulhz (a b : Word) : Word := BitVec.ofNat 64 (a.toNat * b.toNat / 2 ^ 64)
/-- Signed quotient, truncated; all ones for b = 0, and the least value when the least value is divided by -1
(R238). -/
def aluDiv {w : Nat} (a b : BitVec w) : BitVec w := if b = 0 then BitVec.allOnes w else a.sdiv b
/-- Unsigned quotient; all ones for b = 0 (R238). -/
def aluDivz {w : Nat} (a b : BitVec w) : BitVec w := if b = 0 then BitVec.allOnes w else a / b
/-- Signed remainder with the sign of the dividend; a for b = 0 (R238). -/
def aluRem {w : Nat} (a b : BitVec w) : BitVec w := if b = 0 then a else a.srem b
/-- Unsigned remainder; a for b = 0 (R238). -/
def aluRemz {w : Nat} (a b : BitVec w) : BitVec w := if b = 0 then a else a % b
/-- Signed minimum (R237). -/
def aluMin {w : Nat} (a b : BitVec w) : BitVec w := if a.slt b then a else b
/-- Signed maximum (R237). -/
def aluMax {w : Nat} (a b : BitVec w) : BitVec w := if a.slt b then b else a
/-- Unsigned minimum (R237). -/
def aluMinz {w : Nat} (a b : BitVec w) : BitVec w := if a.ult b then a else b
/-- Unsigned maximum (R237). -/
def aluMaxz {w : Nat} (a b : BitVec w) : BitVec w := if a.ult b then b else a
/-- |a| modulo 2^w (R237). -/
def aluAbs {w : Nat} (a : BitVec w) : BitVec w := if a.slt 0 then -a else a

/-- An IARITHW form: the operation at 32 bits, the result sign-extended (R237). -/
def aluW (op : BitVec 32 → BitVec 32 → BitVec 32) (a b : Word) : Word :=
  (op (bits a 0 32) (bits b 0 32)).signExtend 64
/-- MULH.w: bits [63:32] of the signed 64-bit product (R237). -/
def aluMulh32 (a b : BitVec 32) : BitVec 32 := BitVec.ofInt 32 (a.toInt * b.toInt / 2 ^ 32)
/-- MULHZ.w: bits [63:32] of the unsigned 64-bit product (R237). -/
def aluMulhz32 (a b : BitVec 32) : BitVec 32 := BitVec.ofNat 32 (a.toNat * b.toNat / 2 ^ 32)

/-- The shift count b[5:0] (R239). -/
def shCnt (b : Word) : Nat := (bits b 0 6).toNat
/-- SHL (R239). -/
def aluShl (a b : Word) : Word := a <<< shCnt b
/-- SHR (R239). -/
def aluShr (a b : Word) : Word := a >>> shCnt b
/-- SAR (R239). -/
def aluSar (a b : Word) : Word := a.sshiftRight (shCnt b)
/-- ROL (R239). -/
def aluRol (a b : Word) : Word := a.rotateLeft (shCnt b)
/-- ROR (R239). -/
def aluRor (a b : Word) : Word := a.rotateRight (shCnt b)

/-- The bits of a word, lowest first. -/
def bitList (a : Word) : List Bool := (List.range 64).map a.getLsbD
/-- A word from its bits, lowest first. -/
def ofBits : List Bool → Nat
  | [] => 0
  | b :: bs => b.toNat + 2 * ofBits bs
/-- Leading zero bits (R240). -/
def aluClz (a : Word) : Word := BitVec.ofNat 64 ((bitList a).reverse.takeWhile (!·)).length
/-- Trailing zero bits (R240). -/
def aluCtz (a : Word) : Word := BitVec.ofNat 64 ((bitList a).takeWhile (!·)).length
/-- One bits (R240). -/
def aluPopc (a : Word) : Word := BitVec.ofNat 64 ((bitList a).countP id)
/-- Bit i moved to bit 63 - i (R240). -/
def aluBrev (a : Word) : Word := BitVec.ofNat 64 (ofBits (bitList a).reverse)
/-- Byte i moved to byte 7 - i (R240). -/
def aluBswap (a : Word) : Word :=
  bits a 0 8 ++ bits a 8 8 ++ bits a 16 8 ++ bits a 24 8 ++ bits a 32 8 ++ bits a 40 8 ++ bits a 48 8 ++ bits a 56 8
/-- The position p of a field specification (R240). -/
def fieldPos (b : Word) : Nat := (bits b 0 6).toNat
/-- The width w of a field specification (R240). -/
def fieldWid (b : Word) : Nat := (bits b 8 6).toNat + 1
/-- EXTZ: bits above 63 read as zero (R240). -/
def aluExtz (a b : Word) : Word := BitVec.ofNat 64 ((a.toNat >>> fieldPos b) % 2 ^ fieldWid b)
/-- EXTS: sign-extended from bit w - 1 of the field (R240). -/
def aluExts (a b : Word) : Word :=
  let x := (a.toNat >>> fieldPos b) % 2 ^ fieldWid b
  if 2 ^ (fieldWid b - 1) ≤ x then BitVec.ofInt 64 ((x : Int) - (2 ^ fieldWid b : Nat)) else BitVec.ofNat 64 x
/-- INS: field [p + w - 1 : p] of a replaced by the low w bits of b[63:14]; positions above 63 are not written
(R240). -/
def aluIns (a b : Word) : Word :=
  let mask : Word := BitVec.ofNat 64 ((2 ^ fieldWid b - 1) <<< fieldPos b)
  (a &&& ~~~mask) ||| (((b >>> 14) <<< fieldPos b) &&& mask)

/-- A test token: 1 when the relation holds (R241). -/
def tok (c : Bool) : Word := if c then 1#64 else 0#64

end Sys2Proof.Machine
end

