-- ==== Sys2Proof/Config.lean ====
section
/-! DEFINITION. What a GZ-8 module fixes (fuses, identity) and the free values: opaque constants with no body, so
nothing can be proved of a value the manual leaves open. Each is named in a log entry. -/

namespace Sys2Proof.Config

/-- FREE VALUE (log 3). Which of the enabled moves happens next, as a function of the model's counter; the manual
promises no order among them (R147). -/
opaque freeChoice : Nat → Nat

/-- FREE VALUE (log 4). How many cycles of island `i` pass in one step, and of grid `i - 32` for larger `i`, as a function of the
model's counter; the manual promises nothing about time (R147, R182). -/
opaque freeCycles : Nat → Nat → Nat

/-- FREE VALUE (log 5). The FREQ, in MHz, and the REFILL that the management controller gives island `i` under a
module limit of `w` watts after `t` thermal reductions (R451 gives no rule). -/
opaque freeFreq : Nat → Nat → Nat → BitVec 16
/-- FREE VALUE (log 5). See `freeFreq`. -/
opaque freeRefill : Nat → Nat → Nat → BitVec 8

/-- FREE VALUE (log 6). The unique module serial, the fused key hash and the fused minimum security version
(R442: no reset value, each module has its own). -/
opaque uid : BitVec 128
/-- FREE VALUE (log 6). See `uid`. -/
opaque keyHash : BitVec 256
/-- FREE VALUE (log 6). See `uid`. -/
opaque minSvn : BitVec 16

/-- FREE VALUE (log 7). Whether SLH-DSA-SHA2-128s verifies signature `sig` of message `msg` under `key` (R446 names
the algorithm and the manual does not give it). -/
opaque slhDsaVerify : (key msg sig : List Byte) → Bool

/-- FREE VALUE (log 7). The SHA-256 of a byte string (R442, R446 name the algorithm and the manual does not give
it). -/
opaque sha256 : List Byte → BitVec 256

/-- What the SPDM responder supports (R447). -/
inductive SpdmCap where
  | cert | chal | meas | measSig | keyEx | encrypt | mac
  deriving DecidableEq, Repr

/-- The algorithms of R447. -/
inductive SpdmAlg where
  | sha256 | slhDsaSha2128s | mlKem768 | aes256Gcm
  deriving DecidableEq, Repr

/-- What the SPDM responder answers from (R447): its capabilities; its algorithms for hashing, signing, key exchange and secured sessions;
what the certificates of slots 0 and 1 are bound to; and the bytes of each measurement by its index. -/
structure SpdmDevice where
  caps : List SpdmCap
  hash : SpdmAlg
  sign : SpdmAlg
  kex : SpdmAlg
  aead : SpdmAlg
  identity : BitVec 128
  firmware : BitVec 256
  measurements : List (Nat × List Byte)
  deriving DecidableEq, Repr

/-- The DOE requests of R437. -/
inductive DoeKind where
  | discovery | cdat | spdm | secured | other
  deriving DecidableEq, Repr, Inhabited

/-- FREE VALUE (log 8). Which DOE option a request asks for (R437 names the options, not their messages). -/
opaque doeKind : List Byte → DoeKind

/-- FREE VALUE (log 8). The SPDM responder's answer to a request in a session, with the session and the link keys of IDE_KM that it leaves;
a session and keys are numbers (R447 gives what it supports, not the messages). -/
opaque spdmAnswer : SpdmDevice → (session ide : Nat) → (request : List Byte) → List Byte × Nat × Nat

/-- FREE VALUE (log 8). The DOE discovery answer (R447). -/
opaque doeDiscovery : (request : List Byte) → List Byte

/-- FREE VALUE (log 8). The CDAT answer of a host port (R437). -/
opaque doeCdat : (request : List Byte) → List Byte

/-- FREE VALUE (log 9). What a context slot of the fabric, a bank wire or a slot of operand memory holds where the
manual calls its contents undefined (R325, R354, R365, R375), by the model's counter and a position. -/
opaque freeBits : Nat → Nat → Nat

/-- FREE VALUE (log 10). Which cause a Leash trap reports as the thing the oldest block was waiting on; R415: the
value serves diagnosis only, `as the hardware last saw it`. -/
opaque freeWaitKind : Nat → BitVec 3

/-- FREE VALUE (log 11). What an access to a CXL-attached address that no store has written reads (R17, R58: the
devices are outside the module). -/
opaque cxlByte : Nat → Byte

/-- FREE VALUE (log 11). The ranges of tier two, offset and length, that the Sheepdog gives the CXL devices it finds (R17: as
configured by the Sheepdog from the discovered devices). -/
opaque cxlRanges : List (Nat × Nat)

/-- FREE VALUE (log 47). The offset of the system window at which word `i` of a thread's context descriptor is read (R20 gives no
offset). -/
opaque descOffset : Nat → Nat

/-- FREE VALUE (log 12). Whether a fused multiply-add of an infinity and a zero with a quiet NaN addend raises NV: the
manual refers to IEEE 754-2019 (R218), which leaves it to the implementation. -/
opaque fmaInfZeroNan : Bool

/-- FREE VALUE (log 13). What a read of memory homed on another package returns, by the model's counter and the address:
the other modules of the pod are outside the model. -/
opaque remoteByte : Nat → Nat → Byte

end Sys2Proof.Config
end

