-- ==== Sys2Proof/Syntax.lean ====
section
/-! DEFINITION. The syntax of the Arermarn block architecture: one constructor of `Instr` for every row of
spec/opcode_table.json. An instruction holds its encoded fields as bit vectors (R189, R191, R192 and the second-word
layouts); an EVENT row (a step of the hardware that no slot encodes) holds the numbers that say which pending item it
acts on, and the choices the manual leaves to the hardware. -/

namespace Sys2Proof

/-- G format (R189): PRED, target 1, target 0. Also the W forms whose second word holds nothing. -/
structure GF where
  p : BitVec 2
  t1 : BitVec 9
  t0 : BitVec 9
  deriving DecidableEq, Repr

/-- G format with PRED fixed at 00: FFMA takes its third operand at the predicate port (R248). -/
structure FmaF where
  t1 : BitVec 9
  t0 : BitVec 9
  deriving DecidableEq, Repr

/-- I format (R189, R191). -/
structure IF where
  p : BitVec 2
  imm : BitVec 14
  t0 : BitVec 9
  deriving DecidableEq, Repr

/-- I format of the immediate shifts: the count is IMM14[5:0] and IMM14[13:6] is zero (R191). -/
structure ShF where
  p : BitVec 2
  cnt : BitVec 6
  t0 : BitVec 9
  deriving DecidableEq, Repr

/-- C format (R189): CONST16 and target 0; never predicated (R190). -/
structure CF where
  k : BitVec 16
  t0 : BitVec 9
  deriving DecidableEq, Repr

/-- L format (R189): a short load. -/
structure LF where
  p : BitVec 2
  lsid : BitVec 5
  imm : BitVec 9
  t0 : BitVec 9
  deriving DecidableEq, Repr

/-- S format (R189): a short store. -/
structure SF where
  p : BitVec 2
  lsid : BitVec 5
  imm : BitVec 18
  deriving DecidableEq, Repr

/-- B format (R189): EXIT and OFFSET (for SCALL the call number, R256). -/
structure BF where
  p : BitVec 2
  ex : BitVec 3
  off : BitVec 20
  deriving DecidableEq, Repr

/-- BRI and RET (R249): the exit number in XOP[4:2]. -/
structure BrF where
  p : BitVec 2
  ex : BitVec 3
  deriving DecidableEq, Repr

/-- Hint space (R202): `h` is the opcode minus 0x6C and `x` the xop. -/
structure HintF where
  h : BitVec 2
  p : BitVec 2
  x : BitVec 5
  t1 : BitVec 9
  t0 : BitVec 9
  deriving DecidableEq, Repr

/-- CALLI (R253). -/
structure CalliF where
  p : BitVec 2
  sig : BitVec 16
  ex : BitVec 3
  lsid : BitVec 5
  deriving DecidableEq, Repr

/-- MOV4 (R245). -/
structure Mov4F where
  p : BitVec 2
  t1 : BitVec 9
  t0 : BitVec 9
  t3 : BitVec 9
  t2 : BitVec 9
  deriving DecidableEq, Repr

/-- WMEM (R262, R263). `off` is bits [31:19] of the second word whole. -/
structure MemF where
  p : BitVec 2
  t1 : BitVec 9
  t0 : BitVec 9
  off : BitVec 13
  sx : BitVec 1
  fe : BitVec 2
  ord : BitVec 2
  scope : BitVec 3
  cls : BitVec 3
  size : BitVec 3
  lsid : BitVec 5
  deriving DecidableEq, Repr

/-- WSYNC (R274). -/
structure SyncF where
  p : BitVec 2
  t1 : BitVec 9
  t0 : BitVec 9
  bid : BitVec 4
  ord : BitVec 2
  scope : BitVec 3
  lsid : BitVec 5
  deriving DecidableEq, Repr

/-- The vector groups VINT, VFP, VCVT, VPERM, VRED and VMX (R282). -/
structure VecF where
  p : BitVec 2
  t1 : BitVec 9
  t0 : BitVec 9
  imm8 : BitVec 8
  pl : BitVec 3
  ty2 : BitVec 5
  sat : BitVec 1
  rnd : BitVec 3
  ty : BitVec 5
  deriving DecidableEq, Repr

/-- MCLAIM (R304). -/
structure ClaimF where
  p : BitVec 2
  t1 : BitVec 9
  t0 : BitVec 9
  pair : BitVec 1
  lsid : BitVec 5
  deriving DecidableEq, Repr

/-- W forms without a result whose second word holds only the LSID. -/
structure LsF where
  p : BitVec 2
  lsid : BitVec 5
  deriving DecidableEq, Repr

/-- W forms with a result whose second word holds only the LSID. -/
structure RsF where
  p : BitVec 2
  t1 : BitVec 9
  t0 : BitVec 9
  lsid : BitVec 5
  deriving DecidableEq, Repr

/-- MSHAPE (R304). -/
structure ShapeF where
  p : BitVec 2
  rowsm1 : BitVec 7
  colsm1 : BitVec 10
  fmt : BitVec 5
  lsid : BitVec 5
  deriving DecidableEq, Repr

/-- MLOAD and MSTORE (R304); PRED is 00 because c arrives at the predicate port (R303). -/
structure XferF where
  t1 : BitVec 9
  t0 : BitVec 9
  row0 : BitVec 7
  nrowm1 : BitVec 7
  pl : BitVec 3
  scope : BitVec 3
  cls : BitVec 3
  lsid : BitVec 5
  deriving DecidableEq, Repr

/-- MROW and MROWR (R304). -/
structure RowF where
  p : BitVec 2
  t1 : BitVec 9
  t0 : BitVec 9
  row : BitVec 7
  seg : BitVec 3
  lsid : BitVec 5
  deriving DecidableEq, Repr

/-- MCOL and MCOLW (R304). -/
structure ColF where
  p : BitVec 2
  t1 : BitVec 9
  t0 : BitVec 9
  row0 : BitVec 7
  col : BitVec 9
  lsid : BitVec 5
  deriving DecidableEq, Repr

/-- MMA (R304). -/
structure MmaF where
  p : BitVec 2
  t1 : BitVec 9
  t0 : BitVec 9
  pl : BitVec 3
  lsid : BitVec 5
  deriving DecidableEq, Repr

/-- MSCAN (R304). -/
structure ScanF where
  p : BitVec 2
  t1 : BitVec 9
  t0 : BitVec 9
  hrow : BitVec 7
  lsid : BitVec 5
  deriving DecidableEq, Repr

/-- MACCR (R304). -/
structure AccrF where
  p : BitVec 2
  t1 : BitVec 9
  t0 : BitVec 9
  rnd : BitVec 3
  clr : BitVec 1
  lsid : BitVec 5
  deriving DecidableEq, Repr

/-- LCLOAD (R361). -/
structure LcloadF where
  p : BitVec 2
  t1 : BitVec 9
  t0 : BitVec 9
  ctx : BitVec 3
  cls : BitVec 3
  scope : BitVec 3
  ntf : BitVec 1
  port : BitVec 6
  lsid : BitVec 5
  deriving DecidableEq, Repr

/-- LCSEL (R361). -/
structure LcselF where
  p : BitVec 2
  t1 : BitVec 9
  t0 : BitVec 9
  ctx : BitVec 3
  scope : BitVec 3
  ntf : BitVec 1
  port : BitVec 6
  lsid : BitVec 5
  deriving DecidableEq, Repr

/-- LCIN (R361); PRED is 00. -/
structure LcinF where
  t1 : BitVec 9
  t0 : BitVec 9
  ty : BitVec 5
  plm1 : BitVec 3
  thr : BitVec 1
  bank : BitVec 1
  cls : BitVec 3
  scope : BitVec 3
  ntf : BitVec 1
  port : BitVec 6
  lsid : BitVec 5
  deriving DecidableEq, Repr

/-- LCRUN (R361). -/
structure LcrunF where
  p : BitVec 2
  t1 : BitVec 9
  t0 : BitVec 9
  repm1 : BitVec 4
  scope : BitVec 3
  ntf : BitVec 1
  port : BitVec 6
  lsid : BitVec 5
  deriving DecidableEq, Repr

/-- LCOUT (R361). -/
structure LcoutF where
  p : BitVec 2
  t1 : BitVec 9
  t0 : BitVec 9
  bank : BitVec 1
  cls : BitVec 3
  scope : BitVec 3
  ntf : BitVec 1
  port : BitVec 6
  lsid : BitVec 5
  deriving DecidableEq, Repr

/-- CPY (R378); PRED is 00. -/
structure CpyF where
  t1 : BitVec 9
  t0 : BitVec 9
  cv : BitVec 1
  stype : BitVec 5
  dtype : BitVec 5
  rnd : BitVec 3
  cls : BitVec 3
  scope : BitVec 3
  ntf : BitVec 1
  port : BitVec 6
  lsid : BitVec 5
  deriving DecidableEq, Repr

/-- CPYS (R378); PRED is 00. -/
structure CpysF where
  t1 : BitVec 9
  t0 : BitVec 9
  cls : BitVec 3
  scope : BitVec 3
  ntf : BitVec 1
  port : BitVec 6
  lsid : BitVec 5
  deriving DecidableEq, Repr

/-- STQ (R378). -/
structure StqF where
  p : BitVec 2
  t1 : BitVec 9
  t0 : BitVec 9
  sel : BitVec 2
  deriving DecidableEq, Repr

/-- SEND and SENDT (R347). -/
structure SendF where
  p : BitVec 2
  t1 : BitVec 9
  t0 : BitVec 9
  scope : BitVec 3
  wcm1 : BitVec 3
  v : BitVec 1
  lsid : BitVec 5
  deriving DecidableEq, Repr

/-- PATSET (R346, R347): no result, PRED 00. -/
structure C3F where
  lsid : BitVec 5
  deriving DecidableEq, Repr

/-- SPAWN and SPAWNP (R404); PRED is 00. -/
structure SpawnF where
  t1 : BitVec 9
  t0 : BitVec 9
  scope : BitVec 3
  lsid : BitVec 5
  deriving DecidableEq, Repr

/-- W forms without a result whose second word is zero. -/
structure PF where
  p : BitVec 2
  deriving DecidableEq, Repr

/-- TRAP (R429). -/
structure TrapF where
  p : BitVec 2
  code : BitVec 16
  deriving DecidableEq, Repr

/-- ERET (R429). -/
structure EretF where
  p : BitVec 2
  ex : BitVec 3
  deriving DecidableEq, Repr

/-- TLBINV (R429). -/
structure TlbinvF where
  p : BitVec 2
  scope : BitVec 3
  mode : BitVec 2
  lsid : BitVec 5
  deriving DecidableEq, Repr

/-- PERFR (R429). -/
structure PerfrF where
  p : BitVec 2
  t1 : BitVec 9
  t0 : BitVec 9
  sel : BitVec 3
  deriving DecidableEq, Repr

/-- Bytes that a link brings, and which granules of their line it marks poisoned (R65). -/
structure LinkData where
  bytes : List Byte
  pz : BitVec 4
  deriving DecidableEq, Repr

/-- A conflict of a host (R114): 64 is port A, 65 port B, below 64 the host that the peer port of a package forwards; the bytes it
writes, or none where it asks for the line. -/
structure HostAnswer extends LinkData where
  host : Nat
  deriving DecidableEq, Repr

/-- The instructions and events of the GZ-8, one constructor for each row of the opcode table. -/
inductive Instr where
  /-- ADD_W (R237). 32-bit add with the result sign-extended. -/
  | addW (f : GF)
  /-- SUB_W (R237). 32-bit subtract, sign-extended. -/
  | subW (f : GF)
  /-- MUL_W (R237). 32-bit multiply, sign-extended. -/
  | mulW (f : GF)
  /-- MULH_W (R237). High 32 bits of the signed 64-bit product, sign-extended. -/
  | mulhW (f : GF)
  /-- MULHZ_W (R237). High 32 bits of the unsigned 64-bit product, sign-extended. -/
  | mulhzW (f : GF)
  /-- DIV_W (R238). 32-bit signed quotient. -/
  | divW (f : GF)
  /-- DIVZ_W (R238). 32-bit unsigned quotient. -/
  | divzW (f : GF)
  /-- REM_W (R238). 32-bit signed remainder. -/
  | remW (f : GF)
  /-- REMZ_W (R238). 32-bit unsigned remainder. -/
  | remzW (f : GF)
  /-- MIN_W (R237). 32-bit signed minimum. -/
  | minW (f : GF)
  /-- MAX_W (R237). 32-bit signed maximum. -/
  | maxW (f : GF)
  /-- MINZ_W (R237). 32-bit unsigned minimum. -/
  | minzW (f : GF)
  /-- MAXZ_W (R237). 32-bit unsigned maximum. -/
  | maxzW (f : GF)
  /-- ABS_W (R237). 32-bit absolute value, sign-extended. -/
  | absW (f : GF)
  /-- NEG_W (R237). 32-bit negation, sign-extended. -/
  | negW (f : GF)
  /-- AND (R239). Bitwise AND of a and b. -/
  | and (f : GF)
  /-- OR (R239). Bitwise OR of a and b. -/
  | or (f : GF)
  /-- XOR (R239). Bitwise XOR of a and b. -/
  | xor (f : GF)
  /-- ANDN (R239). a AND NOT b. -/
  | andn (f : GF)
  /-- ORN (R239). a OR NOT b. -/
  | orn (f : GF)
  /-- SHL (R239). Shift left by b[5:0]. -/
  | shl (f : GF)
  /-- SHR (R239). Logical shift right by b[5:0]. -/
  | shr (f : GF)
  /-- SAR (R239). Arithmetic shift right by b[5:0]. -/
  | sar (f : GF)
  /-- ROL (R239). Rotate left by b[5:0]. -/
  | rol (f : GF)
  /-- ROR (R239). Rotate right by b[5:0]. -/
  | ror (f : GF)
  /-- CLZ (R240). Counts leading zero bits of a. -/
  | clz (f : GF)
  /-- CTZ (R240). Counts trailing zero bits of a. -/
  | ctz (f : GF)
  /-- POPC (R240). Counts one bits of a. -/
  | popc (f : GF)
  /-- BREV (R240). Reverses the bits of a. -/
  | brev (f : GF)
  /-- BSWAP (R240). Reverses the bytes of a. -/
  | bswap (f : GF)
  /-- EXTS (R240). Extracts a field of a given by b and sign-extends it. -/
  | exts (f : GF)
  /-- EXTZ (R240). Extracts a field of a given by b and zero-extends it. -/
  | extz (f : GF)
  /-- INS (R240). Inserts bits from b[63:14] into a field of a. -/
  | ins (f : GF)
  /-- TEQ (R241). Produces 1 when a = b, else 0. -/
  | teq (f : GF)
  /-- TNE (R241). Produces 1 when a differs from b. -/
  | tne (f : GF)
  /-- TLT (R241). Signed less-than test. -/
  | tlt (f : GF)
  /-- TLE (R241). Signed less-or-equal test. -/
  | tle (f : GF)
  /-- TLTZ (R241). Unsigned less-than test. -/
  | tltz (f : GF)
  /-- TLEZ (R241). Unsigned less-or-equal test. -/
  | tlez (f : GF)
  /-- TEQ_W (R241). 32-bit equality test. -/
  | teqW (f : GF)
  /-- TNE_W (R241). 32-bit inequality test. -/
  | tneW (f : GF)
  /-- TLT_W (R241). 32-bit signed less-than test. -/
  | tltW (f : GF)
  /-- TLE_W (R241). 32-bit signed less-or-equal test. -/
  | tleW (f : GF)
  /-- TLTZ_W (R241). 32-bit unsigned less-than test. -/
  | tltzW (f : GF)
  /-- TLEZ_W (R241). 32-bit unsigned less-or-equal test. -/
  | tlezW (f : GF)
  /-- MOV (R243). Sends operand a unchanged to both targets. -/
  | mov (f : GF)
  /-- SEL (R243). Sends b when a is nonzero, otherwise a null token. -/
  | sel (f : GF)
  /-- NULL (R243). Sends a null token to both targets. -/
  | null (f : GF)
  /-- FADD_F64 (R246). FP64 addition rounded under fcr.RM. -/
  | faddF64 (f : GF)
  /-- FSUB_F64 (R246). FP64 subtraction. -/
  | fsubF64 (f : GF)
  /-- FMUL_F64 (R246). FP64 multiplication. -/
  | fmulF64 (f : GF)
  /-- FDIV_F64 (R246). FP64 division on the node's divide unit. -/
  | fdivF64 (f : GF)
  /-- FSQRT_F64 (R246). FP64 square root. -/
  | fsqrtF64 (f : GF)
  /-- FFMA_F64 (R248). FP64 fused multiply-add with c taken at the predicate port. -/
  | ffmaF64 (f : FmaF)
  /-- FMIN_F64 (R246). FP64 minimumNumber. -/
  | fminF64 (f : GF)
  /-- FMAX_F64 (R246). FP64 maximumNumber. -/
  | fmaxF64 (f : GF)
  /-- FADD_F32 (R246). FP32 addition. -/
  | faddF32 (f : GF)
  /-- FSUB_F32 (R246). FP32 subtraction. -/
  | fsubF32 (f : GF)
  /-- FMUL_F32 (R246). FP32 multiplication. -/
  | fmulF32 (f : GF)
  /-- FDIV_F32 (R246). FP32 division. -/
  | fdivF32 (f : GF)
  /-- FSQRT_F32 (R246). FP32 square root. -/
  | fsqrtF32 (f : GF)
  /-- FFMA_F32 (R248). FP32 fused multiply-add with c at the predicate port. -/
  | ffmaF32 (f : FmaF)
  /-- FMIN_F32 (R246). FP32 minimumNumber. -/
  | fminF32 (f : GF)
  /-- FMAX_F32 (R246). FP32 maximumNumber. -/
  | fmaxF32 (f : GF)
  /-- FCMP_EQ_F64 (R247). FP64 equality compare. -/
  | fcmpEqF64 (f : GF)
  /-- FCMP_LT_F64 (R247). FP64 less-than compare. -/
  | fcmpLtF64 (f : GF)
  /-- FCMP_LE_F64 (R247). FP64 less-or-equal compare. -/
  | fcmpLeF64 (f : GF)
  /-- FCMP_UN_F64 (R247). FP64 unordered compare. -/
  | fcmpUnF64 (f : GF)
  /-- FCMP_EQ_F32 (R247). FP32 equality compare. -/
  | fcmpEqF32 (f : GF)
  /-- FCMP_LT_F32 (R247). FP32 less-than compare. -/
  | fcmpLtF32 (f : GF)
  /-- FCMP_LE_F32 (R247). FP32 less-or-equal compare. -/
  | fcmpLeF32 (f : GF)
  /-- FCMP_UN_F32 (R247). FP32 unordered compare. -/
  | fcmpUnF32 (f : GF)
  /-- FCVT_F64_F32 (R246). Exact widening of FP32 to FP64. -/
  | fcvtF64F32 (f : GF)
  /-- FCVT_F32_F64 (R246). Rounded narrowing of FP64 to FP32. -/
  | fcvtF32F64 (f : GF)
  /-- FCVT_I64_F64 (R220). FP64 to INT64 under fcr.RM, saturating. -/
  | fcvtI64F64 (f : GF)
  /-- FCVT_F64_I64 (R246). INT64 to FP64, rounded. -/
  | fcvtF64I64 (f : GF)
  /-- FCVT_I64_F32 (R220). FP32 to INT64 under fcr.RM. -/
  | fcvtI64F32 (f : GF)
  /-- FCVT_F32_I64 (R246). INT64 to FP32, rounded. -/
  | fcvtF32I64 (f : GF)
  /-- FCVT_I64_F64_RTZ (R220). FP64 to INT64, always toward zero. -/
  | fcvtI64F64Rtz (f : GF)
  /-- FCVT_I64_F32_RTZ (R220). FP32 to INT64, always toward zero. -/
  | fcvtI64F32Rtz (f : GF)
  /-- ADDI (R242). Adds a sign-extended immediate to a. -/
  | addi (f : IF)
  /-- MULI (R242). Multiplies a by a sign-extended immediate. -/
  | muli (f : IF)
  /-- ANDI (R242). ANDs a with a zero-extended immediate. -/
  | andi (f : IF)
  /-- ORI (R242). ORs a with a zero-extended immediate. -/
  | ori (f : IF)
  /-- XORI (R242). XORs a with a zero-extended immediate. -/
  | xori (f : IF)
  /-- SHLI (R242). Shifts a left by an immediate count. -/
  | shli (f : ShF)
  /-- SHRI (R242). Logical shift right by an immediate count. -/
  | shri (f : ShF)
  /-- SARI (R242). Arithmetic shift right by an immediate count. -/
  | sari (f : ShF)
  /-- TEQI (R242). Equality test against a sign-extended immediate. -/
  | teqi (f : IF)
  /-- TNEI (R242). Inequality test against an immediate. -/
  | tnei (f : IF)
  /-- TLTI (R242). Signed less-than test against an immediate. -/
  | tlti (f : IF)
  /-- TLEI (R242). Signed less-or-equal test against an immediate. -/
  | tlei (f : IF)
  /-- TLTZI (R242). Unsigned less-than test against a zero-extended immediate. -/
  | tltzi (f : IF)
  /-- TLEZI (R242). Unsigned less-or-equal test against a zero-extended immediate. -/
  | tlezi (f : IF)
  /-- ADDIW (R242). 32-bit add of a sign-extended immediate, sign-extended. -/
  | addiw (f : IF)
  /-- MOVI (R244). Produces SignExtend(CONST16) when the block is mapped. -/
  | movi (f : CF)
  /-- APPI (R244). Produces (a << 16) OR CONST16. -/
  | appi (f : CF)
  /-- LDB (R260). Loads one byte zero-extended, performed when it fires. -/
  | ldb (f : LF)
  /-- LDH (R260). Loads two bytes zero-extended. -/
  | ldh (f : LF)
  /-- LDW (R260). Loads four bytes zero-extended. -/
  | ldw (f : LF)
  /-- LDD (R260). Loads eight bytes. -/
  | ldd (f : LF)
  /-- LDBS (R260). Loads one byte sign-extended. -/
  | ldbs (f : LF)
  /-- LDHS (R260). Loads two bytes sign-extended. -/
  | ldhs (f : LF)
  /-- LDWS (R260). Loads four bytes sign-extended. -/
  | ldws (f : LF)
  /-- LDV (R260). Loads 64 bytes as a 512-bit token. -/
  | ldv (f : LF)
  /-- STB (R261). Stores one byte at commit. -/
  | stb (f : SF)
  /-- STH (R261). Stores two bytes at commit. -/
  | sth (f : SF)
  /-- STW (R261). Stores four bytes at commit. -/
  | stw (f : SF)
  /-- STD (R261). Stores eight bytes at commit, producing its address when it fires. -/
  | std (f : SF)
  /-- STV (R261). Stores 64 bytes of a vector token at commit. -/
  | stv (f : SF)
  /-- BR (R249). Fires an exit to the block at a relative offset. -/
  | br (f : BF)
  /-- CALL (R249). Fires an exit to a relative target; links g3 and kills conv groups at commit. -/
  | call (f : BF)
  /-- BRI (R249). Fires an exit to the address in a within the block's 2^64 region. -/
  | bri (f : BrF)
  /-- RET (R249). Fires an exit to the address in a and kills conv groups at commit. -/
  | ret (f : BrF)
  /-- SCALL (R256). Fires an exit and, after its block commits, enters the system-call trap. -/
  | scall (f : BF)
  /-- HINT (R202). Hint-space instruction that acts as MOV on the GZ-8. -/
  | hint (f : HintF)
  /-- CALLI (R253). Reads the function-table entry, checks its signature and fires an exit to its target. -/
  | calli (f : CalliF)
  /-- MOV4 (R245). Sends operand a to four targets. -/
  | mov4 (f : Mov4F)
  /-- LD (R265). Wide load with class, scope, ordering and full/empty modifiers. -/
  | ld (f : MemF)
  /-- ST (R265). Wide store with class, scope, ordering and full/empty modifiers. -/
  | st (f : MemF)
  /-- GATHER (R267). Loads one element per index lane into a vector. -/
  | gather (f : MemF)
  /-- SCATTER (R267). Stores one element per index lane at commit. -/
  | scatter (f : MemF)
  /-- PREF (R268). Requests a line into L1, or drops the request without effect. -/
  | pref (f : MemF)
  /-- LFLUSH (R269). Writes back the dirty granules of a line at commit. -/
  | lflush (f : MemF)
  /-- LINV (R269). Writes back and invalidates a line in L1 and block cache at commit. -/
  | linv (f : MemF)
  /-- AADD (R270). Atomic add returning the old value. -/
  | aadd (f : MemF)
  /-- AAND (R270). Atomic AND. -/
  | aand (f : MemF)
  /-- AOR (R270). Atomic OR. -/
  | aor (f : MemF)
  /-- AXOR (R270). Atomic XOR. -/
  | axor (f : MemF)
  /-- AMIN (R270). Atomic signed minimum. -/
  | amin (f : MemF)
  /-- AMAX (R270). Atomic signed maximum. -/
  | amax (f : MemF)
  /-- AMINZ (R270). Atomic unsigned minimum. -/
  | aminz (f : MemF)
  /-- AMAXZ (R270). Atomic unsigned maximum. -/
  | amaxz (f : MemF)
  /-- AXCHG (R270). Atomic exchange. -/
  | axchg (f : MemF)
  /-- ACAS (R270). Atomic compare-and-swap. -/
  | acas (f : MemF)
  /-- AFADD_F32 (R270). Atomic FP32 add under .rne. -/
  | afaddF32 (f : MemF)
  /-- AFADD_BF16X2 (R270). Atomic add of two BF16 halves. -/
  | afaddBf16x2 (f : MemF)
  /-- FENCE (R275). Orders accesses; at commit moves the pending signature and/or applies the arrived signature. -/
  | fence (f : SyncF)
  /-- BARA (R277). Barrier arrival at commit, after draining, completing the episode on the last arrival. -/
  | bara (f : SyncF)
  /-- BARW (R277). Waits for the recorded barrier episode to complete and applies its signature. -/
  | barw (f : SyncF)
  /-- VADD_INT (R285). Lane-wise integer add, wrapping or saturating. -/
  | vaddInt (f : VecF)
  /-- VSUB_INT (R285). Lane-wise integer subtract. -/
  | vsubInt (f : VecF)
  /-- VMUL_INT (R285). Lane-wise integer multiply. -/
  | vmulInt (f : VecF)
  /-- VMULH (R285). High half of lane-wise integer products. -/
  | vmulh (f : VecF)
  /-- VMIN_INT (R285). Lane-wise integer minimum. -/
  | vminInt (f : VecF)
  /-- VMAX_INT (R285). Lane-wise integer maximum. -/
  | vmaxInt (f : VecF)
  /-- VABS_INT (R285). Lane-wise integer absolute value. -/
  | vabsInt (f : VecF)
  /-- VNEG_INT (R285). Lane-wise integer negation. -/
  | vnegInt (f : VecF)
  /-- VAND (R285). Bitwise AND of vectors. -/
  | vand (f : VecF)
  /-- VOR (R285). Bitwise OR of vectors. -/
  | vor (f : VecF)
  /-- VXOR (R285). Bitwise XOR of vectors. -/
  | vxor (f : VecF)
  /-- VSHL (R285). Lane-wise shift left. -/
  | vshl (f : VecF)
  /-- VSHR (R285). Lane-wise logical shift right. -/
  | vshr (f : VecF)
  /-- VSAR (R285). Lane-wise arithmetic shift right. -/
  | vsar (f : VecF)
  /-- VCMP_INT (R287). Lane-wise integer compare producing a lane mask. -/
  | vcmpInt (f : VecF)
  /-- VSEL (R285). Bitwise select of b and c under mask a. -/
  | vsel (f : VecF)
  /-- VADD_FP (R288). Lane-wise floating-point add. -/
  | vaddFp (f : VecF)
  /-- VSUB_FP (R288). Lane-wise floating-point subtract. -/
  | vsubFp (f : VecF)
  /-- VMUL_FP (R288). Lane-wise floating-point multiply. -/
  | vmulFp (f : VecF)
  /-- VFMA (R288). Lane-wise fused multiply-add. -/
  | vfma (f : VecF)
  /-- VFMS (R288). Lane-wise fused multiply-subtract. -/
  | vfms (f : VecF)
  /-- VMIN_FP (R288). Lane-wise minimumNumber. -/
  | vminFp (f : VecF)
  /-- VMAX_FP (R288). Lane-wise maximumNumber. -/
  | vmaxFp (f : VecF)
  /-- VABS_FP (R288). Lane-wise floating-point absolute value. -/
  | vabsFp (f : VecF)
  /-- VNEG_FP (R288). Lane-wise floating-point negation. -/
  | vnegFp (f : VecF)
  /-- VCMP_FP (R288). Lane-wise floating-point compare producing a lane mask. -/
  | vcmpFp (f : VecF)
  /-- VRCP (R289). Correctly rounded FP32 reciprocal per lane. -/
  | vrcp (f : VecF)
  /-- VRSQ (R289). Correctly rounded FP32 reciprocal square root per lane. -/
  | vrsq (f : VecF)
  /-- VEXP2 (R289). Correctly rounded FP32 2^x per lane. -/
  | vexp2 (f : VecF)
  /-- VLOG2 (R289). Correctly rounded FP32 log2 per lane. -/
  | vlog2 (f : VecF)
  /-- VCVT (R290). Converts lanes between types into or from one part of the vector. -/
  | vcvt (f : VecF)
  /-- VSHUF (R291). Permutes lanes of a by indices in b. -/
  | vshuf (f : VecF)
  /-- VBCAST (R291). Broadcasts a scalar to every lane. -/
  | vbcast (f : VecF)
  /-- VINS (R291). Replaces one lane with a scalar. -/
  | vins (f : VecF)
  /-- VEXT (R291). Extracts one lane as a scalar. -/
  | vext (f : VecF)
  /-- VRED (R293). Reduces the lanes in a fixed pairwise tree to a scalar. -/
  | vred (f : VecF)
  /-- VSCAN (R293). Inclusive scan of the lanes in lane order from a carry. -/
  | vscan (f : VecF)
  /-- VDOT (R294). Adds groups of lane products into accumulator lanes. -/
  | vdot (f : VecF)
  /-- VMXQ (R296). Quantises 32 FP32 values into an MX image. -/
  | vmxq (f : VecF)
  /-- VMXDQ (R296). Dequantises an MX image into FP32 or BF16 lanes. -/
  | vmxdq (f : VecF)
  /-- VNIPACK (R297). Packs 64 INT8 lanes into eight bit planes. -/
  | vnipack (f : VecF)
  /-- VNIUNPACK (R297). Reads a plane image at plane count k into INT8 lanes. -/
  | vniunpack (f : VecF)
  /-- MCLAIM (R307). Claims a slot name and physical slot, producing a handle or 0. -/
  | mclaim (f : ClaimF)
  /-- MREL (R308). Releases a slot at commit. -/
  | mrel (f : LsF)
  /-- MSHAPE (R309). Sets a slot's rows, columns and format at commit. -/
  | mshape (f : ShapeF)
  /-- MLOAD (R318). Job moving slot rows from memory. -/
  | mload (f : XferF)
  /-- MSTORE (R318). Job moving slot rows to memory. -/
  | mstore (f : XferF)
  /-- MROW (R316). Buffered move writing 64 bytes of a row. -/
  | mrow (f : RowF)
  /-- MROWR (R316). Reads 64 bytes of a row into a vector before commit. -/
  | mrowr (f : RowF)
  /-- MCOL (R317). Reads a column into a vector before commit. -/
  | mcol (f : ColF)
  /-- MCOLW (R317). Buffered move writing a column from a vector. -/
  | mcolw (f : ColF)
  /-- MZERO (R320). Job zeroing a slot. -/
  | mzero (f : RsF)
  /-- MMA (R320). Job computing D += A times B transposed. -/
  | mma (f : MmaF)
  /-- MMAS (R320). Scaled MX matrix multiply job. -/
  | mmas (f : RsF)
  /-- MSCAN (R321). Job running a linear recurrence scan over tiles. -/
  | mscan (f : ScanF)
  /-- MACCR (R322). Job converting an accumulator slot into another format. -/
  | maccr (f : AccrF)
  /-- MWAIT (R324). Waits for a job to complete and produces its status. -/
  | mwait (f : RsF)
  /-- MPOLL (R324). Produces a job's status if complete, else 0. -/
  | mpoll (f : RsF)
  /-- LCLOAD (R365). Fabric command loading a context image into a slot. -/
  | lcload (f : LcloadF)
  /-- LCSEL (R366). Fabric command setting the selection. -/
  | lcsel (f : LcselF)
  /-- LCIN (R368). Fabric command transposing tensor data into wires. -/
  | lcin (f : LcinF)
  /-- LCRUN (R367). Fabric command evaluating layers of the selected context. -/
  | lcrun (f : LcrunF)
  /-- LCOUT (R370). Fabric command summing wire groups into INT16 scores in memory. -/
  | lcout (f : LcoutF)
  /-- LCWAIT (R371). Waits for a fabric command and produces its status. -/
  | lcwait (f : RsF)
  /-- LCSTAT (R372). Produces the fabric state. -/
  | lcstat (f : GF)
  /-- CPY (R382). Copy command of a strided array, optionally converting. -/
  | cpy (f : CpyF)
  /-- CPYS (R385). Command opening a multicast stream. -/
  | cpys (f : CpysF)
  /-- STFREE (R80). Frees the head slot of a branch at commit and sends a freed-slot notice. -/
  | stfree (f : LsF)
  /-- STCLOSE (R391). Closes a stream early at commit. -/
  | stclose (f : LsF)
  /-- STQ (R390). Reads one word of a stream-table entry. -/
  | stq (f : StqF)
  /-- CWAIT (R392). Waits for a copy command and produces its status. -/
  | cwait (f : RsF)
  /-- SEND (R349). Requests a grant and delivers an untagged message at commit. -/
  | send (f : SendF)
  /-- SENDT (R349). Requests a grant and delivers a tagged message at commit. -/
  | sendt (f : SendF)
  /-- PORTCFG (R350). Writes a port configuration at commit. -/
  | portcfg (f : LsF)
  /-- PATSET (R351). Reads the handler entry and installs and enables a pattern at commit. -/
  | patset (f : C3F)
  /-- PATCLR (R351). Disables a pattern at commit. -/
  | patclr (f : LsF)
  /-- PORTQ (R350). Reads a port's state. -/
  | portq (f : GF)
  /-- HEND (R352). Ends the handler thread at commit and lowers its pattern's running count. -/
  | hend (f : LsF)
  /-- SPAWN (R407). Requests a thread from the grid allocator and creates it after commit. -/
  | spawn (f : SpawnF)
  /-- SPAWNP (R408). Requests a pack of threads on every POOL grid. -/
  | spawnp (f : SpawnF)
  /-- COMPOSE (R167). Checks and reserves grids to widen the core at commit. -/
  | compose (f : GF)
  /-- DECOMP (R168). Narrows the core at commit. -/
  | decomp (f : GF)
  /-- FOLLOW (R173). Joins a leader's pack in state Waiting at commit. -/
  | follow (f : GF)
  /-- UNFOLLOW (R175). Leaves or dissolves a pack at commit. -/
  | unfollow (f : PF)
  /-- REJOIN (R174). Leader gathers members after commit, or a stray member becomes Waiting. -/
  | rejoin (f : PF)
  /-- TEND (R410). Ends the thread at commit. -/
  | tend (f : LsF)
  /-- TRAP (R430). Marks its block for the TRAP instruction class. -/
  | trap (f : TrapF)
  /-- ERET (R431). Returns from a trap at commit, restoring SUP and clearing EXL. -/
  | eret (f : EretF)
  /-- SRR (R432). Reads a system register as a device access when oldest. -/
  | srr (f : RsF)
  /-- SRW (R432). Writes a system register at commit. -/
  | srw (f : LsF)
  /-- TLBINV (R433). Removes translations of the context within a scope at commit. -/
  | tlbinv (f : TlbinvF)
  /-- CTXKILL (R434). Kills the executing context at commit. -/
  | ctxkill (f : LsF)
  /-- PERFR (R435). Produces a per-thread performance counter. -/
  | perfr (f : PerfrF)
  /-- ADD (R237). Adds operands a and b modulo 2^64 and sends the result to both targets. -/
  | add (f : GF)
  /-- SUB (R237). Subtracts b from a modulo 2^64. -/
  | sub (f : GF)
  /-- MUL (R237). Multiplies a by b modulo 2^64. -/
  | mul (f : GF)
  /-- MULH (R237). Produces bits [127:64] of the signed product. -/
  | mulh (f : GF)
  /-- MULHZ (R237). Produces bits [127:64] of the unsigned product. -/
  | mulhz (f : GF)
  /-- DIV (R238). Signed quotient truncated toward zero, with fixed results for divide by zero and overflow. -/
  | div (f : GF)
  /-- DIVZ (R238). Unsigned quotient. -/
  | divz (f : GF)
  /-- REM (R238). Signed remainder with the sign of the dividend. -/
  | rem (f : GF)
  /-- REMZ (R238). Unsigned remainder. -/
  | remz (f : GF)
  /-- MIN (R237). Signed minimum of a and b. -/
  | min (f : GF)
  /-- MAX (R237). Signed maximum of a and b. -/
  | max (f : GF)
  /-- MINZ (R237). Unsigned minimum of a and b. -/
  | minz (f : GF)
  /-- MAXZ (R237). Unsigned maximum of a and b. -/
  | maxz (f : GF)
  /-- ABS (R237). Absolute value of a modulo 2^64. -/
  | abs (f : GF)
  /-- NEG (R237). Negation of a modulo 2^64. -/
  | neg (f : GF)
  /-- BLOCK_FETCH (R48). A block's fetch begins through the block cache when a frame is available. -/
  | blockFetch (thr exitNum : Nat)
  /-- BLOCK_CHUNK_ARRIVAL (R48). A missing block chunk arrives from its home and frees a fetch register. -/
  | blockChunkArrival (thr seq chunk : Nat)
  /-- BLOCK_MAP (R203). A block is mapped onto nodes and checked in four passes. -/
  | blockMap (thr seq : Nat)
  /-- REFUSED_BLOCK (R204). A refused block that is oldest raises the block-format or reserved-instruction fault. -/
  | refusedBlock (thr : Nat)
  /-- TOKEN_ARRIVAL (R163). A produced token reaches its target slot or write entry after its delivery delay. -/
  | tokenArrival (thr seq idx : Nat)
  /-- TOKEN_COLLISION (R205). A collision is raised when its block is oldest and nothing can fire. -/
  | tokenCollision (thr : Nat)
  /-- COMMIT_REQUEST (R109). The oldest block meeting its commit conditions is checked by the commit arbiter and committed or squashed. -/
  | commitRequest (thr : Nat)
  /-- RELEASE_DRAIN_END (R461). When every drain acknowledgement has arrived, the releasing access is sent with its signature. -/
  | releaseDrainEnd (thr : Nat)
  /-- MISS_REGISTER_GRANT (R62). A request waiting for a free miss register takes one and is sent. -/
  | missRegisterGrant (thr seq slot : Nat)
  /-- WALK_START (R33). A shared-TLB miss takes a walk slot or joins a walk in progress. -/
  | walkStart (clu idx : Nat)
  /-- WALK_SLOT_GRANT (R33). A miss waiting in a cluster miss queue takes a freed walk slot. -/
  | walkSlotGrant (clu : Nat)
  /-- WALK_CACHE_HIT (R35). A walk level hits the walk cache and proceeds after 4 cycles. -/
  | walkCacheHit (die idx : Nat)
  /-- WALK_ENTRY_READ (R26). A page-table entry read returns and the walk goes to the next level, a leaf or a failure. -/
  | walkEntryRead (die idx : Nat)
  /-- ACCESSED_DIRTY_UPDATE (R27). The indivisible A/D update completes at the entry's home or is abandoned for a new walk. -/
  | accessedDirtyUpdate (die idx : Nat)
  /-- TRANSLATION_FAULT (R38). An oldest block with failures writes the fault record and traps. -/
  | translationFault (thr : Nat)
  /-- SIGNATURE_FAULT (R255). A CALLI bound or signature failure is raised when its block is oldest. -/
  | signatureFault (thr : Nat)
  /-- MEMORY_OPERAND_FAULT (R273). A misaligned or device-page atomic, or bad SRR/SRW offset, is raised. -/
  | memoryOperandFault (thr : Nat)
  /-- FULL_EMPTY_MISUSE (R67). A qualified access breaking its region or size rule is raised. -/
  | fullEmptyMisuse (thr : Nat)
  /-- DATA_ERROR (R65). A block that consumed poisoned data takes the data-error fault when oldest. -/
  | dataError (thr : Nat)
  /-- MATRIX_FAULT (R305). A failed matrix slot-table check is raised. -/
  | matrixFault (thr : Nat)
  /-- PORT_FAULT (R348). A failed PORT operand check is raised. -/
  | portFault (thr : Nat)
  /-- LOOKUP_FAULT (R362). A failed LCELL operand check is raised. -/
  | lookupFault (thr : Nat)
  /-- STREAM_FAULT (R379). A failed copy-group check is raised. -/
  | streamFault (thr : Nat)
  /-- THREAD_STATE_FAULT (R406). A failed THREAD operand check, or several width/pack instructions in one block, is raised. -/
  | threadStateFault (thr : Nat)
  /-- CLUSTER_MAP_FAULT (R178). A logical cluster that the map does not hold is raised. -/
  | clusterMapFault (thr : Nat)
  /-- TRAP_INSTRUCTION (R430). A block marked by TRAP takes class 0x11 when oldest. -/
  | trapInstruction (thr : Nat)
  /-- PRIVILEGED_INSTRUCTION (R429). A supervisor-only form run outside supervisor mode takes class 0x12. -/
  | privilegedInstruction (thr : Nat)
  /-- LEASH_TRAP (R420). The leash count expires and the oldest block and younger ones are discarded into a trap. -/
  | leashTrap (thr : Nat)
  /-- OWN_LOAD_MISS (R91). An .own load miss or block-cache fetch reaches the home and adds to the own set. -/
  | ownLoadMiss (n : Nat)
  /-- OWNERSHIP_REQUEST (R91). An .own store ownership request reaches the home, recalls copies and grants E. -/
  | ownershipRequest (n : Nat)
  /-- WT_SI_LOAD_MISS (R91). A .wt or .si load miss reaches the home and adds to the self set. -/
  | wtSiLoadMiss (n : Nat)
  /-- UC_LOAD (R91). A .uc load is performed at the home without recording a copy. -/
  | ucLoad (n : Nat)
  /-- WT_UC_STORE (R91). A .wt or .uc store reaches the home, recalls tracked copies and merges bytes. -/
  | wtUcStore (n : Nat)
  /-- SI_WRITE_BACK (R93). A .si write-back replaces each dirty granule whole at the home. -/
  | siWriteBack (n : Nat)
  /-- ATOMIC_ISSUE (R271). An atomic whose block is oldest is sent to its home in LSID order. -/
  | atomicIssue (thr seq slot : Nat)
  /-- ATOMIC_AT_HOME (R271). The home recalls, reads V, reserves the granules and replies. -/
  | atomicAtHome (n : Nat)
  /-- RESERVATION_BREAK (R272). A write waiting 512 cycles breaks a reservation and squashes the holding block. -/
  | reservationBreak (granule : Nat)
  /-- RECALL (R91). A recall or invalidation reaches a holder, which drops its copy and acknowledges. -/
  | recallReach (n : Nat)
  /-- RECALL_ACK (R91). A recall acknowledgement reaches the home; when all have arrived the waiting request is performed. -/
  | recallAck (n : Nat)
  /-- MEMORY_FILL (R57). An L2 miss returns data from HBM, LPDDR or CXL memory. The line comes into a slice of its home, `node` 0, or
  of the proxy on die `node - 1`. -/
  | memoryFill (node line : Nat)
  /-- LOAD_REPLY (R62). A reply reaches its miss register, delivers the value and signature, or is dropped if stale. -/
  | loadReply (n victim : Nat)
  /-- STORE_ACK (R62). A home or vault acknowledges a store, write-back or line operation, freeing its register or queue entry. -/
  | storeAck (n : Nat)
  /-- SIGNATURE_PURGE (R102). An overflow signature set to all starts a package purge of .wt and .si lines. -/
  | signaturePurge (unit : Nat)
  /-- PURGE_CLEAR (R102). When every grid has acknowledged the purge, the Sheepdog clears the all overflow signatures. -/
  | purgeClear
  /-- DEVICE_ACCESS (R25). A device access is performed as .uc once its block is oldest, taking the arbiter lock. -/
  | deviceAccess (thr seq slot : Nat)
  /-- VAULT_ACCESS (R69). An access reaches a vault granule arbiter and is performed or placed on the wait list. -/
  | vaultAccess (n : Nat)
  /-- VAULT_RETRY (R71). An access returned by a full wait list is resent 32 cycles later. -/
  | vaultRetry (n : Nat)
  /-- ENGINE_OWNERSHIP (R84). An engine ownership request reaches the home, recalls all copies and records the owner. -/
  | engineOwnership (n : Nat)
  /-- ENGINE_WRITE_LANDS (R85). An engine's write of an owned line lands, ending ownership and releasing held requests. -/
  | engineWriteLands (n : Nat)
  /-- COPY_START (R83). The copy engine takes a command from its queue, translates and takes ownership and holds. -/
  | copyStart (clu : Nat)
  /-- CPY_PORTION_TOKEN (R380). A running CPY takes a tile-start token to begin its next 32 KiB portion. -/
  | cpyPortionToken (clu cmd : Nat)
  /-- COPY_SOURCE_READ (R382). A 64-byte source read returns, freeing its tile tag, and its bytes are written. -/
  | copySourceRead (clu cmd : Nat)
  /-- COPY_COMPLETION (R87). A command completes: release, full bits set, holds released, message posted, waiters released. -/
  | copyCompletion (clu cmd : Nat)
  /-- STREAM_OPEN (R388). A CPYS takes a stream, reserves entries, clears full bits and grants credit. -/
  | streamOpen (clu : Nat)
  /-- TILE_READ (R78). The source engine reads the next tile into staging while staged tiles are below two. -/
  | tileRead (clu cmd : Nat)
  /-- TILE_START (R78). The oldest staged tile starts into a branch with a free slot, taking engine holds. -/
  | tileStart (clu cmd branch : Nat)
  /-- START_NOTICE (R388). A start notice raises W at the consumer's stream-table entry. -/
  | startNotice (n : Nat)
  /-- TILE_COMPLETE (R79). A tile completes in a branch: full bits set, C raised, tile message posted. -/
  | tileComplete (clu cmd branch : Nat)
  /-- FREED_SLOT_NOTICE (R81). A freed-slot notice reaches the producing engine and adds credit. -/
  | freedSlotNotice (n : Nat)
  /-- CLOSE_NOTICE (R391). A close notice reaches the source engine, stopping new tiles. -/
  | closeNotice (n : Nat)
  /-- MATRIX_JOB_START (R314). A pipe picks an eligible grid's oldest job, which starts and takes a bucket token. -/
  | matrixJobStart (clu pipe : Nat)
  /-- MATRIX_JOB_COMPLETE (R315). A matrix job completes, frees its queue entry and releases its waiters. -/
  | matrixJobComplete (clu pipe : Nat)
  /-- MOVE_PERFORM (R312). The engine performs the next buffered move or column/row read in issue order. -/
  | movePerform (clu : Nat)
  /-- SLOT_IMAGE_RESTORE (R427). A taken slot is reclaimed and its image read back before its owner's command proceeds. -/
  | slotImageRestore (clu ctx name : Nat)
  /-- FABRIC_COMMAND_START (R364). A fabric command starts once its unit is free, hazards clear and a token is given. -/
  | fabricCommandStart (clu unit : Nat)
  /-- LAYER (R358). One layer of the selected context is evaluated and P and N swap. -/
  | layer (clu : Nat)
  /-- FABRIC_COMMAND_COMPLETE (R373). A fabric command completes, releases and optionally posts its status message. -/
  | fabricCommandComplete (clu unit : Nat)
  /-- BUCKET_REFILL (R402). Every 256 island cycles REFILL tokens are added to each bucket of the island. -/
  | bucketRefill (island : Nat)
  /-- GRANT_REQUEST (R333). A grant request reaches a port and is granted, queued or refused by state and policy. -/
  | grantRequest (n : Nat)
  /-- GRANT_STATUS (R333). A grant status returns to the requesting thread or engine. -/
  | grantStatus (n : Nat)
  /-- MESSAGE_DELIVERY (R331). A message arrives at a port into its granted slot or Kennel entry, with its signature. -/
  | messageDelivery (n : Nat)
  /-- FIRING (R341). The join unit fires the chosen eligible pattern, consuming messages and granting a context. -/
  | firing (clu : Nat)
  /-- HANDLER_FETCH_START (R343). The handler's registers are written and its fetch begins. -/
  | handlerFetchStart (thr : Nat)
  /-- SPAWN_REQUEST (R400). A spawn request reaches the allocator and is granted, queued or refused. -/
  | spawnRequest (n : Nat)
  /-- SPAWN_QUEUE_GRANT (R400). The allocator grants the first grantable oldest entry of the spawn queue. -/
  | spawnQueueGrant (clu : Nat)
  /-- THREAD_CREATION (R396). A granted and committed spawn creates the thread and begins its fetch. -/
  | threadCreation (clu idx : Nat)
  /-- GRID_RETURN (R168). A grid removed by DECOMP, once drained, applies R145 and returns to the allocator. -/
  | gridReturn (thr : Nat)
  /-- REJOIN_RESOLVE (R174). The leader's rejoin wait ends and Waiting members become Following or Stray. -/
  | rejoinResolve (thr : Nat)
  /-- HOST_HDM_READ (R474). A host or peer HDM read is served at its home. -/
  | hostHdmRead (agent pa len : Nat)
  /-- HOST_WRITE (R91). A host or host-origin write recalls every copy and merges bytes. -/
  | hostWrite (agent pa : Nat) (x : LinkData)
  /-- PORT_WINDOW_POST (R438). A host BAR2 or peer port-window write is checked and posted to a port. -/
  | portWindowPost (agent addr : Nat) (bytes : List Byte)
  /-- PEER_ACCESS (R113). Traffic from another module arrives and acts with its own class, scope and signature: bits, insertion count
  and `all` (R96). -/
  | peerAccess (pkg kind pa cls scope len : Nat) (x : LinkData) (sig : Option (BitVec 1024 × Nat × Bool))
  /-- BIRSP (R112). A back-invalidation response arrives at the home. -/
  | birsp (n : Nat) (x : LinkData)
  /-- BICONFLICT (R114). A host signals a conflict; the home acks, performs its request first and resends. -/
  | biconflict (n : Nat) (x : HostAnswer)
  /-- PEER_LINK_DOWN (R440). A peer link goes down and unreachable packages leave the presence mask. -/
  | peerLinkDown (lost : Word)
  /-- HOST_LINK_DOWN (R443). A host link goes down or its port is reset, freeing the lock it owns. -/
  | hostLinkDown (port : Nat)
  /-- POWER_UP (R445). Power-up brings the module to POWERED. -/
  | powerUp
  /-- FUNDAMENTAL_RESET (R445). Fundamental reset of both ports brings the module to POWERED. -/
  | fundamentalReset
  /-- ACQ (R443). LOCK acquire by a host port when the lock is free. -/
  | acq (port : Nat)
  /-- REL (R443). LOCK release by its owner. -/
  | rel (port : Nat)
  /-- START (R445). BCTL START begins a load of LEN bytes or fails on a bad length. -/
  | start (port : Nat) (len : BitVec 25)
  /-- GO (R446). BCTL GO begins verification of the loaded image. -/
  | go (port : Nat)
  /-- RESET (R445). BCTL RESET performs a module reset. -/
  | reset (port : Nat)
  /-- LOAD_WINDOW_WRITE (R445). A lock owner's write stores image bytes in the load window. -/
  | loadWindowWrite (port off : Nat) (bytes : List Byte)
  /-- VERIFICATION_COMPLETE (R446). Image checks finish, moving to VERIFIED or FAILED with a code. -/
  | verificationComplete
  /-- FIRMWARE_INITIALISATION (R445). Firmware finishes initialisation, moving VERIFIED to READY or FAILED. -/
  | firmwareInitialisation (ok : Bool) (kennel : Nat)
  /-- SPDM_REQUEST (R447). A DOE mailbox request is answered by the SPDM responder. -/
  | spdmRequest (port : Nat) (request : List Byte)
  /-- CTX_CREATE (R449). Mailbox command creating a context from a descriptor image. -/
  | ctxCreate (port : Nat) (allot : List (Nat × Nat × Nat))
  /-- CTX_KILL (R428). Mailbox command killing a context with reason 0xF0. -/
  | ctxKill (port : Nat)
  /-- CTX_PREEMPT (R423). Mailbox command pre-empting a context on the named clusters. -/
  | ctxPreempt (port : Nat)
  /-- CTX_RESUME (R425). Mailbox command resuming a context's threads. -/
  | ctxResume (port : Nat)
  /-- CTX_MAP (R179). Mailbox command rewriting a cluster-map entry of a stopped context. -/
  | ctxMap (port : Nat)
  /-- KILL_QUERY (R449). Mailbox command returning the reason and generation of the last kill. -/
  | killQuery (port : Nat)
  /-- POD_SET (R440). Mailbox command setting the package number and presence mask. -/
  | podSet (port : Nat)
  /-- POWER_SET (R451). Mailbox command setting the module power limit. -/
  | powerSet (port : Nat)
  /-- ERR_CLEAR (R449). Mailbox command clearing every error counter. -/
  | errClear (port : Nat)
  /-- THERMAL_REDUCTION (R451). Temperature passing firmware limits lowers an island's clock and REFILL. -/
  | thermalReduction (island : Nat)
  /-- REGISTER_WRITE (R441). A write to a system register with no row of its own. -/
  | registerWrite (port : Nat) (off value : Word)
  /-- SPAWN_ANSWER (R400). The allocator's answer to a spawn request for another cluster returns to the requester after 6 + 2h cycles plus die hops and produces the SPAWN result. -/
  | spawnAnswer (n : Nat)
  /-- SLOT_SAVE_COMPLETE (R427). The transfer pipe finishes writing a taken DIRTY slot to its owner's image, clears DIRTY and lets the waiting MCLAIM produce its handle. -/
  | slotSaveComplete (clu : Nat)
  deriving DecidableEq, Repr

end Sys2Proof
end

