-- ==== Sys2Proof/WellFormed.lean ====
section
/-! DEFINITION. Which field values an instruction accepts. `Instr.fieldsOk` holds the second-word rules whose
failure is a reserved-instruction fault (R192, R203 code 0x00); `Instr.wellFormed` adds the two checks on a word of
its own that a block meets when it is mapped: PRED is not 01 (R190) and no target is of the reserved kind (R193). -/

namespace Sys2Proof

/-- The lane width of an element type code that may occupy lanes (R215, R281); 0 for the others. -/
def laneWidth : Nat → Nat
  | 0x00 => 8 | 0x01 => 16 | 0x02 => 32 | 0x03 => 64
  | 0x04 => 8 | 0x05 => 16 | 0x06 => 32 | 0x07 => 64
  | 0x08 => 64 | 0x09 => 32 | 0x0A => 16 | 0x0B => 16
  | 0x0C => 8 | 0x0D => 8
  | _ => 0

/-- An integer element type: codes 0x00 to 0x07 (R215). -/
def tyInt (t : BitVec 5) : Bool := t.toNat < 8
/-- A signed integer element type (R215). -/
def tySigned (t : BitVec 5) : Bool := t.toNat < 4
/-- A floating-point element type of VFP: `.f64` to `.f16` (R288). -/
def tyFp (t : BitVec 5) : Bool := 8 ≤ t.toNat && t.toNat ≤ 0x0B
/-- An element type that occupies lanes: codes 0x00 to 0x0D (R281). -/
def tyLane (t : BitVec 5) : Bool := t.toNat ≤ 0x0D
/-- A microscaling element format (R295). -/
def tyMx (t : BitVec 5) : Bool := 0x0C ≤ t.toNat && t.toNat ≤ 0x10
/-- A defined rounding code (R215). -/
def rndOk (r : BitVec 3) : Bool := r.toNat ≤ 5
/-- A defined scope code (R263). -/
def scopeOk (s : BitVec 3) : Bool := s.toNat ≤ 5
/-- A defined class code (R263). -/
def clsOk (c : BitVec 3) : Bool := c.toNat ≤ 4
/-- The target `no target` (R193). -/
def noTarget : BitVec 9 := 0x1FF#9
/-- Both targets are `no target`. -/
def noTargets (t1 t0 : BitVec 9) : Bool := t1 == noTarget && t0 == noTarget
/-- At least one target is named. -/
def someTarget (t1 t0 : BitVec 9) : Bool := !noTargets t1 t0
/-- NTF = 0 needs PORT = 0 (R361, R378). -/
def ntfOk (ntf : BitVec 1) (port : BitVec 6) : Bool := ntf == 1#1 || port == 0#6

/-- PL, TYPE2, SAT and RND are all zero, as most forms of VINT and VPERM need (R285, R291). -/
def VecF.plain (f : VecF) : Bool := f.pl == 0#3 && f.ty2 == 0#5 && f.sat == 0#1 && f.rnd == 0#3

/-- A VINT form with no SAT and no IMM8 (R285). -/
def VecF.intOk (f : VecF) : Bool := f.plain && f.imm8 == 0#8 && tyInt f.ty
/-- A VINT form that takes SAT (R285). -/
def VecF.intSatOk (f : VecF) : Bool :=
  f.pl == 0#3 && f.ty2 == 0#5 && f.rnd == 0#3 && f.imm8 == 0#8 && tyInt f.ty
/-- VABS and VNEG of VINT: signed types only (R285). -/
def VecF.intAbsOk (f : VecF) : Bool := f.intSatOk && tySigned f.ty
/-- VCMP of VINT (R285, R287). -/
def VecF.intCmpOk (f : VecF) : Bool := f.plain && f.imm8.toNat ≤ 5 && tyInt f.ty
/-- A form that takes operand c at its predicate port has PRED 00 (R283). -/
def VecF.noPred (f : VecF) : Bool := f.p == 0#2
/-- A VFP form that rounds (R288). -/
def VecF.fpRndOk (f : VecF) : Bool :=
  f.pl == 0#3 && f.ty2 == 0#5 && f.sat == 0#1 && f.imm8 == 0#8 && rndOk f.rnd && tyFp f.ty
/-- A VFP form that does not round (R288). -/
def VecF.fpOk (f : VecF) : Bool := f.plain && f.imm8 == 0#8 && tyFp f.ty
/-- VCMP of VFP (R287, R288). -/
def VecF.fpCmpOk (f : VecF) : Bool := f.plain && f.imm8.toNat ≤ 6 && tyFp f.ty
/-- The `.f32`-only forms of VFP (R288). -/
def VecF.fp32Ok (f : VecF) : Bool := f.fpRndOk && f.ty == 9#5

/-- Whether a conversion accepts SAT and RND: the Conv rows of R290. -/
def convOk (dst src : BitVec 5) (sat : Bool) (rnd : BitVec 3) : Bool :=
  if tyInt src && tyInt dst then rnd == 0#3
  else if tyInt src || tyInt dst then !sat && rndOk rnd
  else !sat && rndOk rnd &&
    (rnd == 0#3 || Nat.ble (laneWidth dst.toNat) (laneWidth src.toNat))

/-- VCVT (R290). -/
def VecF.cvtOk (f : VecF) : Bool :=
  f.pl == 0#3 && tyLane f.ty && tyLane f.ty2 && f.ty != f.ty2 &&
  Nat.blt f.imm8.toNat
    (Nat.max (laneWidth f.ty.toNat) (laneWidth f.ty2.toNat) /
      Nat.min (laneWidth f.ty.toNat) (laneWidth f.ty2.toNat)) &&
  convOk f.ty f.ty2 (f.sat == 1#1) f.rnd

/-- VSHUF and VBCAST (R291). -/
def VecF.permOk (f : VecF) : Bool := f.plain && f.imm8 == 0#8 && tyInt f.ty
/-- VINS and VEXT: a lane index below L (R291). -/
def VecF.laneOk (f : VecF) : Bool :=
  f.plain && tyInt f.ty && Nat.blt f.imm8.toNat (512 / laneWidth f.ty.toNat)

/-- VRED and VSCAN (R292): SAT for an integer `.add`, RND for a floating-point `.add`. -/
def VecF.redOk (f : VecF) : Bool :=
  f.pl == 0#3 && f.ty2 == 0#5 && tyLane f.ty && f.imm8.toNat ≤ 2 &&
  (if tyInt f.ty then f.rnd == 0#3 && (f.imm8 == 0#8 || f.sat == 0#1)
   else f.sat == 0#1 && rndOk f.rnd && (f.imm8 == 0#8 || f.rnd == 0#3))

/-- VDOT: the pairs of R294. It has no reduction operation; IMM8 other than zero is reserved (log 128). -/
def VecF.dotOk (f : VecF) : Bool :=
  f.noPred && f.pl == 0#3 && f.imm8 == 0#8 &&
  (match f.ty.toNat, f.ty2.toNat with
   | 0x00, 0x02 => f.rnd == 0#3
   | 0x04, 0x06 => f.rnd == 0#3
   | 0x01, 0x02 => f.rnd == 0#3
   | 0x0A, 0x09 => f.sat == 0#1 && rndOk f.rnd
   | 0x0B, 0x09 => f.sat == 0#1 && rndOk f.rnd
   | 0x0C, 0x09 => f.sat == 0#1 && rndOk f.rnd
   | 0x0D, 0x09 => f.sat == 0#1 && rndOk f.rnd
   | _, _ => false)

/-- VMXQ (R295). -/
def VecF.mxqOk (f : VecF) : Bool :=
  f.sat == 0#1 && f.pl == 0#3 && f.imm8 == 0#8 && rndOk f.rnd && tyMx f.ty && f.ty2 == 0x09#5
/-- VMXDQ (R295). -/
def VecF.mxdqOk (f : VecF) : Bool :=
  f.sat == 0#1 && f.pl == 0#3 && rndOk f.rnd && tyMx f.ty2 &&
  ((f.ty == 0x09#5 && f.imm8.toNat ≤ 1) || (f.ty == 0x0A#5 && f.imm8 == 0#8))
/-- VNIPACK (R295). -/
def VecF.nipackOk (f : VecF) : Bool :=
  f.sat == 0#1 && f.rnd == 0#3 && f.imm8 == 0#8 && f.ty == 0x12#5 && f.ty2 == 0#5 && f.pl == 7#3
/-- VNIUNPACK (R295): k from 2 to 8. -/
def VecF.niunpackOk (f : VecF) : Bool :=
  f.sat == 0#1 && f.rnd == 0#3 && f.imm8 == 0#8 && f.ty == 0#5 && f.ty2 == 0x12#5 && f.pl != 0#3

/-- The codes every WMEM form shares: SIZE, CLS and SCOPE are defined (R263). -/
def MemF.codesOk (f : MemF) : Bool := f.size.toNat ≤ 4 && clsOk f.cls && scopeOk f.scope
/-- LD (R264). -/
def MemF.ldOk (f : MemF) : Bool :=
  f.codesOk && (f.sx == 0#1 || f.size.toNat ≤ 2) && f.fe != 3#2 &&
  (f.ord == 0#2 || (f.ord == 1#2 && f.fe == 0#2))
/-- ST (R264). -/
def MemF.stOk (f : MemF) : Bool :=
  f.codesOk && noTargets f.t1 f.t0 && f.sx == 0#1 && f.fe != 3#2 &&
  (f.ord == 0#2 || (f.ord == 2#2 && f.fe == 0#2))
/-- GATHER (R263, R264): OFF holds SCALE in its low three bits. -/
def MemF.gatherOk (f : MemF) : Bool :=
  f.codesOk && (f.size == 2#3 || f.size == 3#3) && f.sx == 0#1 && f.fe == 0#2 && f.ord == 0#2 &&
  bits f.off 3 10 == 0#10
/-- SCATTER (R262, R264): c arrives at the predicate port. -/
def MemF.scatterOk (f : MemF) : Bool := f.gatherOk && noTargets f.t1 f.t0 && f.p == 0#2
/-- PREF (R264): FE holds EXCL. -/
def MemF.prefOk (f : MemF) : Bool :=
  noTargets f.t1 f.t0 && f.size == 0#3 && f.sx == 0#1 && bits f.fe 1 1 == 0#1 && f.ord == 0#2 &&
  f.cls.toNat ≤ 3 && f.scope == 0#3
/-- LFLUSH and LINV (R264). -/
def MemF.lineOk (f : MemF) : Bool :=
  noTargets f.t1 f.t0 && f.size == 0#3 && f.sx == 0#1 && f.fe == 0#2 && f.ord == 0#2 &&
  f.cls == 0#3 && f.scope == 0#3
/-- AADD to AXCHG (R264). -/
def MemF.atomicOk (f : MemF) : Bool :=
  (f.size == 2#3 || f.size == 3#3) && f.sx == 0#1 && f.fe == 0#2 && (f.cls == 0#3 || f.cls == 4#3) &&
  scopeOk f.scope
/-- ACAS: c arrives at the predicate port (R262). -/
def MemF.casOk (f : MemF) : Bool := f.atomicOk && f.p == 0#2
/-- AFADD: SIZE is w (R264). -/
def MemF.afaddOk (f : MemF) : Bool := f.atomicOk && f.size == 2#3

/-- FENCE (R274). -/
def SyncF.fenceOk (f : SyncF) : Bool :=
  noTargets f.t1 f.t0 && f.ord != 0#2 && f.bid == 0#4 && scopeOk f.scope
/-- BARW: the scope names a barrier network (R274). -/
def SyncF.barOk (f : SyncF) : Bool := f.ord == 0#2 && scopeOk f.scope && f.scope != 0#3

/-- The element formats of a slot shape (R302). -/
def fmtOk (fmt : BitVec 5) : Bool :=
  match fmt.toNat with
  | 0x00 | 0x01 | 0x02 | 0x04 | 0x09 | 0x0A | 0x0B | 0x0C | 0x0D | 0x0E | 0x0F | 0x10 | 0x11 | 0x12 => true
  | _ => false

/-- The TYPE codes LCIN accepts: `.i8` and `.z8` in plane mode; `.i8`, `.z8`, `.i16`, `.z16`, `.f32` and `.bf16`
in threshold mode, where PLM1 is zero (R361, R368). -/
def LcinF.typeOk (f : LcinF) : Bool :=
  if f.thr == 1#1 then
    f.plm1 == 0#3 &&
    (match f.ty.toNat with | 0x00 | 0x04 | 0x01 | 0x05 | 0x09 | 0x0A => true | _ => false)
  else f.ty == 0#5 || f.ty == 4#5

/-- CPY (R378). -/
def CpyF.ok (f : CpyF) : Bool :=
  clsOk f.cls && scopeOk f.scope && ntfOk f.ntf f.port &&
  (if f.cv == 1#1 then
     tyLane f.stype && tyLane f.dtype && f.stype != f.dtype && convOk f.dtype f.stype false f.rnd
   else f.stype == 0#5 && f.dtype == 0#5 && f.rnd == 0#3)

/-- The field rules of each instruction whose failure is a reserved-instruction fault. Instructions whose every
field value is defined, and the events, answer true. MCLAIM, MROWR, MCOL, MWAIT and MPOLL accept no target in both fields, which R303
states of the forms whose result is a job id (log 128). -/
def Instr.fieldsOk : Instr → Bool
  | .ld f => f.ldOk
  | .st f => f.stOk
  | .gather f => f.gatherOk
  | .scatter f => f.scatterOk
  | .pref f => f.prefOk
  | .lflush f => f.lineOk
  | .linv f => f.lineOk
  | .aadd f => f.atomicOk
  | .aand f => f.atomicOk
  | .aor f => f.atomicOk
  | .axor f => f.atomicOk
  | .amin f => f.atomicOk
  | .amax f => f.atomicOk
  | .aminz f => f.atomicOk
  | .amaxz f => f.atomicOk
  | .axchg f => f.atomicOk
  | .acas f => f.casOk
  | .afaddF32 f => f.afaddOk
  | .afaddBf16x2 f => f.afaddOk
  | .fence f => f.fenceOk
  | .bara f => f.barOk && noTargets f.t1 f.t0
  | .barw f => f.barOk
  | .vaddInt f => f.intSatOk
  | .vsubInt f => f.intSatOk
  | .vmulInt f => f.intSatOk
  | .vmulh f => f.intOk
  | .vminInt f => f.intOk
  | .vmaxInt f => f.intOk
  | .vabsInt f => f.intAbsOk
  | .vnegInt f => f.intAbsOk
  | .vand f => f.intOk
  | .vor f => f.intOk
  | .vxor f => f.intOk
  | .vshl f => f.intOk
  | .vshr f => f.intOk
  | .vsar f => f.intOk
  | .vcmpInt f => f.intCmpOk
  | .vsel f => f.intOk && f.noPred
  | .vaddFp f => f.fpRndOk
  | .vsubFp f => f.fpRndOk
  | .vmulFp f => f.fpRndOk
  | .vfma f => f.fpRndOk && f.noPred
  | .vfms f => f.fpRndOk && f.noPred
  | .vminFp f => f.fpOk
  | .vmaxFp f => f.fpOk
  | .vabsFp f => f.fpOk
  | .vnegFp f => f.fpOk
  | .vcmpFp f => f.fpCmpOk
  | .vrcp f => f.fp32Ok
  | .vrsq f => f.fp32Ok
  | .vexp2 f => f.fp32Ok
  | .vlog2 f => f.fp32Ok
  | .vcvt f => f.cvtOk
  | .vshuf f => f.permOk
  | .vbcast f => f.permOk
  | .vins f => f.laneOk
  | .vext f => f.laneOk
  | .vred f => f.redOk
  | .vscan f => f.redOk
  | .vdot f => f.dotOk
  | .vmxq f => f.mxqOk
  | .vmxdq f => f.mxdqOk
  | .vnipack f => f.nipackOk
  | .vniunpack f => f.niunpackOk
  | .mshape f => fmtOk f.fmt
  | .mload f => clsOk f.cls && scopeOk f.scope
  | .mstore f => clsOk f.cls && scopeOk f.scope
  | .mrow f => noTargets f.t1 f.t0
  | .mcolw f => noTargets f.t1 f.t0
  | .maccr f => rndOk f.rnd
  | .lcload f => f.ctx.toNat ≤ 5 && clsOk f.cls && scopeOk f.scope && ntfOk f.ntf f.port
  | .lcsel f => f.ctx.toNat ≤ 5 && scopeOk f.scope && ntfOk f.ntf f.port
  | .lcin f => f.typeOk && clsOk f.cls && scopeOk f.scope && ntfOk f.ntf f.port
  | .lcrun f => scopeOk f.scope && ntfOk f.ntf f.port
  | .lcout f => clsOk f.cls && scopeOk f.scope && ntfOk f.ntf f.port
  | .lcwait f => someTarget f.t1 f.t0
  | .lcstat f => someTarget f.t1 f.t0
  | .cpy f => f.ok
  | .cpys f => clsOk f.cls && scopeOk f.scope && ntfOk f.ntf f.port
  | .stq f => someTarget f.t1 f.t0
  | .cwait f => someTarget f.t1 f.t0
  | .send f => scopeOk f.scope && (f.v == 1#1 || f.wcm1 == 0#3)
  | .sendt f => scopeOk f.scope && (f.v == 1#1 || f.wcm1 == 0#3)
  | .spawn f => scopeOk f.scope
  | .spawnp f => scopeOk f.scope
  | .srr f => someTarget f.t1 f.t0
  | .perfr f => someTarget f.t1 f.t0
  | .tlbinv f => 2 ≤ f.scope.toNat && scopeOk f.scope && f.mode.toNat ≤ 1
  | _ => true

/-- The PRED field; 00 where the form has none (R190). -/
def Instr.pred : Instr → BitVec 2
  | .ld f | .st f | .gather f | .scatter f | .pref f | .lflush f | .linv f | .aadd f | .aand f | .aor f | .axor f
  | .amin f | .amax f | .aminz f | .amaxz f | .axchg f | .acas f | .afaddF32 f | .afaddBf16x2 f | .fence f
  | .bara f | .barw f | .vaddInt f | .vsubInt f | .vmulInt f | .vmulh f | .vminInt f | .vmaxInt f | .vabsInt f
  | .vnegInt f | .vand f | .vor f | .vxor f | .vshl f | .vshr f | .vsar f | .vcmpInt f | .vsel f | .vaddFp f
  | .vsubFp f | .vmulFp f | .vfma f | .vfms f | .vminFp f | .vmaxFp f | .vabsFp f | .vnegFp f | .vcmpFp f | .vrcp f
  | .vrsq f | .vexp2 f | .vlog2 f | .vcvt f | .vshuf f | .vbcast f | .vins f | .vext f | .vred f | .vscan f
  | .vdot f | .vmxq f | .vmxdq f | .vnipack f | .vniunpack f | .mclaim f | .mrel f | .stfree f | .stclose f
  | .portcfg f | .patclr f | .hend f | .tend f | .srw f | .ctxkill f | .mshape f | .mrow f | .mrowr f | .mcol f
  | .mcolw f | .mzero f | .mmas f | .mwait f | .mpoll f | .lcwait f | .cwait f | .srr f | .mma f | .mscan f
  | .maccr f | .lcload f | .lcsel f | .lcrun f | .lcout f | .lcstat f | .portq f | .compose f | .decomp f
  | .follow f | .add f | .sub f | .mul f | .mulh f | .mulhz f | .div f | .divz f | .rem f | .remz f | .min f
  | .max f | .minz f | .maxz f | .abs f | .neg f | .addW f | .subW f | .mulW f | .mulhW f | .mulhzW f | .divW f
  | .divzW f | .remW f | .remzW f | .minW f | .maxW f | .minzW f | .maxzW f | .absW f | .negW f | .and f | .or f
  | .xor f | .andn f | .orn f | .shl f | .shr f | .sar f | .rol f | .ror f | .clz f | .ctz f | .popc f | .brev f
  | .bswap f | .exts f | .extz f | .ins f | .teq f | .tne f | .tlt f | .tle f | .tltz f | .tlez f | .teqW f
  | .tneW f | .tltW f | .tleW f | .tltzW f | .tlezW f | .mov f | .sel f | .null f | .faddF64 f | .fsubF64 f
  | .fmulF64 f | .fdivF64 f | .fsqrtF64 f | .fminF64 f | .fmaxF64 f | .faddF32 f | .fsubF32 f | .fmulF32 f
  | .fdivF32 f | .fsqrtF32 f | .fminF32 f | .fmaxF32 f | .fcmpEqF64 f | .fcmpLtF64 f | .fcmpLeF64 f | .fcmpUnF64 f
  | .fcmpEqF32 f | .fcmpLtF32 f | .fcmpLeF32 f | .fcmpUnF32 f | .fcvtF64F32 f | .fcvtF32F64 f | .fcvtI64F64 f
  | .fcvtF64I64 f | .fcvtI64F32 f | .fcvtF32I64 f | .fcvtI64F64Rtz f | .fcvtI64F32Rtz f | .stq f | .send f
  | .sendt f | .unfollow f | .rejoin f | .trap f | .eret f | .tlbinv f | .perfr f | .calli f | .mov4 f | .addi f
  | .muli f | .andi f | .ori f | .xori f | .teqi f | .tnei f | .tlti f | .tlei f | .tltzi f | .tlezi f | .addiw f
  | .shli f | .shri f | .sari f | .ldb f | .ldh f | .ldw f | .ldd f | .ldbs f | .ldhs f | .ldws f | .ldv f | .stb f
  | .sth f | .stw f | .std f | .stv f | .br f | .call f | .scall f | .bri f | .ret f | .hint f => f.p
  | _ => 0#2

/-- The target fields, target 0 first, as the word holds them (R193). -/
def Instr.targets : Instr → List (BitVec 9)
  | .ld f | .st f | .gather f | .scatter f | .pref f | .lflush f | .linv f | .aadd f | .aand f | .aor f | .axor f
  | .amin f | .amax f | .aminz f | .amaxz f | .axchg f | .acas f | .afaddF32 f | .afaddBf16x2 f | .fence f
  | .bara f | .barw f | .vaddInt f | .vsubInt f | .vmulInt f | .vmulh f | .vminInt f | .vmaxInt f | .vabsInt f
  | .vnegInt f | .vand f | .vor f | .vxor f | .vshl f | .vshr f | .vsar f | .vcmpInt f | .vsel f | .vaddFp f
  | .vsubFp f | .vmulFp f | .vfma f | .vfms f | .vminFp f | .vmaxFp f | .vabsFp f | .vnegFp f | .vcmpFp f | .vrcp f
  | .vrsq f | .vexp2 f | .vlog2 f | .vcvt f | .vshuf f | .vbcast f | .vins f | .vext f | .vred f | .vscan f
  | .vdot f | .vmxq f | .vmxdq f | .vnipack f | .vniunpack f | .mclaim f | .mload f | .mstore f | .mrow f
  | .mrowr f | .mcol f | .mcolw f | .mzero f | .mmas f | .mwait f | .mpoll f | .lcwait f | .cwait f | .srr f
  | .mma f | .mscan f | .maccr f | .lcload f | .lcsel f | .lcin f | .lcrun f | .lcout f | .lcstat f | .portq f
  | .compose f | .decomp f | .follow f | .add f | .sub f | .mul f | .mulh f | .mulhz f | .div f | .divz f | .rem f
  | .remz f | .min f | .max f | .minz f | .maxz f | .abs f | .neg f | .addW f | .subW f | .mulW f | .mulhW f
  | .mulhzW f | .divW f | .divzW f | .remW f | .remzW f | .minW f | .maxW f | .minzW f | .maxzW f | .absW f
  | .negW f | .and f | .or f | .xor f | .andn f | .orn f | .shl f | .shr f | .sar f | .rol f | .ror f | .clz f
  | .ctz f | .popc f | .brev f | .bswap f | .exts f | .extz f | .ins f | .teq f | .tne f | .tlt f | .tle f
  | .tltz f | .tlez f | .teqW f | .tneW f | .tltW f | .tleW f | .tltzW f | .tlezW f | .mov f | .sel f | .null f
  | .faddF64 f | .fsubF64 f | .fmulF64 f | .fdivF64 f | .fsqrtF64 f | .fminF64 f | .fmaxF64 f | .faddF32 f
  | .fsubF32 f | .fmulF32 f | .fdivF32 f | .fsqrtF32 f | .fminF32 f | .fmaxF32 f | .fcmpEqF64 f | .fcmpLtF64 f
  | .fcmpLeF64 f | .fcmpUnF64 f | .fcmpEqF32 f | .fcmpLtF32 f | .fcmpLeF32 f | .fcmpUnF32 f | .fcvtF64F32 f
  | .fcvtF32F64 f | .fcvtI64F64 f | .fcvtF64I64 f | .fcvtI64F32 f | .fcvtF32I64 f | .fcvtI64F64Rtz f
  | .fcvtI64F32Rtz f | .cpy f | .cpys f | .stq f | .send f | .sendt f | .spawn f | .spawnp f | .perfr f
  | .ffmaF64 f | .ffmaF32 f | .hint f => [f.t0, f.t1]
  | .mov4 f => [f.t0, f.t1, f.t2, f.t3]
  | .addi f | .muli f | .andi f | .ori f | .xori f | .teqi f | .tnei f | .tlti f | .tlei f | .tltzi f | .tlezi f
  | .addiw f | .shli f | .shri f | .sari f | .movi f | .appi f | .ldb f | .ldh f | .ldw f | .ldd f | .ldbs f
  | .ldhs f | .ldws f | .ldv f => [f.t0]
  | _ => []

/-- A target that is not of the reserved kind: kinds 00, 01 and 10, a write entry, or no target (R193). -/
def targetOk (t : BitVec 9) : Bool :=
  Nat.blt t.toNat 0x1A0 || t == noTarget

/-- A well-formed instruction: its fields are accepted, PRED is not 01 and no target is of the reserved kind. An event
is always well formed. -/
def Instr.wellFormed (i : Instr) : Bool :=
  i.fieldsOk && i.pred != 1#2 && i.targets.all targetOk

end Sys2Proof
end

