-- ==== Sys2Proof/Machine/Flags.lean ====
section
/-! DEFINITION. Every flag computation and the control of rounding: the fields of `fcr` (R221), the exception flags
and their merge (R222), the rounding modes (R215, R216) and the counter-based generator of stochastic rounding (R231
to R233). -/

namespace Sys2Proof.Machine

/-- Exception flags in the order of `fcr`[21:16]: bit 0 NV, 1 DZ, 2 OF, 3 UF, 4 NX, 5 IS (R221). -/
abbrev Flags := BitVec 6

/-- Invalid operation (R221). -/
def flagNV : Flags := 0x01#6
/-- Division of a finite nonzero value by zero (R221). -/
def flagDZ : Flags := 0x02#6
/-- Overflow (R221). -/
def flagOF : Flags := 0x04#6
/-- Underflow (R221). -/
def flagUF : Flags := 0x08#6
/-- Inexact (R221). -/
def flagNX : Flags := 0x10#6
/-- A saturating integer operation changed its value (R221). -/
def flagIS : Flags := 0x20#6

/-- A flag raised on a condition. -/
def flagIf (c : Bool) (f : Flags) : Flags := if c then f else 0#6

/-- The rounding modes (R216). -/
inductive Rm where
  | rne | rtz | rup | rdn | sr
  deriving DecidableEq, Repr

/-- `fcr`.RM: 101 to 111 act as `.rne` (R221). -/
def rmOfFcr (fcr : Word) : Rm :=
  match (bits fcr 0 3).toNat with
  | 1 => .rtz | 2 => .rup | 3 => .rdn | 4 => .sr | _ => .rne

/-- An instruction's RND code: 000 takes `fcr`.RM (R215). -/
def rmOf (rnd : BitVec 3) (fcr : Word) : Rm :=
  match rnd.toNat with
  | 1 => .rne | 2 => .rtz | 3 => .rup | 4 => .rdn | 5 => .sr | _ => rmOfFcr fcr

/-- `fcr`.FTZ (R221). -/
def fcrFtz (fcr : Word) : Bool := fcr.getLsbD 3
/-- `fcr`.DAZ (R221). -/
def fcrDaz (fcr : Word) : Bool := fcr.getLsbD 4
/-- `fcr`.SATF (R221). -/
def fcrSatf (fcr : Word) : Bool := fcr.getLsbD 5
/-- `fcr`.MXSC (R221). -/
def fcrMxsc (fcr : Word) : Bool := fcr.getLsbD 6
/-- The fields of `fcr` that can be written; the others read zero (R6, R221). -/
def fcrMask : Word := 0x3F007F#64
/-- The reset value of `fcr`: SATF = 1 (R221). -/
def fcrReset : Word := 0x20#64
/-- `fcr` with raised flags ORed in (R222). -/
def fcrMerge (fcr : Word) (fl : Flags) : Word := fcr ||| (fl.setWidth 64 <<< 16)

/-- Mix64 (R231). -/
def mix64 (x : Word) : Word :=
  let z := (x ^^^ (x >>> 30)) * 0xBF58476D1CE4E5B9#64
  let z := (z ^^^ (z >>> 27)) * 0x94D049BB133111EB#64
  z ^^^ (z >>> 31)

/-- SrBits (R231). -/
def srBits (key ctr : Word) : Word := mix64 (key + ctr * 0x9E3779B97F4A7C15#64)

/-- The key derived from `jseed` and `thid` (R232). -/
def srkeyOf (jseed thid : Word) : Word := mix64 (jseed ^^^ (thid * 0xD6E8FEB86659FD93#64))

/-- The counter for element `e` of the instruction at slot `s` in the block of ordinal `b` (R233). -/
def srCtr (b s e : Nat) : Word :=
  BitVec.ofNat 64 (((b % 2 ^ 33) <<< 31) ||| (s <<< 24) ||| (e % 2 ^ 24))

/-- What rounding depends on beside the operands (R235): the `fcr` value used, `srkey`, the block ordinal and the
slot. -/
structure FEnv where
  fcr : Word
  key : Word
  ord : Nat
  slot : Nat
  deriving DecidableEq, Repr

/-- The 32 random bits of element `e` (R216, R233). -/
def FEnv.rand (v : FEnv) (e : Nat) : Nat := (srBits v.key (srCtr v.ord v.slot e)).toNat % 2 ^ 32

end Sys2Proof.Machine
end

