-- ==== Sys2Proof/Machine/Float.lean ====
section
/-! DEFINITION. The number formats and exact arithmetic of R210 to R230: codes are read as exact values, an operation
computes an exact value, and RoundF rounds it once. -/

namespace Sys2Proof.Machine

/-- How a format uses its all-ones exponent (R210). -/
inductive Special where
  /-- Infinities and NaNs as IEEE 754 has them. -/
  | ieee
  /-- E4M3: no infinity, one NaN magnitude. -/
  | nanOnly
  /-- The 6-bit and 4-bit formats: every code is a number. -/
  | none
  deriving DecidableEq, Repr

/-- A floating-point format (R210): exponent width, mantissa width, bias. -/
structure Fmt where
  eb : Nat
  mb : Nat
  bias : Nat
  sp : Special
  deriving DecidableEq, Repr

def fmtF64 : Fmt := ⟨11, 52, 1023, .ieee⟩
def fmtF32 : Fmt := ⟨8, 23, 127, .ieee⟩
def fmtBf16 : Fmt := ⟨8, 7, 127, .ieee⟩
def fmtF16 : Fmt := ⟨5, 10, 15, .ieee⟩
def fmtE5m2 : Fmt := ⟨5, 2, 15, .ieee⟩
def fmtE4m3 : Fmt := ⟨4, 3, 7, .nanOnly⟩
def fmtE3m2 : Fmt := ⟨3, 2, 3, .none⟩
def fmtE2m3 : Fmt := ⟨2, 3, 1, .none⟩
def fmtE2m1 : Fmt := ⟨2, 1, 1, .none⟩

/-- The format of a type code (R215); codes that name no floating-point format answer FP32 and are never used. -/
def fmtOf (ty : Nat) : Fmt :=
  match ty with
  | 0x08 => fmtF64 | 0x0A => fmtBf16 | 0x0B => fmtF16 | 0x0C => fmtE4m3 | 0x0D => fmtE5m2
  | 0x0E => fmtE2m3 | 0x0F => fmtE3m2 | 0x10 => fmtE2m1 | _ => fmtF32

/-- The width of a code. -/
def fmtWidth (F : Fmt) : Nat := 1 + F.eb + F.mb
/-- The formats that DAZ and FTZ touch: FP64, FP32, BF16 and FP16 (R219). -/
def fmtWide (F : Fmt) : Bool := 16 ≤ fmtWidth F
/-- The exponent of the smallest normal (R216). -/
def fmtEmin (F : Fmt) : Int := 1 - (F.bias : Int)
/-- The exponent of the largest normal (R225). -/
def fmtEmax (F : Fmt) : Int :=
  match F.sp with
  | .ieee => (2 ^ F.eb - 2 : Nat) - (F.bias : Int)
  | _ => (2 ^ F.eb - 1 : Nat) - (F.bias : Int)
/-- The largest significand, in steps of the top binade: all ones, and 14 in E4M3, whose 15 is NaN (R210). -/
def fmtMaxN (F : Fmt) : Nat :=
  match F.sp with
  | .nanOnly => 2 ^ (F.mb + 1) - 2
  | _ => 2 ^ (F.mb + 1) - 1
/-- The sign bit set or not. -/
def fmtSign (F : Fmt) (neg : Bool) : Nat := if neg then 2 ^ (F.eb + F.mb) else 0
/-- The code of the largest finite magnitude. -/
def fmtMaxCode (F : Fmt) : Nat :=
  match F.sp with
  | .ieee => (2 ^ F.eb - 1) * 2 ^ F.mb - 1
  | .nanOnly => 2 ^ (F.eb + F.mb) - 2
  | .none => 2 ^ (F.eb + F.mb) - 1
/-- The code of infinity (R210); used for the formats that have one. -/
def fmtInfCode (F : Fmt) : Nat := (2 ^ F.eb - 1) * 2 ^ F.mb
/-- The quiet NaN the device produces; +0 in the formats without NaN (R218). -/
def qnan (F : Fmt) : Nat :=
  match F.sp with
  | .ieee => fmtInfCode F + 2 ^ (F.mb - 1)
  | .nanOnly => 2 ^ (F.eb + F.mb) - 1
  | .none => 0

/-- A value read from a code, or the exact result of an operation: NaN (signalling or not), an infinity, or
(-1)^neg × m × 2^e, where `st` says that the exact magnitude lies strictly between m × 2^e and (m + 1) × 2^e. -/
inductive XVal where
  | nan (sig : Bool)
  | inf (neg : Bool)
  | fin (neg : Bool) (m : Nat) (e : Int) (st : Bool)
  deriving DecidableEq, Repr

/-- The exact value of a code (R210), with subnormals read as zeros where `daz` holds (R219). -/
def decodeF (F : Fmt) (daz : Bool) (c : Nat) : XVal :=
  let neg := (c >>> (F.eb + F.mb)) % 2 == 1
  let e := (c >>> F.mb) % 2 ^ F.eb
  let m := c % 2 ^ F.mb
  if F.sp = .ieee ∧ e = 2 ^ F.eb - 1 then
    if m = 0 then .inf neg else .nan (m < 2 ^ (F.mb - 1))
  else if F.sp = .nanOnly ∧ e = 2 ^ F.eb - 1 ∧ m = 2 ^ F.mb - 1 then .nan false
  else if e = 0 then
    .fin neg (if daz && fmtWide F then 0 else m) (fmtEmin F - F.mb) false
  else .fin neg (m + 2 ^ F.mb) ((e : Int) - F.bias - F.mb) false

/-- The result of an overflow (R217). -/
def overflowF (F : Fmt) (rm : Rm) (sat neg : Bool) : Nat × Flags :=
  let toInf : Bool :=
    match rm with
    | .rne | .sr => true
    | .rtz => false
    | .rup => !neg
    | .rdn => neg
  let max := fmtSign F neg + fmtMaxCode F
  let fl := flagOF ||| flagNX
  match F.sp with
  | .ieee =>
    if toInf && !(sat && !fmtWide F) then (fmtSign F neg + fmtInfCode F, fl) else (max, fl)
  | .nanOnly => if toInf && !sat then (qnan F, fl) else (max, fl)
  | .none => (max, fl)

/-- An infinite value converted into F: InfTo (R217). -/
def infTo (F : Fmt) (sat neg : Bool) : Nat × Flags :=
  match F.sp with
  | .ieee =>
    if sat && !fmtWide F then (fmtSign F neg + fmtMaxCode F, flagNX)
    else (fmtSign F neg + fmtInfCode F, 0#6)
  | .nanOnly => if sat then (fmtSign F neg + fmtMaxCode F, flagNX) else (qnan F, flagNV)
  | .none => (fmtSign F neg + fmtMaxCode F, flagNX)

/-- `m × 2^(-sh)` split into its integer part, and its fraction as numerator and denominator. -/
def splitAt2 (m : Nat) (sh : Int) : Nat × Nat × Nat :=
  if 0 < sh then (m >>> sh.toNat, m % 2 ^ sh.toNat, 2 ^ sh.toNat)
  else (m <<< (-sh).toNat, 0, 1)

/-- Whether rounding increments n: `num / den` is the fraction f, enlarged a little where `st` holds (R216). -/
def roundsUp (rm : Rm) (neg : Bool) (n num den : Nat) (st : Bool) (rand : Nat) : Bool :=
  let pos := num ≠ 0 || st
  match rm with
  | .rne => den < 2 * num || (2 * num == den && (st || n % 2 == 1))
  | .rtz => false
  | .rup => pos && !neg
  | .rdn => pos && neg
  | .sr => 2 ^ 32 ≤ num * 2 ^ 32 / den + rand

/-- Floor(Log2) of a nonzero finite magnitude. -/
def floorLog2 (m : Nat) (e : Int) : Int := (Nat.log2 m : Int) + e

/-- RoundF (R216): the code in F and the flags raised. `rand` holds SrBits[31:0]. -/
def roundF (F : Fmt) (rm : Rm) (sat : Bool) (rand : Nat) : XVal → Nat × Flags
  | .nan sig => (qnan F, flagIf (sig || F.sp = .none) flagNV)
  | .inf neg => infTo F sat neg
  | .fin neg m e st =>
    if m = 0 then (fmtSign F neg, 0#6)
    else
      let ee := max (floorLog2 m e) (fmtEmin F)
      let (n, num, den) := splitAt2 m (ee - F.mb - e)
      let inexact := num ≠ 0 || st
      let n := if roundsUp rm neg n num den st rand then n + 1 else n
      if fmtEmax F < ee || (ee = fmtEmax F && fmtMaxN F < n) then overflowF F rm sat neg
      else
        (fmtSign F neg + (ee - fmtEmin F).toNat * 2 ^ F.mb + n,
         flagIf inexact flagNX ||| flagIf (inexact && n < 2 ^ F.mb) flagUF)

/-- A result below the smallest normal replaced by a zero of its sign, with UF and NX, where FTZ is set (R219). -/
def flushF (F : Fmt) (ftz : Bool) (r : Nat × Flags) : Nat × Flags :=
  let mag := r.1 % 2 ^ (F.eb + F.mb)
  if ftz && fmtWide F && mag ≠ 0 && mag < 2 ^ F.mb then
    (r.1 - mag, r.2 ||| flagUF ||| flagNX)
  else r

/-- RoundF and the flush, under a rounding mode and the environment, for element `e` of a scalar or vector instruction
(R216, R219). -/
def finishF (F : Fmt) (rm : Rm) (v : FEnv) (e : Nat) (x : XVal × Flags) : Nat × Flags :=
  let r := flushF F (fcrFtz v.fcr) (roundF F rm (fcrSatf v.fcr) (v.rand e) x.1)
  (r.1, r.2 ||| x.2)

/-- A signalling NaN input raises NV (R218). -/
def sigF : XVal → Flags
  | .nan true => flagNV
  | _ => 0#6

/-- Negation of an exact value; NaN stays NaN. -/
def negX : XVal → XVal
  | .nan s => .nan s
  | .inf n => .inf (!n)
  | .fin n m e st => .fin (!n) m e st

/-- The product of two values (R216, R218): an infinity times zero is invalid. -/
def mulX (x y : XVal) : XVal × Flags :=
  match x, y with
  | .nan _, _ => (.nan false, sigF x ||| sigF y)
  | _, .nan _ => (.nan false, sigF y)
  | .inf a, .inf b => (.inf (a != b), 0#6)
  | .inf a, .fin b m _ _ => if m = 0 then (.nan false, flagNV) else (.inf (a != b), 0#6)
  | .fin a m _ _, .inf b => if m = 0 then (.nan false, flagNV) else (.inf (a != b), 0#6)
  | .fin a m e _, .fin b n f _ => (.fin (a != b) (m * n) (e + f) false, 0#6)

/-- Whether a value is NaN. -/
def isNanX : XVal → Bool
  | .nan _ => true
  | _ => false
/-- Whether a value is the infinity of sign `neg`. -/
def isInfX (neg : Bool) : XVal → Bool
  | .inf n => n == neg
  | _ => false
/-- Whether a value is the zero of sign `neg`. -/
def isZeroX (neg : Bool) : XVal → Bool
  | .fin n 0 _ _ => n == neg
  | _ => false
/-- The exponent of a finite value's unit, for alignment. -/
def expX : XVal → Option Int
  | .fin _ m e _ => if m = 0 then none else some e
  | _ => none
/-- A finite value as an integer multiple of 2^e, for `e` at most its own exponent. -/
def atExp (e : Int) : XVal → Int
  | .fin n m f _ => if n then -((m <<< (f - e).toNat : Nat) : Int) else ((m <<< (f - e).toNat : Nat) : Int)
  | _ => 0

/-- The smallest exponent of the nonzero finite terms, or 0. -/
def minExp (xs : List XVal) : Int :=
  match xs.filterMap expX with
  | [] => 0
  | e :: es => es.foldl min e

/-- The exact sum of terms, with the sign of an exact zero that R216 gives. -/
def sumX (rm : Rm) (xs : List XVal) : XVal × Flags :=
  let fl := xs.foldl (fun a x => a ||| sigF x) 0#6
  if xs.any isNanX then (.nan false, fl)
  else if xs.any (isInfX true) && xs.any (isInfX false) then (.nan false, fl ||| flagNV)
  else if xs.any (isInfX true) then (.inf true, fl)
  else if xs.any (isInfX false) then (.inf false, fl)
  else
    let e := minExp xs
    let z := xs.foldl (fun a x => a + atExp e x) 0
    if z = 0 then
      let neg := xs.all (isZeroX true) || (rm == .rdn && !xs.all (isZeroX false))
      (.fin neg 0 0 false, fl)
    else (.fin (z < 0) z.natAbs e false, fl)

/-- The quotient of two values; a finite nonzero value divided by zero raises DZ (R216, R246). -/
def divX (x y : XVal) : XVal × Flags :=
  match x, y with
  | .nan _, _ => (.nan false, sigF x ||| sigF y)
  | _, .nan _ => (.nan false, sigF y)
  | .inf _, .inf _ => (.nan false, flagNV)
  | .inf a, .fin b _ _ _ => (.inf (a != b), 0#6)
  | .fin a _ _ _, .inf b => (.fin (a != b) 0 0 false, 0#6)
  | .fin a m e _, .fin b n f _ =>
    if n = 0 then
      if m = 0 then (.nan false, flagNV) else (.inf (a != b), flagDZ)
    else if m = 0 then (.fin (a != b) 0 0 false, 0#6)
    else (.fin (a != b) ((m <<< 200) / n) (e - f - 200) ((m <<< 200) % n ≠ 0), 0#6)

/-- Integer square root by bits: the largest r with r² ≤ n among those with `k` more bits below the bits of `r`. -/
def isqrtBits : Nat → Nat → Nat → Nat
  | 0, _, r => r
  | k + 1, n, r =>
    let t := r + 2 ^ k
    isqrtBits k n (if t * t ≤ n then t else r)

/-- The integer square root. -/
def isqrt (n : Nat) : Nat := isqrtBits (Nat.log2 n / 2 + 1) n 0

/-- The square root of m × 2^e, for m not zero. -/
def sqrtFin (m : Nat) (e : Int) : XVal :=
  let odd := e % 2 ≠ 0
  let m' := (if odd then 2 * m else m) <<< 240
  let e' := if odd then e - 1 else e
  let r := isqrt m'
  .fin false r (e' / 2 - 120) (r * r ≠ m')

/-- The reciprocal square root of m × 2^e, for m not zero. -/
def rsqrtFin (m : Nat) (e : Int) : XVal :=
  let odd := e % 2 ≠ 0
  let m' := if odd then 2 * m else m
  let e' := if odd then e - 1 else e
  let r := isqrt (2 ^ 400 / m')
  .fin false r (-(e' / 2) - 200) (r * r * m' ≠ 2 ^ 400)

/-- Square root (R246): NV below -0, and the root of -0 is -0. -/
def sqrtX (x : XVal) : XVal × Flags :=
  match x with
  | .nan _ => (.nan false, sigF x)
  | .inf n => if n then (.nan false, flagNV) else (.inf false, 0#6)
  | .fin n m e _ =>
    if m = 0 then (.fin n 0 0 false, 0#6)
    else if n then (.nan false, flagNV)
    else (sqrtFin m e, 0#6)

/-- Reciprocal square root: the VRSQ column of R289. -/
def rsqrtX (x : XVal) : XVal × Flags :=
  match x with
  | .nan _ => (.nan false, sigF x)
  | .inf n => if n then (.nan false, flagNV) else (.fin false 0 0 false, 0#6)
  | .fin n m e _ =>
    if m = 0 then (.inf n, flagDZ)
    else if n then (.nan false, flagNV)
    else (rsqrtFin m e, 0#6)

/-- The reciprocal: the VRCP column of R289. -/
def rcpX (x : XVal) : XVal × Flags := divX (.fin false 1 0 false) x

/-- The sum of 2^256 / (k 2^k) for k counting up from `k`: ln 2 in units of 2^-256. -/
def ln2Sum : Nat → Nat → Nat → Nat
  | 0, _, acc => acc
  | fuel + 1, k, acc => ln2Sum fuel (k + 1) (acc + 2 ^ 256 / (k * 2 ^ k))

/-- The exponential series in units of 2^-256: `term` is t^(k-1)/(k-1)!. -/
def expSum : Nat → Nat → Nat → Nat → Nat → Nat
  | 0, _, _, _, acc => acc
  | fuel + 1, k, t, term, acc =>
    let term' := term * t / (k * 2 ^ 256)
    expSum fuel (k + 1) t term' (acc + term')

/-- 2^r for a fraction r in units of 2^-256, in units of 2^-256. -/
def exp2Frac (r : Nat) : Nat :=
  let t := r * ln2Sum 258 1 0 / 2 ^ 256
  expSum 70 1 t (2 ^ 256) (2 ^ 256)

/-- 2^x: the VEXP2 column of R289. An integer x gives an exact power of two; a magnitude of 2^10 or more lies outside
every range and is cut there. -/
def exp2X (x : XVal) : XVal × Flags :=
  match x with
  | .nan _ => (.nan false, sigF x)
  | .inf n => if n then (.fin false 0 0 false, 0#6) else (.inf false, 0#6)
  | .fin n m e _ =>
    if m = 0 then (.fin false 1 0 false, 0#6)
    else if 10 ≤ floorLog2 m e then (.fin false 3 (if n then -1100 else 1000) true, 0#6)
    else
      let a : Int := if 0 ≤ e + 256 then ((m <<< (e + 256).toNat : Nat) : Int) else 0
      let v : Int := if n then -a else a
      let ip := v / 2 ^ 256
      let fr := (v % 2 ^ 256).toNat
      if fr = 0 then (.fin false 1 ip false, 0#6)
      else (.fin false (exp2Frac fr) (ip - 256) true, 0#6)

/-- `k` more bits of log2 of y in [1, 2), y in units of 2^-512, by repeated squaring; `acc` holds the bits so far. -/
def log2Bits : Nat → Nat → Nat → Nat
  | 0, _, acc => acc
  | k + 1, y, acc =>
    let y2 := y * y / 2 ^ 512
    if 2 ^ 513 ≤ y2 then log2Bits k (y2 / 2) (2 * acc + 1) else log2Bits k y2 (2 * acc)

/-- log2 of x: the VLOG2 column of R289. A power of two gives an exact integer. -/
def log2X (x : XVal) : XVal × Flags :=
  match x with
  | .nan _ => (.nan false, sigF x)
  | .inf n => if n then (.nan false, flagNV) else (.inf false, 0#6)
  | .fin n m e _ =>
    if m = 0 then (.inf true, flagDZ)
    else if n then (.nan false, flagNV)
    else
      let l := Nat.log2 m
      let ip : Int := (l : Int) + e
      if m = 2 ^ l then (.fin (ip < 0) ip.natAbs 0 false, 0#6)
      else
        let fr := log2Bits 192 ((m <<< 512) >>> l) 0
        let v : Int := ip * 2 ^ 192 + fr
        if v < 0 then (.fin true (v.natAbs - 1) (-192) true, 0#6)
        else (.fin false v.toNat (-192) true, 0#6)

/-- Order of two values that are not NaN: -1, 0 or 1, with the zeros equal (R247). -/
def cmpX (x y : XVal) : Int :=
  let rank : XVal → Int := fun z => if isInfX true z then -1 else if isInfX false z then 1 else 0
  if rank x ≠ 0 || rank y ≠ 0 then (rank x - rank y).sign
  else
    let e := minExp [x, y]
    (atExp e x - atExp e y).sign

/-- The sign of a value. -/
def signX : XVal → Bool
  | .inf n => n
  | .fin n _ _ _ => n
  | .nan _ => false

/-- minimumNumber (`isMin`) and maximumNumber of IEEE 754-2019, with -0 below +0 (R246). -/
def minmaxX (isMin : Bool) (x y : XVal) : XVal × Flags :=
  let fl := sigF x ||| sigF y
  if isNanX x && isNanX y then (.nan false, fl)
  else if isNanX x then (y, fl)
  else if isNanX y then (x, fl)
  else
    let c := cmpX x y
    let xLess : Bool := if c = 0 then signX x && !signX y else c < 0
    let same : Bool := c = 0 && signX x == signX y
    (if same then x else if xLess == isMin then x else y, fl)

/-- The relations of FCMP and VCMP (R247, R287). -/
inductive Rel where
  | eq | ne | lt | le | gt | ge | un
  deriving DecidableEq, Repr

/-- Whether a relation holds, and the flags it raises (R247, R288). -/
def relX (r : Rel) (x y : XVal) : Bool × Flags :=
  if isNanX x || isNanX y then
    let ordered : Bool := match r with | .lt | .le | .gt | .ge => true | _ => false
    (r == .ne || r == .un, if ordered then flagNV else sigF x ||| sigF y)
  else
    let c := cmpX x y
    (match r with
     | .eq => c = 0 | .ne => c ≠ 0 | .lt => c < 0 | .le => c ≤ 0 | .gt => 0 < c | .ge => 0 ≤ c
     | .un => false, 0#6)

/-- The absolute value; exact, a NaN gives the NaN of R218 (R288). -/
def absX : XVal → XVal
  | .inf _ => .inf false
  | .fin _ m e st => .fin false m e st
  | x => x

/-- Sat (R220). -/
def satInt (x lo hi : Int) : Int := if x < lo then lo else if hi < x then hi else x

/-- The least value of an integer type code (R214). -/
def tyMin (ty : Nat) : Int := if ty < 4 then -(2 ^ (laneWidth ty - 1) : Nat) else 0
/-- The greatest value of an integer type code (R214). -/
def tyMax (ty : Nat) : Int :=
  if ty < 4 then (2 ^ (laneWidth ty - 1) : Nat) - 1 else (2 ^ laneWidth ty : Nat) - 1
/-- The value of the low bits of `c` in an integer type (R214). -/
def tyVal (ty c : Nat) : Int :=
  let u := c % 2 ^ laneWidth ty
  if ty < 4 ∧ 2 ^ (laneWidth ty - 1) ≤ u then (u : Int) - (2 ^ laneWidth ty : Nat) else u
/-- The bits of an integer in `w` bits. -/
def intBits (w : Nat) (z : Int) : Nat := (z % (2 ^ w : Nat)).toNat

/-- A conversion to an integer type (R220): rounds to an integer, saturates and raises NV out of range. -/
def toIntX (ty : Nat) (rm : Rm) (rand : Nat) : XVal → Int × Flags
  | .nan _ => (0, flagNV)
  | .inf neg => (if neg then tyMin ty else tyMax ty, flagNV)
  | .fin neg m e st =>
    let (n, num, den) := splitAt2 m (-e)
    let n := if roundsUp rm neg n num den st rand then n + 1 else n
    let z : Int := if neg then -(n : Int) else n
    if z < tyMin ty then (tyMin ty, flagNV)
    else if tyMax ty < z then (tyMax ty, flagNV)
    else (z, flagIf (num ≠ 0 || st) flagNX)

/-- An integer as an exact value. -/
def ofIntX (z : Int) : XVal := .fin (z < 0) z.natAbs 0 false

/-- An FP operation of one, two or three operands: the exact value and the flags that forming it raises. -/
inductive FOp where
  | add | sub | mul | div | sqrt | fma | fms | min | max | abs | neg | rcp | rsq | exp2 | log2
  deriving DecidableEq, Repr

/-- Flags of a fused multiply-add whose product is infinity times zero and whose addend is a quiet NaN are left to the
implementation by IEEE 754; the free value decides (log 12). -/
def fmaFlags (p : XVal × Flags) (x y z : XVal) : Flags :=
  if isNanX z && !isNanX x && !isNanX y && isNanX p.1 then
    flagIf Config.fmaInfZeroNan flagNV ||| sigF z
  else p.2 ||| sigF z

/-- The exact result of an operation (R246, R288). -/
def applyF (op : FOp) (rm : Rm) (x y z : XVal) : XVal × Flags :=
  match op with
  | .add => sumX rm [x, y]
  | .sub => sumX rm [x, negX y]
  | .mul => mulX x y
  | .div => divX x y
  | .sqrt => sqrtX x
  | .fma => let p := mulX x y; ((sumX rm [p.1, z]).1, fmaFlags p x y z ||| (sumX rm [p.1, z]).2)
  | .fms => let p := mulX x y; ((sumX rm [p.1, negX z]).1, fmaFlags p x y z ||| (sumX rm [p.1, negX z]).2)
  | .min => minmaxX true x y
  | .max => minmaxX false x y
  | .abs => (absX x, sigF x)
  | .neg => (negX x, sigF x)
  | .rcp => rcpX x
  | .rsq => rsqrtX x
  | .exp2 => exp2X x
  | .log2 => log2X x

/-- An FP operation on codes of one format: the code of the result and the flags, for element `e` (R246, R288). -/
def fop (op : FOp) (F : Fmt) (rm : Rm) (v : FEnv) (e : Nat) (a b c : Nat) : Nat × Flags :=
  let d := decodeF F (fcrDaz v.fcr)
  finishF F rm v e (applyF op rm (d a) (d b) (d c))

/-- A comparison of codes (R247). -/
def fcmp (r : Rel) (F : Fmt) (v : FEnv) (a b : Nat) : Bool × Flags :=
  let d := decodeF F (fcrDaz v.fcr)
  relX r (d a) (d b)

/-- Conv of R290: an element of type `src` converted to type `dst`. DAZ and FTZ do not apply to a destination of 8 bits
or fewer (R283). -/
def convElem (src dst : Nat) (sat : Bool) (rm : Rm) (v : FEnv) (e c : Nat) : Nat × Flags :=
  let small := laneWidth dst ≤ 8
  if src < 8 then
    if dst < 8 then
      let x := tyVal src c
      if sat then
        let y := satInt x (tyMin dst) (tyMax dst)
        (intBits (laneWidth dst) y, flagIf (y ≠ x) flagIS)
      else (intBits (laneWidth dst) x, 0#6)
    else
      let r := roundF (fmtOf dst) rm (fcrSatf v.fcr) (v.rand e) (ofIntX (tyVal src c))
      flushF (fmtOf dst) (fcrFtz v.fcr && !small) r
  else
    let x := decodeF (fmtOf src) (fcrDaz v.fcr && !small) c
    if dst < 8 then
      let (z, fl) := toIntX dst rm (v.rand e) x
      (intBits (laneWidth dst) z, fl)
    else
      let r := roundF (fmtOf dst) rm (fcrSatf v.fcr) (v.rand e) x
      let r := flushF (fmtOf dst) (fcrFtz v.fcr && !small) r
      (r.1, r.2 ||| sigF x)

/-- AFADD on one format: `.rne`, subnormals kept, no flags (R270). -/
def afaddF (F : Fmt) (a b : Nat) : Nat :=
  (roundF F .rne false 0 (sumX .rne [decodeF F false a, decodeF F false b]).1).1

/-- MxScale (R225) of 32 exact values. -/
def mxScale (F : Fmt) (mxsc : Bool) (vs : List XVal) : Nat :=
  if vs.any (fun x => isNanX x || isInfX true x || isInfX false x) then 0xFF
  else
    let a := vs.foldl (fun acc x => if cmpX acc (absX x) < 0 then absX x else acc) (.fin false 0 0 false)
    match a with
    | .fin _ m e _ =>
      if m = 0 then 0
      else
        let x := floorLog2 m e - fmtEmax F
        let (n, num, den) := splitAt2 m (fmtEmax F - F.mb + x - e)
        let n := if roundsUp .rne false n num den false 0 then n + 1 else n
        let x := if mxsc && fmtMaxN F < n then x + 1 else x
        (satInt (x + 127) 0 0xFE).toNat
    | _ => 0xFF

/-- A value times 2^k, exactly. -/
def scaleX (k : Int) : XVal → XVal
  | .fin n m e st => .fin n m (e + k) st
  | x => x

end Sys2Proof.Machine
end

