-- ==== Sys2Proof/Decode.lean ====
section
/-! DEFINITION. The decoder of slot words (R189 to R202 and the second-word layouts) and, after it, the encoder
written from the same tables. A word that is no instruction is rejected by name. PRED = 01, an illegal target, a bad
slot and the token widths are no part of decoding: they are checked when the block is mapped (R203). -/

namespace Sys2Proof

/-- Why a slot holds no instruction. -/
inductive Reject where
  /-- The word 0x0000_0000, an empty slot (R201). -/
  | emptySlot
  /-- Opcode 0x00 with other bits set: block-format fault 0x0B (R201). -/
  | nonzeroEmpty
  /-- A reserved opcode, xop or field: the reserved-instruction fault, code 0x00 (R201, R203). -/
  | reserved
  deriving DecidableEq, Repr

/-! ### The fields of a word -/

/-- The primary opcode (R189). -/
def opc (w : Slot32) : Nat := (bits w 25 7).toNat
/-- The XOP of the G and W formats (R189). -/
def xop (w : Slot32) : Nat := (bits w 18 5).toNat
/-- A W-format opcode: 0x40 to 0x51 (R200). -/
def isWide (w : Slot32) : Bool := 0x40 ≤ opc w && opc w ≤ 0x51

/-- The fields of a G-format word (R189). -/
def unG (w : Slot32) : GF :=
  ⟨bits w 23 2, bits w 9 9, bits w 0 9⟩
/-- The fields of a Fma-format word (R248). -/
def unFma (w : Slot32) : FmaF :=
  ⟨bits w 9 9, bits w 0 9⟩
/-- The fields of a I-format word (R189). -/
def unI (w : Slot32) : IF :=
  ⟨bits w 23 2, bits w 9 14, bits w 0 9⟩
/-- The fields of a Sh-format word (R191). -/
def unSh (w : Slot32) : ShF :=
  ⟨bits w 23 2, bits w 9 6, bits w 0 9⟩
/-- The fields of a C-format word (R189). -/
def unC (w : Slot32) : CF :=
  ⟨bits w 9 16, bits w 0 9⟩
/-- The fields of a L-format word (R189). -/
def unL (w : Slot32) : LF :=
  ⟨bits w 23 2, bits w 18 5, bits w 9 9, bits w 0 9⟩
/-- The fields of a S-format word (R189). -/
def unS (w : Slot32) : SF :=
  ⟨bits w 23 2, bits w 18 5, bits w 0 18⟩
/-- The fields of a B-format word (R189). -/
def unB (w : Slot32) : BF :=
  ⟨bits w 23 2, bits w 20 3, bits w 0 20⟩
/-- The fields of a Br-format word (R249). -/
def unBr (w : Slot32) : BrF :=
  ⟨bits w 23 2, bits w 20 3⟩
/-- The fields of a Hint-format word (R202). -/
def unHint (w : Slot32) : HintF :=
  ⟨bits w 25 2, bits w 23 2, bits w 18 5, bits w 9 9, bits w 0 9⟩

/-- The fields of the Mem layout (R263). -/
def unMem (w0 w1 : Slot32) : MemF :=
  ⟨bits w0 23 2, bits w0 9 9, bits w0 0 9, bits w1 19 13, bits w1 18 1, bits w1 16 2, bits w1 14 2, bits w1 11 3, bits w1 8 3, bits w1 5 3, bits w1 0 5⟩
/-- The fields of the Sync layout (R274). -/
def unSync (w0 w1 : Slot32) : SyncF :=
  ⟨bits w0 23 2, bits w0 9 9, bits w0 0 9, bits w1 16 4, bits w1 14 2, bits w1 11 3, bits w1 0 5⟩
/-- The fixed fields of the Sync layout (R274, R192). -/
def okSync (_w0 w1 : Slot32) : Bool :=
  bits w1 20 12 == 0#12 && bits w1 5 6 == 0#6
/-- The fields of the Vec layout (R282). -/
def unVec (w0 w1 : Slot32) : VecF :=
  ⟨bits w0 23 2, bits w0 9 9, bits w0 0 9, bits w1 24 8, bits w1 21 3, bits w1 16 5, bits w1 15 1, bits w1 8 3, bits w1 0 5⟩
/-- The fixed fields of the Vec layout (R282, R192). -/
def okVec (_w0 w1 : Slot32) : Bool :=
  bits w1 11 4 == 0#4 && bits w1 5 3 == 0#3
/-- The fields of the Claim layout (R304). -/
def unClaim (w0 w1 : Slot32) : ClaimF :=
  ⟨bits w0 23 2, bits w0 9 9, bits w0 0 9, bits w1 5 1, bits w1 0 5⟩
/-- The fixed fields of the Claim layout (R304, R192). -/
def okClaim (_w0 w1 : Slot32) : Bool :=
  bits w1 6 26 == 0#26
/-- The fields of the Ls layout (R304, R347, R378, R404, R429). -/
def unLs (w0 w1 : Slot32) : LsF :=
  ⟨bits w0 23 2, bits w1 0 5⟩
/-- The fixed fields of the Ls layout (R304, R347, R378, R404, R429, R192). -/
def okLs (w0 w1 : Slot32) : Bool :=
  noTargets (bits w0 9 9) (bits w0 0 9) && bits w1 5 27 == 0#27
/-- The fields of the Rs layout (R304, R361, R378, R429). -/
def unRs (w0 w1 : Slot32) : RsF :=
  ⟨bits w0 23 2, bits w0 9 9, bits w0 0 9, bits w1 0 5⟩
/-- The fixed fields of the Rs layout (R304, R361, R378, R429, R192). -/
def okRs (_w0 w1 : Slot32) : Bool :=
  bits w1 5 27 == 0#27
/-- The fields of the Shape layout (R304). -/
def unShape (w0 w1 : Slot32) : ShapeF :=
  ⟨bits w0 23 2, bits w1 25 7, bits w1 15 10, bits w1 10 5, bits w1 0 5⟩
/-- The fixed fields of the Shape layout (R304, R192). -/
def okShape (w0 w1 : Slot32) : Bool :=
  noTargets (bits w0 9 9) (bits w0 0 9) && bits w1 5 5 == 0#5
/-- The fields of the Xfer layout (R304). -/
def unXfer (w0 w1 : Slot32) : XferF :=
  ⟨bits w0 9 9, bits w0 0 9, bits w1 25 7, bits w1 18 7, bits w1 15 3, bits w1 12 3, bits w1 9 3, bits w1 0 5⟩
/-- The fixed fields of the Xfer layout (R304, R192). -/
def okXfer (w0 w1 : Slot32) : Bool :=
  bits w0 23 2 == 0#2 && bits w1 5 4 == 0#4
/-- The fields of the Row layout (R304). -/
def unRow (w0 w1 : Slot32) : RowF :=
  ⟨bits w0 23 2, bits w0 9 9, bits w0 0 9, bits w1 25 7, bits w1 22 3, bits w1 0 5⟩
/-- The fixed fields of the Row layout (R304, R192). -/
def okRow (_w0 w1 : Slot32) : Bool :=
  bits w1 5 17 == 0#17
/-- The fields of the Col layout (R304). -/
def unCol (w0 w1 : Slot32) : ColF :=
  ⟨bits w0 23 2, bits w0 9 9, bits w0 0 9, bits w1 25 7, bits w1 16 9, bits w1 0 5⟩
/-- The fixed fields of the Col layout (R304, R192). -/
def okCol (_w0 w1 : Slot32) : Bool :=
  bits w1 5 11 == 0#11
/-- The fields of the Mma layout (R304). -/
def unMma (w0 w1 : Slot32) : MmaF :=
  ⟨bits w0 23 2, bits w0 9 9, bits w0 0 9, bits w1 29 3, bits w1 0 5⟩
/-- The fixed fields of the Mma layout (R304, R192). -/
def okMma (_w0 w1 : Slot32) : Bool :=
  bits w1 5 24 == 0#24
/-- The fields of the Scan layout (R304). -/
def unScan (w0 w1 : Slot32) : ScanF :=
  ⟨bits w0 23 2, bits w0 9 9, bits w0 0 9, bits w1 25 7, bits w1 0 5⟩
/-- The fixed fields of the Scan layout (R304, R192). -/
def okScan (_w0 w1 : Slot32) : Bool :=
  bits w1 5 20 == 0#20
/-- The fields of the Accr layout (R304). -/
def unAccr (w0 w1 : Slot32) : AccrF :=
  ⟨bits w0 23 2, bits w0 9 9, bits w0 0 9, bits w1 29 3, bits w1 28 1, bits w1 0 5⟩
/-- The fixed fields of the Accr layout (R304, R192). -/
def okAccr (_w0 w1 : Slot32) : Bool :=
  bits w1 5 23 == 0#23
/-- The fields of the Lcload layout (R361). -/
def unLcload (w0 w1 : Slot32) : LcloadF :=
  ⟨bits w0 23 2, bits w0 9 9, bits w0 0 9, bits w1 18 3, bits w1 15 3, bits w1 12 3, bits w1 11 1, bits w1 5 6, bits w1 0 5⟩
/-- The fixed fields of the Lcload layout (R361, R192). -/
def okLcload (_w0 w1 : Slot32) : Bool :=
  bits w1 21 11 == 0#11
/-- The fields of the Lcsel layout (R361). -/
def unLcsel (w0 w1 : Slot32) : LcselF :=
  ⟨bits w0 23 2, bits w0 9 9, bits w0 0 9, bits w1 18 3, bits w1 12 3, bits w1 11 1, bits w1 5 6, bits w1 0 5⟩
/-- The fixed fields of the Lcsel layout (R361, R192). -/
def okLcsel (_w0 w1 : Slot32) : Bool :=
  bits w1 21 11 == 0#11 && bits w1 15 3 == 0#3
/-- The fields of the Lcin layout (R361). -/
def unLcin (w0 w1 : Slot32) : LcinF :=
  ⟨bits w0 9 9, bits w0 0 9, bits w1 27 5, bits w1 24 3, bits w1 19 1, bits w1 18 1, bits w1 15 3, bits w1 12 3, bits w1 11 1, bits w1 5 6, bits w1 0 5⟩
/-- The fixed fields of the Lcin layout (R361, R192). -/
def okLcin (w0 w1 : Slot32) : Bool :=
  bits w0 23 2 == 0#2 && bits w1 20 4 == 0#4
/-- The fields of the Lcrun layout (R361). -/
def unLcrun (w0 w1 : Slot32) : LcrunF :=
  ⟨bits w0 23 2, bits w0 9 9, bits w0 0 9, bits w1 18 4, bits w1 12 3, bits w1 11 1, bits w1 5 6, bits w1 0 5⟩
/-- The fixed fields of the Lcrun layout (R361, R192). -/
def okLcrun (_w0 w1 : Slot32) : Bool :=
  bits w1 22 10 == 0#10 && bits w1 15 3 == 0#3
/-- The fields of the Lcout layout (R361). -/
def unLcout (w0 w1 : Slot32) : LcoutF :=
  ⟨bits w0 23 2, bits w0 9 9, bits w0 0 9, bits w1 18 1, bits w1 15 3, bits w1 12 3, bits w1 11 1, bits w1 5 6, bits w1 0 5⟩
/-- The fixed fields of the Lcout layout (R361, R192). -/
def okLcout (_w0 w1 : Slot32) : Bool :=
  bits w1 19 13 == 0#13
/-- The fields of the Cpy layout (R378). -/
def unCpy (w0 w1 : Slot32) : CpyF :=
  ⟨bits w0 9 9, bits w0 0 9, bits w1 31 1, bits w1 26 5, bits w1 21 5, bits w1 18 3, bits w1 15 3, bits w1 12 3, bits w1 11 1, bits w1 5 6, bits w1 0 5⟩
/-- The fixed fields of the Cpy layout (R378, R192). -/
def okCpy (w0 _w1 : Slot32) : Bool :=
  bits w0 23 2 == 0#2
/-- The fields of the Cpys layout (R378). -/
def unCpys (w0 w1 : Slot32) : CpysF :=
  ⟨bits w0 9 9, bits w0 0 9, bits w1 15 3, bits w1 12 3, bits w1 11 1, bits w1 5 6, bits w1 0 5⟩
/-- The fixed fields of the Cpys layout (R378, R192). -/
def okCpys (w0 w1 : Slot32) : Bool :=
  bits w0 23 2 == 0#2 && bits w1 18 14 == 0#14
/-- The fields of the Stq layout (R378). -/
def unStq (w0 w1 : Slot32) : StqF :=
  ⟨bits w0 23 2, bits w0 9 9, bits w0 0 9, bits w1 5 2⟩
/-- The fixed fields of the Stq layout (R378, R192). -/
def okStq (_w0 w1 : Slot32) : Bool :=
  bits w1 7 25 == 0#25 && bits w1 0 5 == 0#5
/-- The fields of the Send layout (R347). -/
def unSend (w0 w1 : Slot32) : SendF :=
  ⟨bits w0 23 2, bits w0 9 9, bits w0 0 9, bits w1 11 3, bits w1 8 3, bits w1 7 1, bits w1 0 5⟩
/-- The fixed fields of the Send layout (R347, R192). -/
def okSend (_w0 w1 : Slot32) : Bool :=
  bits w1 14 18 == 0#18 && bits w1 5 2 == 0#2
/-- The fields of the C3 layout (R347). -/
def unC3 (_w0 w1 : Slot32) : C3F :=
  ⟨bits w1 0 5⟩
/-- The fixed fields of the C3 layout (R347, R192). -/
def okC3 (w0 w1 : Slot32) : Bool :=
  bits w0 23 2 == 0#2 && noTargets (bits w0 9 9) (bits w0 0 9) && bits w1 5 27 == 0#27
/-- The fields of the Spawn layout (R404). -/
def unSpawn (w0 w1 : Slot32) : SpawnF :=
  ⟨bits w0 9 9, bits w0 0 9, bits w1 11 3, bits w1 0 5⟩
/-- The fixed fields of the Spawn layout (R404, R192). -/
def okSpawn (w0 w1 : Slot32) : Bool :=
  bits w0 23 2 == 0#2 && bits w1 14 18 == 0#18 && bits w1 5 6 == 0#6
/-- The fields of the P layout (R404). -/
def unP (w0 _w1 : Slot32) : PF :=
  ⟨bits w0 23 2⟩
/-- The fixed fields of the P layout (R404, R192). -/
def okP (w0 w1 : Slot32) : Bool :=
  noTargets (bits w0 9 9) (bits w0 0 9) && w1 == 0#32
/-- The fields of the Trap layout (R429). -/
def unTrap (w0 w1 : Slot32) : TrapF :=
  ⟨bits w0 23 2, bits w1 8 16⟩
/-- The fixed fields of the Trap layout (R429, R192). -/
def okTrap (w0 w1 : Slot32) : Bool :=
  noTargets (bits w0 9 9) (bits w0 0 9) && bits w1 24 8 == 0#8 && bits w1 0 8 == 0#8
/-- The fields of the Eret layout (R429). -/
def unEret (w0 w1 : Slot32) : EretF :=
  ⟨bits w0 23 2, bits w1 5 3⟩
/-- The fixed fields of the Eret layout (R429, R192). -/
def okEret (w0 w1 : Slot32) : Bool :=
  noTargets (bits w0 9 9) (bits w0 0 9) && bits w1 8 24 == 0#24 && bits w1 0 5 == 0#5
/-- The fields of the Tlbinv layout (R429). -/
def unTlbinv (w0 w1 : Slot32) : TlbinvF :=
  ⟨bits w0 23 2, bits w1 11 3, bits w1 6 2, bits w1 0 5⟩
/-- The fixed fields of the Tlbinv layout (R429, R192). -/
def okTlbinv (w0 w1 : Slot32) : Bool :=
  noTargets (bits w0 9 9) (bits w0 0 9) && bits w1 14 18 == 0#18 && bits w1 8 3 == 0#3 && bits w1 5 1 == 0#1
/-- The fields of the Perfr layout (R429). -/
def unPerfr (w0 w1 : Slot32) : PerfrF :=
  ⟨bits w0 23 2, bits w0 9 9, bits w0 0 9, bits w1 8 3⟩
/-- The fixed fields of the Perfr layout (R429, R192). -/
def okPerfr (_w0 w1 : Slot32) : Bool :=
  bits w1 11 21 == 0#21 && bits w1 0 8 == 0#8
/-- The fields of the Calli layout (R253). -/
def unCalli (w0 w1 : Slot32) : CalliF :=
  ⟨bits w0 23 2, bits w1 8 16, bits w1 5 3, bits w1 0 5⟩
/-- The fixed fields of the Calli layout (R253, R192). -/
def okCalli (w0 w1 : Slot32) : Bool :=
  noTargets (bits w0 9 9) (bits w0 0 9) && bits w1 24 8 == 0#8
/-- The fields of the Mov4 layout (R245). -/
def unMov4 (w0 w1 : Slot32) : Mov4F :=
  ⟨bits w0 23 2, bits w0 9 9, bits w0 0 9, bits w1 9 9, bits w1 0 9⟩
/-- The fixed fields of the Mov4 layout (R245, R192). -/
def okMov4 (_w0 w1 : Slot32) : Bool :=
  bits w1 18 14 == 0#14
/-- The second word of a form that gives it no field: zero (R361, R346, R404). -/
def okG (w1 : Slot32) : Bool := w1 == 0#32

/-! ### The groups -/

/-- IARITH (R237). -/
noncomputable def decIarith (x : Nat) (w : Slot32) : Option Instr :=
  match x with
  | 0x00 => some (.add (unG w))
  | 0x01 => some (.sub (unG w))
  | 0x02 => some (.mul (unG w))
  | 0x03 => some (.mulh (unG w))
  | 0x04 => some (.mulhz (unG w))
  | 0x05 => some (.div (unG w))
  | 0x06 => some (.divz (unG w))
  | 0x07 => some (.rem (unG w))
  | 0x08 => some (.remz (unG w))
  | 0x09 => some (.min (unG w))
  | 0x0A => some (.max (unG w))
  | 0x0B => some (.minz (unG w))
  | 0x0C => some (.maxz (unG w))
  | 0x0D => some (.abs (unG w))
  | 0x0E => some (.neg (unG w))
  | _ => none

/-- IARITHW (R237). -/
def decIarithW (x : Nat) (w : Slot32) : Option Instr :=
  match x with
  | 0x00 => some (.addW (unG w))
  | 0x01 => some (.subW (unG w))
  | 0x02 => some (.mulW (unG w))
  | 0x03 => some (.mulhW (unG w))
  | 0x04 => some (.mulhzW (unG w))
  | 0x05 => some (.divW (unG w))
  | 0x06 => some (.divzW (unG w))
  | 0x07 => some (.remW (unG w))
  | 0x08 => some (.remzW (unG w))
  | 0x09 => some (.minW (unG w))
  | 0x0A => some (.maxW (unG w))
  | 0x0B => some (.minzW (unG w))
  | 0x0C => some (.maxzW (unG w))
  | 0x0D => some (.absW (unG w))
  | 0x0E => some (.negW (unG w))
  | _ => none

/-- ILOGIC (R239). -/
def decIlogic (x : Nat) (w : Slot32) : Option Instr :=
  match x with
  | 0x00 => some (.and (unG w))
  | 0x01 => some (.or (unG w))
  | 0x02 => some (.xor (unG w))
  | 0x03 => some (.andn (unG w))
  | 0x04 => some (.orn (unG w))
  | 0x05 => some (.shl (unG w))
  | 0x06 => some (.shr (unG w))
  | 0x07 => some (.sar (unG w))
  | 0x08 => some (.rol (unG w))
  | 0x09 => some (.ror (unG w))
  | _ => none

/-- IBIT (R240). -/
def decIbit (x : Nat) (w : Slot32) : Option Instr :=
  match x with
  | 0x00 => some (.clz (unG w))
  | 0x01 => some (.ctz (unG w))
  | 0x02 => some (.popc (unG w))
  | 0x03 => some (.brev (unG w))
  | 0x04 => some (.bswap (unG w))
  | 0x05 => some (.exts (unG w))
  | 0x06 => some (.extz (unG w))
  | 0x07 => some (.ins (unG w))
  | _ => none

/-- ITEST (R241). -/
def decItest (x : Nat) (w : Slot32) : Option Instr :=
  match x with
  | 0x00 => some (.teq (unG w))
  | 0x01 => some (.tne (unG w))
  | 0x02 => some (.tlt (unG w))
  | 0x03 => some (.tle (unG w))
  | 0x04 => some (.tltz (unG w))
  | 0x05 => some (.tlez (unG w))
  | 0x08 => some (.teqW (unG w))
  | 0x09 => some (.tneW (unG w))
  | 0x0A => some (.tltW (unG w))
  | 0x0B => some (.tleW (unG w))
  | 0x0C => some (.tltzW (unG w))
  | 0x0D => some (.tlezW (unG w))
  | _ => none

/-- MOVE (R243). -/
def decMove (x : Nat) (w : Slot32) : Option Instr :=
  match x with
  | 0x00 => some (.mov (unG w))
  | 0x01 => some (.sel (unG w))
  | 0x02 => some (.null (unG w))
  | _ => none

/-- FSCALAR (R246). -/
def decFscalar (x : Nat) (w : Slot32) : Option Instr :=
  match x with
  | 0x00 => some (.faddF64 (unG w))
  | 0x01 => some (.fsubF64 (unG w))
  | 0x02 => some (.fmulF64 (unG w))
  | 0x03 => some (.fdivF64 (unG w))
  | 0x04 => some (.fsqrtF64 (unG w))
  | 0x05 => if bits w 23 2 == 0#2 then some (.ffmaF64 (unFma w)) else none
  | 0x06 => some (.fminF64 (unG w))
  | 0x07 => some (.fmaxF64 (unG w))
  | 0x08 => some (.faddF32 (unG w))
  | 0x09 => some (.fsubF32 (unG w))
  | 0x0A => some (.fmulF32 (unG w))
  | 0x0B => some (.fdivF32 (unG w))
  | 0x0C => some (.fsqrtF32 (unG w))
  | 0x0D => if bits w 23 2 == 0#2 then some (.ffmaF32 (unFma w)) else none
  | 0x0E => some (.fminF32 (unG w))
  | 0x0F => some (.fmaxF32 (unG w))
  | 0x10 => some (.fcmpEqF64 (unG w))
  | 0x11 => some (.fcmpLtF64 (unG w))
  | 0x12 => some (.fcmpLeF64 (unG w))
  | 0x13 => some (.fcmpUnF64 (unG w))
  | 0x14 => some (.fcmpEqF32 (unG w))
  | 0x15 => some (.fcmpLtF32 (unG w))
  | 0x16 => some (.fcmpLeF32 (unG w))
  | 0x17 => some (.fcmpUnF32 (unG w))
  | 0x18 => some (.fcvtF64F32 (unG w))
  | 0x19 => some (.fcvtF32F64 (unG w))
  | 0x1A => some (.fcvtI64F64 (unG w))
  | 0x1B => some (.fcvtF64I64 (unG w))
  | 0x1C => some (.fcvtI64F32 (unG w))
  | 0x1D => some (.fcvtF32I64 (unG w))
  | 0x1E => some (.fcvtI64F64Rtz (unG w))
  | 0x1F => some (.fcvtI64F32Rtz (unG w))
  | _ => none

/-- WMEM (R262). -/
def decWmem (x : Nat) (w0 w1 : Slot32) : Option Instr :=
  match x with
  | 0x00 => some (.ld (unMem w0 w1))
  | 0x01 => some (.st (unMem w0 w1))
  | 0x02 => some (.gather (unMem w0 w1))
  | 0x03 => some (.scatter (unMem w0 w1))
  | 0x04 => some (.pref (unMem w0 w1))
  | 0x05 => some (.lflush (unMem w0 w1))
  | 0x06 => some (.linv (unMem w0 w1))
  | 0x08 => some (.aadd (unMem w0 w1))
  | 0x09 => some (.aand (unMem w0 w1))
  | 0x0A => some (.aor (unMem w0 w1))
  | 0x0B => some (.axor (unMem w0 w1))
  | 0x0C => some (.amin (unMem w0 w1))
  | 0x0D => some (.amax (unMem w0 w1))
  | 0x0E => some (.aminz (unMem w0 w1))
  | 0x0F => some (.amaxz (unMem w0 w1))
  | 0x10 => some (.axchg (unMem w0 w1))
  | 0x11 => some (.acas (unMem w0 w1))
  | 0x12 => some (.afaddF32 (unMem w0 w1))
  | 0x13 => some (.afaddBf16x2 (unMem w0 w1))
  | _ => none

/-- WSYNC (R274). -/
def decWsync (x : Nat) (w0 w1 : Slot32) : Option Instr :=
  match x with
  | 0x00 => if okSync w0 w1 then some (.fence (unSync w0 w1)) else none
  | 0x01 => if okSync w0 w1 then some (.bara (unSync w0 w1)) else none
  | 0x02 => if okSync w0 w1 then some (.barw (unSync w0 w1)) else none
  | _ => none

/-- VINT (R285). -/
def decVint (x : Nat) (w0 w1 : Slot32) : Option Instr :=
  match x with
  | 0x00 => if okVec w0 w1 then some (.vaddInt (unVec w0 w1)) else none
  | 0x01 => if okVec w0 w1 then some (.vsubInt (unVec w0 w1)) else none
  | 0x02 => if okVec w0 w1 then some (.vmulInt (unVec w0 w1)) else none
  | 0x03 => if okVec w0 w1 then some (.vmulh (unVec w0 w1)) else none
  | 0x04 => if okVec w0 w1 then some (.vminInt (unVec w0 w1)) else none
  | 0x05 => if okVec w0 w1 then some (.vmaxInt (unVec w0 w1)) else none
  | 0x06 => if okVec w0 w1 then some (.vabsInt (unVec w0 w1)) else none
  | 0x07 => if okVec w0 w1 then some (.vnegInt (unVec w0 w1)) else none
  | 0x08 => if okVec w0 w1 then some (.vand (unVec w0 w1)) else none
  | 0x09 => if okVec w0 w1 then some (.vor (unVec w0 w1)) else none
  | 0x0A => if okVec w0 w1 then some (.vxor (unVec w0 w1)) else none
  | 0x0B => if okVec w0 w1 then some (.vshl (unVec w0 w1)) else none
  | 0x0C => if okVec w0 w1 then some (.vshr (unVec w0 w1)) else none
  | 0x0D => if okVec w0 w1 then some (.vsar (unVec w0 w1)) else none
  | 0x0E => if okVec w0 w1 then some (.vcmpInt (unVec w0 w1)) else none
  | 0x0F => if okVec w0 w1 then some (.vsel (unVec w0 w1)) else none
  | _ => none

/-- VFP (R288). -/
def decVfp (x : Nat) (w0 w1 : Slot32) : Option Instr :=
  match x with
  | 0x00 => if okVec w0 w1 then some (.vaddFp (unVec w0 w1)) else none
  | 0x01 => if okVec w0 w1 then some (.vsubFp (unVec w0 w1)) else none
  | 0x02 => if okVec w0 w1 then some (.vmulFp (unVec w0 w1)) else none
  | 0x03 => if okVec w0 w1 then some (.vfma (unVec w0 w1)) else none
  | 0x04 => if okVec w0 w1 then some (.vfms (unVec w0 w1)) else none
  | 0x05 => if okVec w0 w1 then some (.vminFp (unVec w0 w1)) else none
  | 0x06 => if okVec w0 w1 then some (.vmaxFp (unVec w0 w1)) else none
  | 0x07 => if okVec w0 w1 then some (.vabsFp (unVec w0 w1)) else none
  | 0x08 => if okVec w0 w1 then some (.vnegFp (unVec w0 w1)) else none
  | 0x09 => if okVec w0 w1 then some (.vcmpFp (unVec w0 w1)) else none
  | 0x0A => if okVec w0 w1 then some (.vrcp (unVec w0 w1)) else none
  | 0x0B => if okVec w0 w1 then some (.vrsq (unVec w0 w1)) else none
  | 0x0C => if okVec w0 w1 then some (.vexp2 (unVec w0 w1)) else none
  | 0x0D => if okVec w0 w1 then some (.vlog2 (unVec w0 w1)) else none
  | _ => none

/-- VCVT (R290). -/
def decVcvt (x : Nat) (w0 w1 : Slot32) : Option Instr :=
  match x with
  | 0x00 => if okVec w0 w1 then some (.vcvt (unVec w0 w1)) else none
  | _ => none

/-- VPERM (R291). -/
def decVperm (x : Nat) (w0 w1 : Slot32) : Option Instr :=
  match x with
  | 0x00 => if okVec w0 w1 then some (.vshuf (unVec w0 w1)) else none
  | 0x01 => if okVec w0 w1 then some (.vbcast (unVec w0 w1)) else none
  | 0x02 => if okVec w0 w1 then some (.vins (unVec w0 w1)) else none
  | 0x03 => if okVec w0 w1 then some (.vext (unVec w0 w1)) else none
  | _ => none

/-- VRED (R292). -/
def decVred (x : Nat) (w0 w1 : Slot32) : Option Instr :=
  match x with
  | 0x00 => if okVec w0 w1 then some (.vred (unVec w0 w1)) else none
  | 0x01 => if okVec w0 w1 then some (.vscan (unVec w0 w1)) else none
  | 0x02 => if okVec w0 w1 then some (.vdot (unVec w0 w1)) else none
  | _ => none

/-- VMX (R295). -/
def decVmx (x : Nat) (w0 w1 : Slot32) : Option Instr :=
  match x with
  | 0x00 => if okVec w0 w1 then some (.vmxq (unVec w0 w1)) else none
  | 0x01 => if okVec w0 w1 then some (.vmxdq (unVec w0 w1)) else none
  | 0x02 => if okVec w0 w1 then some (.vnipack (unVec w0 w1)) else none
  | 0x03 => if okVec w0 w1 then some (.vniunpack (unVec w0 w1)) else none
  | _ => none

/-- MSLOT (R303). -/
def decMslot (x : Nat) (w0 w1 : Slot32) : Option Instr :=
  match x with
  | 0x00 => if okClaim w0 w1 then some (.mclaim (unClaim w0 w1)) else none
  | 0x01 => if okLs w0 w1 then some (.mrel (unLs w0 w1)) else none
  | 0x02 => if okShape w0 w1 then some (.mshape (unShape w0 w1)) else none
  | _ => none

/-- MMOVE (R303). -/
def decMmove (x : Nat) (w0 w1 : Slot32) : Option Instr :=
  match x with
  | 0x00 => if okXfer w0 w1 then some (.mload (unXfer w0 w1)) else none
  | 0x01 => if okXfer w0 w1 then some (.mstore (unXfer w0 w1)) else none
  | 0x02 => if okRow w0 w1 then some (.mrow (unRow w0 w1)) else none
  | 0x03 => if okRow w0 w1 then some (.mrowr (unRow w0 w1)) else none
  | 0x04 => if okCol w0 w1 then some (.mcol (unCol w0 w1)) else none
  | 0x05 => if okCol w0 w1 then some (.mcolw (unCol w0 w1)) else none
  | _ => none

/-- MCOMP (R303). -/
def decMcomp (x : Nat) (w0 w1 : Slot32) : Option Instr :=
  match x with
  | 0x00 => if okRs w0 w1 then some (.mzero (unRs w0 w1)) else none
  | 0x01 => if okMma w0 w1 then some (.mma (unMma w0 w1)) else none
  | 0x02 => if okRs w0 w1 then some (.mmas (unRs w0 w1)) else none
  | 0x03 => if okScan w0 w1 then some (.mscan (unScan w0 w1)) else none
  | 0x04 => if okAccr w0 w1 then some (.maccr (unAccr w0 w1)) else none
  | _ => none

/-- MJOB (R303). -/
def decMjob (x : Nat) (w0 w1 : Slot32) : Option Instr :=
  match x with
  | 0x00 => if okRs w0 w1 then some (.mwait (unRs w0 w1)) else none
  | 0x01 => if okRs w0 w1 then some (.mpoll (unRs w0 w1)) else none
  | _ => none

/-- LCELL (R360). -/
def decLcell (x : Nat) (w0 w1 : Slot32) : Option Instr :=
  match x with
  | 0x00 => if okLcload w0 w1 then some (.lcload (unLcload w0 w1)) else none
  | 0x01 => if okLcsel w0 w1 then some (.lcsel (unLcsel w0 w1)) else none
  | 0x02 => if okLcin w0 w1 then some (.lcin (unLcin w0 w1)) else none
  | 0x03 => if okLcrun w0 w1 then some (.lcrun (unLcrun w0 w1)) else none
  | 0x04 => if okLcout w0 w1 then some (.lcout (unLcout w0 w1)) else none
  | 0x05 => if okRs w0 w1 then some (.lcwait (unRs w0 w1)) else none
  | 0x06 => if okG w1 then some (.lcstat (unG w0)) else none
  | _ => none

/-- COPY (R377). -/
def decCopy (x : Nat) (w0 w1 : Slot32) : Option Instr :=
  match x with
  | 0x00 => if okCpy w0 w1 then some (.cpy (unCpy w0 w1)) else none
  | 0x01 => if okCpys w0 w1 then some (.cpys (unCpys w0 w1)) else none
  | 0x02 => if okLs w0 w1 then some (.stfree (unLs w0 w1)) else none
  | 0x03 => if okLs w0 w1 then some (.stclose (unLs w0 w1)) else none
  | 0x04 => if okStq w0 w1 then some (.stq (unStq w0 w1)) else none
  | 0x05 => if okRs w0 w1 then some (.cwait (unRs w0 w1)) else none
  | _ => none

/-- PORT (R346). -/
def decPort (x : Nat) (w0 w1 : Slot32) : Option Instr :=
  match x with
  | 0x00 => if okSend w0 w1 then some (.send (unSend w0 w1)) else none
  | 0x01 => if okSend w0 w1 then some (.sendt (unSend w0 w1)) else none
  | 0x02 => if okLs w0 w1 then some (.portcfg (unLs w0 w1)) else none
  | 0x03 => if okC3 w0 w1 then some (.patset (unC3 w0 w1)) else none
  | 0x04 => if okLs w0 w1 then some (.patclr (unLs w0 w1)) else none
  | 0x05 => if okG w1 then some (.portq (unG w0)) else none
  | 0x06 => if okLs w0 w1 then some (.hend (unLs w0 w1)) else none
  | _ => none

/-- THREAD (R404). -/
def decThread (x : Nat) (w0 w1 : Slot32) : Option Instr :=
  match x with
  | 0x00 => if okSpawn w0 w1 then some (.spawn (unSpawn w0 w1)) else none
  | 0x01 => if okSpawn w0 w1 then some (.spawnp (unSpawn w0 w1)) else none
  | 0x02 => if okG w1 then some (.compose (unG w0)) else none
  | 0x03 => if okG w1 then some (.decomp (unG w0)) else none
  | 0x04 => if okG w1 then some (.follow (unG w0)) else none
  | 0x05 => if okP w0 w1 then some (.unfollow (unP w0 w1)) else none
  | 0x06 => if okP w0 w1 then some (.rejoin (unP w0 w1)) else none
  | 0x07 => if okLs w0 w1 then some (.tend (unLs w0 w1)) else none
  | _ => none

/-- SYSTEM (R429). -/
def decSystem (x : Nat) (w0 w1 : Slot32) : Option Instr :=
  match x with
  | 0x00 => if okTrap w0 w1 then some (.trap (unTrap w0 w1)) else none
  | 0x01 => if okEret w0 w1 then some (.eret (unEret w0 w1)) else none
  | 0x02 => if okRs w0 w1 then some (.srr (unRs w0 w1)) else none
  | 0x03 => if okLs w0 w1 then some (.srw (unLs w0 w1)) else none
  | 0x04 => if okTlbinv w0 w1 then some (.tlbinv (unTlbinv w0 w1)) else none
  | 0x05 => if okLs w0 w1 then some (.ctxkill (unLs w0 w1)) else none
  | 0x06 => if okPerfr w0 w1 then some (.perfr (unPerfr w0 w1)) else none
  | _ => none

/-- CTL (R253, R245). -/
def decCtl (x : Nat) (w0 w1 : Slot32) : Option Instr :=
  match x with
  | 0x00 => if okCalli w0 w1 then some (.calli (unCalli w0 w1)) else none
  | 0x01 => if okMov4 w0 w1 then some (.mov4 (unMov4 w0 w1)) else none
  | _ => none

/-- Whether a word of an opcode group with XOPs names a defined one; true for the other opcodes (R201). The slot pass
of R203 asks this of the first word alone. -/
def xopDefined (w : Slot32) : Bool :=
  match opc w with
  | 0x01 => Nat.blt (xop w) 15
  | 0x02 => Nat.blt (xop w) 15
  | 0x03 => Nat.blt (xop w) 10
  | 0x04 => Nat.blt (xop w) 8
  | 0x05 => Nat.blt (xop w) 6 || (Nat.ble 8 (xop w) && Nat.blt (xop w) 14)
  | 0x06 => Nat.blt (xop w) 3
  | 0x40 => Nat.blt (xop w) 20 && xop w != 7
  | 0x41 => Nat.blt (xop w) 3
  | 0x42 => Nat.blt (xop w) 16
  | 0x43 => Nat.blt (xop w) 14
  | 0x44 => Nat.blt (xop w) 1
  | 0x45 => Nat.blt (xop w) 4
  | 0x46 => Nat.blt (xop w) 3
  | 0x47 => Nat.blt (xop w) 4
  | 0x48 => Nat.blt (xop w) 3
  | 0x49 => Nat.blt (xop w) 6
  | 0x4A => Nat.blt (xop w) 5
  | 0x4B => Nat.blt (xop w) 2
  | 0x4C => Nat.blt (xop w) 7
  | 0x4D => Nat.blt (xop w) 6
  | 0x4E => Nat.blt (xop w) 7
  | 0x4F => Nat.blt (xop w) 8
  | 0x50 => Nat.blt (xop w) 7
  | 0x51 => Nat.blt (xop w) 2
  | _ => true

/-- An instruction found in a group, or the reserved-instruction rejection. -/
def gate : Option Instr → Except Reject Instr
  | some i => if i.fieldsOk then .ok i else .error .reserved
  | none => .error .reserved

/-- BRI and RET: no targets, and XOP[1:0] is zero (R249). -/
def okBr (w : Slot32) : Bool := bits w 18 2 == 0#2 && noTargets (bits w 9 9) (bits w 0 9)

/-- A shift by an immediate: IMM14[13:6] is zero (R191). -/
def okSh (w : Slot32) : Bool := bits w 15 8 == 0#8

/-- The instruction of a slot word outside group IARITH, by the primary opcode map (R200). -/
def decodeRest (w0 w1 : Slot32) : Except Reject Instr :=
  match opc w0 with
  | 0x00 => if w0 == 0#32 then .error .emptySlot else .error .nonzeroEmpty
  | 0x02 => gate (decIarithW (xop w0) w0)
  | 0x03 => gate (decIlogic (xop w0) w0)
  | 0x04 => gate (decIbit (xop w0) w0)
  | 0x05 => gate (decItest (xop w0) w0)
  | 0x06 => gate (decMove (xop w0) w0)
  | 0x07 => gate (decFscalar (xop w0) w0)
  | 0x08 => .ok (.addi (unI w0))
  | 0x09 => .ok (.muli (unI w0))
  | 0x0A => .ok (.andi (unI w0))
  | 0x0B => .ok (.ori (unI w0))
  | 0x0C => .ok (.xori (unI w0))
  | 0x0D => if okSh w0 then .ok (.shli (unSh w0)) else .error .reserved
  | 0x0E => if okSh w0 then .ok (.shri (unSh w0)) else .error .reserved
  | 0x0F => if okSh w0 then .ok (.sari (unSh w0)) else .error .reserved
  | 0x10 => .ok (.teqi (unI w0))
  | 0x11 => .ok (.tnei (unI w0))
  | 0x12 => .ok (.tlti (unI w0))
  | 0x13 => .ok (.tlei (unI w0))
  | 0x14 => .ok (.tltzi (unI w0))
  | 0x15 => .ok (.tlezi (unI w0))
  | 0x16 => .ok (.addiw (unI w0))
  | 0x18 => .ok (.movi (unC w0))
  | 0x19 => .ok (.appi (unC w0))
  | 0x20 => .ok (.ldb (unL w0))
  | 0x21 => .ok (.ldh (unL w0))
  | 0x22 => .ok (.ldw (unL w0))
  | 0x23 => .ok (.ldd (unL w0))
  | 0x24 => .ok (.ldbs (unL w0))
  | 0x25 => .ok (.ldhs (unL w0))
  | 0x26 => .ok (.ldws (unL w0))
  | 0x27 => .ok (.ldv (unL w0))
  | 0x28 => .ok (.stb (unS w0))
  | 0x29 => .ok (.sth (unS w0))
  | 0x2A => .ok (.stw (unS w0))
  | 0x2B => .ok (.std (unS w0))
  | 0x2C => .ok (.stv (unS w0))
  | 0x30 => .ok (.br (unB w0))
  | 0x31 => .ok (.call (unB w0))
  | 0x32 => if okBr w0 then .ok (.bri (unBr w0)) else .error .reserved
  | 0x33 => if okBr w0 then .ok (.ret (unBr w0)) else .error .reserved
  | 0x34 => .ok (.scall (unB w0))
  | 0x40 => gate (decWmem (xop w0) w0 w1)
  | 0x41 => gate (decWsync (xop w0) w0 w1)
  | 0x42 => gate (decVint (xop w0) w0 w1)
  | 0x43 => gate (decVfp (xop w0) w0 w1)
  | 0x44 => gate (decVcvt (xop w0) w0 w1)
  | 0x45 => gate (decVperm (xop w0) w0 w1)
  | 0x46 => gate (decVred (xop w0) w0 w1)
  | 0x47 => gate (decVmx (xop w0) w0 w1)
  | 0x48 => gate (decMslot (xop w0) w0 w1)
  | 0x49 => gate (decMmove (xop w0) w0 w1)
  | 0x4A => gate (decMcomp (xop w0) w0 w1)
  | 0x4B => gate (decMjob (xop w0) w0 w1)
  | 0x4C => gate (decLcell (xop w0) w0 w1)
  | 0x4D => gate (decCopy (xop w0) w0 w1)
  | 0x4E => gate (decPort (xop w0) w0 w1)
  | 0x4F => gate (decThread (xop w0) w0 w1)
  | 0x50 => gate (decSystem (xop w0) w0 w1)
  | 0x51 => gate (decCtl (xop w0) w0 w1)
  | 0x6C => .ok (.hint (unHint w0))
  | 0x6D => .ok (.hint (unHint w0))
  | 0x6E => .ok (.hint (unHint w0))
  | 0x6F => .ok (.hint (unHint w0))
  | _ => .error .reserved

/-- The instruction that the slot word `w0` holds, with `w1` the word of the slot after it (read by the W format only);
total, by the primary opcode map (R200). -/
noncomputable def decode (w0 w1 : Slot32) : Except Reject Instr :=
  match opc w0 with
  | 0x01 => gate (decIarith (xop w0) w0)
  | _ => decodeRest w0 w1

/-- Whether the decoder rejects a slot's words as reserved: `decode` answers an error. -/
def isReserved (w0 w1 : Slot32) : Bool :=
  match opc w0 with
  | 0x01 => !xopDefined w0
  | _ =>
    match decodeRest w0 w1 with
    | .ok _ => false
    | .error _ => true

/-- The instruction the decoder reads from `nbits` bits `w`, numbered as the opcode table numbers them: the first word in
bits [31:0], the second, where there is one, in bits [63:32]. -/
noncomputable def decodeTableWord (_nbits w : Nat) : Option Instr :=
  match decode (BitVec.ofNat 32 w) (BitVec.ofNat 32 (w >>> 32)) with
  | .ok i => some i
  | .error _ => none

/-! ### The encoder -/

/-- A G-format word (R189). -/
def pkG (op : BitVec 7) (x : BitVec 5) (f : GF) : Slot32 := op ++ f.p ++ x ++ f.t1 ++ f.t0
/-- A Fma-format word (R248). -/
def pkFma (op : BitVec 7) (x : BitVec 5) (f : FmaF) : Slot32 := op ++ 0#2 ++ x ++ f.t1 ++ f.t0
/-- A I-format word (R189). -/
def pkI (op : BitVec 7) (f : IF) : Slot32 := op ++ f.p ++ f.imm ++ f.t0
/-- A Sh-format word (R191). -/
def pkSh (op : BitVec 7) (f : ShF) : Slot32 := op ++ f.p ++ 0#8 ++ f.cnt ++ f.t0
/-- A C-format word (R189). -/
def pkC (op : BitVec 7) (f : CF) : Slot32 := op ++ f.k ++ f.t0
/-- A L-format word (R189). -/
def pkL (op : BitVec 7) (f : LF) : Slot32 := op ++ f.p ++ f.lsid ++ f.imm ++ f.t0
/-- A S-format word (R189). -/
def pkS (op : BitVec 7) (f : SF) : Slot32 := op ++ f.p ++ f.lsid ++ f.imm
/-- A B-format word (R189). -/
def pkB (op : BitVec 7) (f : BF) : Slot32 := op ++ f.p ++ f.ex ++ f.off
/-- A Br-format word (R249). -/
def pkBr (op : BitVec 7) (f : BrF) : Slot32 := op ++ f.p ++ f.ex ++ 0#2 ++ noTarget ++ noTarget
/-- A Hint-format word (R202). -/
def pkHint (f : HintF) : Slot32 := (0x1B#5) ++ f.h ++ f.p ++ f.x ++ f.t1 ++ f.t0
/-- The first word of a W instruction (R189). -/
def pkW (op : BitVec 7) (x : BitVec 5) (p : BitVec 2) (t1 t0 : BitVec 9) : Slot32 := op ++ p ++ x ++ t1 ++ t0

/-- The two words of the Mem layout (R263). -/
def pkMem (op : BitVec 7) (x : BitVec 5) (f : MemF) : List Slot32 :=
  [pkW op x f.p f.t1 f.t0, f.off ++ f.sx ++ f.fe ++ f.ord ++ f.scope ++ f.cls ++ f.size ++ f.lsid]
/-- The two words of the Sync layout (R274). -/
def pkSync (op : BitVec 7) (x : BitVec 5) (f : SyncF) : List Slot32 :=
  [pkW op x f.p f.t1 f.t0, 0#12 ++ f.bid ++ f.ord ++ f.scope ++ 0#6 ++ f.lsid]
/-- The two words of the Vec layout (R282). -/
def pkVec (op : BitVec 7) (x : BitVec 5) (f : VecF) : List Slot32 :=
  [pkW op x f.p f.t1 f.t0, f.imm8 ++ f.pl ++ f.ty2 ++ f.sat ++ 0#4 ++ f.rnd ++ 0#3 ++ f.ty]
/-- The two words of the Claim layout (R304). -/
def pkClaim (op : BitVec 7) (x : BitVec 5) (f : ClaimF) : List Slot32 :=
  [pkW op x f.p f.t1 f.t0, 0#26 ++ f.pair ++ f.lsid]
/-- The two words of the Ls layout (R304, R347, R378, R404, R429). -/
def pkLs (op : BitVec 7) (x : BitVec 5) (f : LsF) : List Slot32 :=
  [pkW op x f.p noTarget noTarget, 0#27 ++ f.lsid]
/-- The two words of the Rs layout (R304, R361, R378, R429). -/
def pkRs (op : BitVec 7) (x : BitVec 5) (f : RsF) : List Slot32 :=
  [pkW op x f.p f.t1 f.t0, 0#27 ++ f.lsid]
/-- The two words of the Shape layout (R304). -/
def pkShape (op : BitVec 7) (x : BitVec 5) (f : ShapeF) : List Slot32 :=
  [pkW op x f.p noTarget noTarget, f.rowsm1 ++ f.colsm1 ++ f.fmt ++ 0#5 ++ f.lsid]
/-- The two words of the Xfer layout (R304). -/
def pkXfer (op : BitVec 7) (x : BitVec 5) (f : XferF) : List Slot32 :=
  [pkW op x 0#2 f.t1 f.t0, f.row0 ++ f.nrowm1 ++ f.pl ++ f.scope ++ f.cls ++ 0#4 ++ f.lsid]
/-- The two words of the Row layout (R304). -/
def pkRow (op : BitVec 7) (x : BitVec 5) (f : RowF) : List Slot32 :=
  [pkW op x f.p f.t1 f.t0, f.row ++ f.seg ++ 0#17 ++ f.lsid]
/-- The two words of the Col layout (R304). -/
def pkCol (op : BitVec 7) (x : BitVec 5) (f : ColF) : List Slot32 :=
  [pkW op x f.p f.t1 f.t0, f.row0 ++ f.col ++ 0#11 ++ f.lsid]
/-- The two words of the Mma layout (R304). -/
def pkMma (op : BitVec 7) (x : BitVec 5) (f : MmaF) : List Slot32 :=
  [pkW op x f.p f.t1 f.t0, f.pl ++ 0#24 ++ f.lsid]
/-- The two words of the Scan layout (R304). -/
def pkScan (op : BitVec 7) (x : BitVec 5) (f : ScanF) : List Slot32 :=
  [pkW op x f.p f.t1 f.t0, f.hrow ++ 0#20 ++ f.lsid]
/-- The two words of the Accr layout (R304). -/
def pkAccr (op : BitVec 7) (x : BitVec 5) (f : AccrF) : List Slot32 :=
  [pkW op x f.p f.t1 f.t0, f.rnd ++ f.clr ++ 0#23 ++ f.lsid]
/-- The two words of the Lcload layout (R361). -/
def pkLcload (op : BitVec 7) (x : BitVec 5) (f : LcloadF) : List Slot32 :=
  [pkW op x f.p f.t1 f.t0, 0#11 ++ f.ctx ++ f.cls ++ f.scope ++ f.ntf ++ f.port ++ f.lsid]
/-- The two words of the Lcsel layout (R361). -/
def pkLcsel (op : BitVec 7) (x : BitVec 5) (f : LcselF) : List Slot32 :=
  [pkW op x f.p f.t1 f.t0, 0#11 ++ f.ctx ++ 0#3 ++ f.scope ++ f.ntf ++ f.port ++ f.lsid]
/-- The two words of the Lcin layout (R361). -/
def pkLcin (op : BitVec 7) (x : BitVec 5) (f : LcinF) : List Slot32 :=
  [pkW op x 0#2 f.t1 f.t0, f.ty ++ f.plm1 ++ 0#4 ++ f.thr ++ f.bank ++ f.cls ++ f.scope ++ f.ntf ++ f.port ++ f.lsid]
/-- The two words of the Lcrun layout (R361). -/
def pkLcrun (op : BitVec 7) (x : BitVec 5) (f : LcrunF) : List Slot32 :=
  [pkW op x f.p f.t1 f.t0, 0#10 ++ f.repm1 ++ 0#3 ++ f.scope ++ f.ntf ++ f.port ++ f.lsid]
/-- The two words of the Lcout layout (R361). -/
def pkLcout (op : BitVec 7) (x : BitVec 5) (f : LcoutF) : List Slot32 :=
  [pkW op x f.p f.t1 f.t0, 0#13 ++ f.bank ++ f.cls ++ f.scope ++ f.ntf ++ f.port ++ f.lsid]
/-- The two words of the Cpy layout (R378). -/
def pkCpy (op : BitVec 7) (x : BitVec 5) (f : CpyF) : List Slot32 :=
  [pkW op x 0#2 f.t1 f.t0, f.cv ++ f.stype ++ f.dtype ++ f.rnd ++ f.cls ++ f.scope ++ f.ntf ++ f.port ++ f.lsid]
/-- The two words of the Cpys layout (R378). -/
def pkCpys (op : BitVec 7) (x : BitVec 5) (f : CpysF) : List Slot32 :=
  [pkW op x 0#2 f.t1 f.t0, 0#14 ++ f.cls ++ f.scope ++ f.ntf ++ f.port ++ f.lsid]
/-- The two words of the Stq layout (R378). -/
def pkStq (op : BitVec 7) (x : BitVec 5) (f : StqF) : List Slot32 :=
  [pkW op x f.p f.t1 f.t0, 0#25 ++ f.sel ++ 0#5]
/-- The two words of the Send layout (R347). -/
def pkSend (op : BitVec 7) (x : BitVec 5) (f : SendF) : List Slot32 :=
  [pkW op x f.p f.t1 f.t0, 0#18 ++ f.scope ++ f.wcm1 ++ f.v ++ 0#2 ++ f.lsid]
/-- The two words of the C3 layout (R347). -/
def pkC3 (op : BitVec 7) (x : BitVec 5) (f : C3F) : List Slot32 :=
  [pkW op x 0#2 noTarget noTarget, 0#27 ++ f.lsid]
/-- The two words of the Spawn layout (R404). -/
def pkSpawn (op : BitVec 7) (x : BitVec 5) (f : SpawnF) : List Slot32 :=
  [pkW op x 0#2 f.t1 f.t0, 0#18 ++ f.scope ++ 0#6 ++ f.lsid]
/-- The two words of the P layout (R404). -/
def pkP (op : BitVec 7) (x : BitVec 5) (f : PF) : List Slot32 :=
  [pkW op x f.p noTarget noTarget, 0#32]
/-- The two words of the Trap layout (R429). -/
def pkTrap (op : BitVec 7) (x : BitVec 5) (f : TrapF) : List Slot32 :=
  [pkW op x f.p noTarget noTarget, 0#8 ++ f.code ++ 0#8]
/-- The two words of the Eret layout (R429). -/
def pkEret (op : BitVec 7) (x : BitVec 5) (f : EretF) : List Slot32 :=
  [pkW op x f.p noTarget noTarget, 0#24 ++ f.ex ++ 0#5]
/-- The two words of the Tlbinv layout (R429). -/
def pkTlbinv (op : BitVec 7) (x : BitVec 5) (f : TlbinvF) : List Slot32 :=
  [pkW op x f.p noTarget noTarget, 0#18 ++ f.scope ++ 0#3 ++ f.mode ++ 0#1 ++ f.lsid]
/-- The two words of the Perfr layout (R429). -/
def pkPerfr (op : BitVec 7) (x : BitVec 5) (f : PerfrF) : List Slot32 :=
  [pkW op x f.p f.t1 f.t0, 0#21 ++ f.sel ++ 0#8]
/-- The two words of the Calli layout (R253). -/
def pkCalli (op : BitVec 7) (x : BitVec 5) (f : CalliF) : List Slot32 :=
  [pkW op x f.p noTarget noTarget, 0#8 ++ f.sig ++ f.ex ++ f.lsid]
/-- The two words of the Mov4 layout (R245). -/
def pkMov4 (op : BitVec 7) (x : BitVec 5) (f : Mov4F) : List Slot32 :=
  [pkW op x f.p f.t1 f.t0, 0#14 ++ f.t3 ++ f.t2]
/-- The two words of the G layout (R346, R361, R404). -/
def pkG2 (op : BitVec 7) (x : BitVec 5) (f : GF) : List Slot32 :=
  [pkW op x f.p f.t1 f.t0, 0#32]

/-- The words of an instruction; an event is a step of the hardware and has none. -/
def encode : Instr → List Slot32
  | .add f => [pkG 0x01 0x00 f]
  | .sub f => [pkG 0x01 0x01 f]
  | .mul f => [pkG 0x01 0x02 f]
  | .mulh f => [pkG 0x01 0x03 f]
  | .mulhz f => [pkG 0x01 0x04 f]
  | .div f => [pkG 0x01 0x05 f]
  | .divz f => [pkG 0x01 0x06 f]
  | .rem f => [pkG 0x01 0x07 f]
  | .remz f => [pkG 0x01 0x08 f]
  | .min f => [pkG 0x01 0x09 f]
  | .max f => [pkG 0x01 0x0A f]
  | .minz f => [pkG 0x01 0x0B f]
  | .maxz f => [pkG 0x01 0x0C f]
  | .abs f => [pkG 0x01 0x0D f]
  | .neg f => [pkG 0x01 0x0E f]
  | .addW f => [pkG 0x02 0x00 f]
  | .subW f => [pkG 0x02 0x01 f]
  | .mulW f => [pkG 0x02 0x02 f]
  | .mulhW f => [pkG 0x02 0x03 f]
  | .mulhzW f => [pkG 0x02 0x04 f]
  | .divW f => [pkG 0x02 0x05 f]
  | .divzW f => [pkG 0x02 0x06 f]
  | .remW f => [pkG 0x02 0x07 f]
  | .remzW f => [pkG 0x02 0x08 f]
  | .minW f => [pkG 0x02 0x09 f]
  | .maxW f => [pkG 0x02 0x0A f]
  | .minzW f => [pkG 0x02 0x0B f]
  | .maxzW f => [pkG 0x02 0x0C f]
  | .absW f => [pkG 0x02 0x0D f]
  | .negW f => [pkG 0x02 0x0E f]
  | .and f => [pkG 0x03 0x00 f]
  | .or f => [pkG 0x03 0x01 f]
  | .xor f => [pkG 0x03 0x02 f]
  | .andn f => [pkG 0x03 0x03 f]
  | .orn f => [pkG 0x03 0x04 f]
  | .shl f => [pkG 0x03 0x05 f]
  | .shr f => [pkG 0x03 0x06 f]
  | .sar f => [pkG 0x03 0x07 f]
  | .rol f => [pkG 0x03 0x08 f]
  | .ror f => [pkG 0x03 0x09 f]
  | .clz f => [pkG 0x04 0x00 f]
  | .ctz f => [pkG 0x04 0x01 f]
  | .popc f => [pkG 0x04 0x02 f]
  | .brev f => [pkG 0x04 0x03 f]
  | .bswap f => [pkG 0x04 0x04 f]
  | .exts f => [pkG 0x04 0x05 f]
  | .extz f => [pkG 0x04 0x06 f]
  | .ins f => [pkG 0x04 0x07 f]
  | .teq f => [pkG 0x05 0x00 f]
  | .tne f => [pkG 0x05 0x01 f]
  | .tlt f => [pkG 0x05 0x02 f]
  | .tle f => [pkG 0x05 0x03 f]
  | .tltz f => [pkG 0x05 0x04 f]
  | .tlez f => [pkG 0x05 0x05 f]
  | .teqW f => [pkG 0x05 0x08 f]
  | .tneW f => [pkG 0x05 0x09 f]
  | .tltW f => [pkG 0x05 0x0A f]
  | .tleW f => [pkG 0x05 0x0B f]
  | .tltzW f => [pkG 0x05 0x0C f]
  | .tlezW f => [pkG 0x05 0x0D f]
  | .mov f => [pkG 0x06 0x00 f]
  | .sel f => [pkG 0x06 0x01 f]
  | .null f => [pkG 0x06 0x02 f]
  | .faddF64 f => [pkG 0x07 0x00 f]
  | .fsubF64 f => [pkG 0x07 0x01 f]
  | .fmulF64 f => [pkG 0x07 0x02 f]
  | .fdivF64 f => [pkG 0x07 0x03 f]
  | .fsqrtF64 f => [pkG 0x07 0x04 f]
  | .ffmaF64 f => [pkFma 0x07 0x05 f]
  | .fminF64 f => [pkG 0x07 0x06 f]
  | .fmaxF64 f => [pkG 0x07 0x07 f]
  | .faddF32 f => [pkG 0x07 0x08 f]
  | .fsubF32 f => [pkG 0x07 0x09 f]
  | .fmulF32 f => [pkG 0x07 0x0A f]
  | .fdivF32 f => [pkG 0x07 0x0B f]
  | .fsqrtF32 f => [pkG 0x07 0x0C f]
  | .ffmaF32 f => [pkFma 0x07 0x0D f]
  | .fminF32 f => [pkG 0x07 0x0E f]
  | .fmaxF32 f => [pkG 0x07 0x0F f]
  | .fcmpEqF64 f => [pkG 0x07 0x10 f]
  | .fcmpLtF64 f => [pkG 0x07 0x11 f]
  | .fcmpLeF64 f => [pkG 0x07 0x12 f]
  | .fcmpUnF64 f => [pkG 0x07 0x13 f]
  | .fcmpEqF32 f => [pkG 0x07 0x14 f]
  | .fcmpLtF32 f => [pkG 0x07 0x15 f]
  | .fcmpLeF32 f => [pkG 0x07 0x16 f]
  | .fcmpUnF32 f => [pkG 0x07 0x17 f]
  | .fcvtF64F32 f => [pkG 0x07 0x18 f]
  | .fcvtF32F64 f => [pkG 0x07 0x19 f]
  | .fcvtI64F64 f => [pkG 0x07 0x1A f]
  | .fcvtF64I64 f => [pkG 0x07 0x1B f]
  | .fcvtI64F32 f => [pkG 0x07 0x1C f]
  | .fcvtF32I64 f => [pkG 0x07 0x1D f]
  | .fcvtI64F64Rtz f => [pkG 0x07 0x1E f]
  | .fcvtI64F32Rtz f => [pkG 0x07 0x1F f]
  | .addi f => [pkI 0x08 f]
  | .muli f => [pkI 0x09 f]
  | .andi f => [pkI 0x0A f]
  | .ori f => [pkI 0x0B f]
  | .xori f => [pkI 0x0C f]
  | .shli f => [pkSh 0x0D f]
  | .shri f => [pkSh 0x0E f]
  | .sari f => [pkSh 0x0F f]
  | .teqi f => [pkI 0x10 f]
  | .tnei f => [pkI 0x11 f]
  | .tlti f => [pkI 0x12 f]
  | .tlei f => [pkI 0x13 f]
  | .tltzi f => [pkI 0x14 f]
  | .tlezi f => [pkI 0x15 f]
  | .addiw f => [pkI 0x16 f]
  | .movi f => [pkC 0x18 f]
  | .appi f => [pkC 0x19 f]
  | .ldb f => [pkL 0x20 f]
  | .ldh f => [pkL 0x21 f]
  | .ldw f => [pkL 0x22 f]
  | .ldd f => [pkL 0x23 f]
  | .ldbs f => [pkL 0x24 f]
  | .ldhs f => [pkL 0x25 f]
  | .ldws f => [pkL 0x26 f]
  | .ldv f => [pkL 0x27 f]
  | .stb f => [pkS 0x28 f]
  | .sth f => [pkS 0x29 f]
  | .stw f => [pkS 0x2A f]
  | .std f => [pkS 0x2B f]
  | .stv f => [pkS 0x2C f]
  | .br f => [pkB 0x30 f]
  | .call f => [pkB 0x31 f]
  | .bri f => [pkBr 0x32 f]
  | .ret f => [pkBr 0x33 f]
  | .scall f => [pkB 0x34 f]
  | .hint f => [pkHint f]
  | .ld f => pkMem 0x40 0x00 f
  | .st f => pkMem 0x40 0x01 f
  | .gather f => pkMem 0x40 0x02 f
  | .scatter f => pkMem 0x40 0x03 f
  | .pref f => pkMem 0x40 0x04 f
  | .lflush f => pkMem 0x40 0x05 f
  | .linv f => pkMem 0x40 0x06 f
  | .aadd f => pkMem 0x40 0x08 f
  | .aand f => pkMem 0x40 0x09 f
  | .aor f => pkMem 0x40 0x0A f
  | .axor f => pkMem 0x40 0x0B f
  | .amin f => pkMem 0x40 0x0C f
  | .amax f => pkMem 0x40 0x0D f
  | .aminz f => pkMem 0x40 0x0E f
  | .amaxz f => pkMem 0x40 0x0F f
  | .axchg f => pkMem 0x40 0x10 f
  | .acas f => pkMem 0x40 0x11 f
  | .afaddF32 f => pkMem 0x40 0x12 f
  | .afaddBf16x2 f => pkMem 0x40 0x13 f
  | .fence f => pkSync 0x41 0x00 f
  | .bara f => pkSync 0x41 0x01 f
  | .barw f => pkSync 0x41 0x02 f
  | .vaddInt f => pkVec 0x42 0x00 f
  | .vsubInt f => pkVec 0x42 0x01 f
  | .vmulInt f => pkVec 0x42 0x02 f
  | .vmulh f => pkVec 0x42 0x03 f
  | .vminInt f => pkVec 0x42 0x04 f
  | .vmaxInt f => pkVec 0x42 0x05 f
  | .vabsInt f => pkVec 0x42 0x06 f
  | .vnegInt f => pkVec 0x42 0x07 f
  | .vand f => pkVec 0x42 0x08 f
  | .vor f => pkVec 0x42 0x09 f
  | .vxor f => pkVec 0x42 0x0A f
  | .vshl f => pkVec 0x42 0x0B f
  | .vshr f => pkVec 0x42 0x0C f
  | .vsar f => pkVec 0x42 0x0D f
  | .vcmpInt f => pkVec 0x42 0x0E f
  | .vsel f => pkVec 0x42 0x0F f
  | .vaddFp f => pkVec 0x43 0x00 f
  | .vsubFp f => pkVec 0x43 0x01 f
  | .vmulFp f => pkVec 0x43 0x02 f
  | .vfma f => pkVec 0x43 0x03 f
  | .vfms f => pkVec 0x43 0x04 f
  | .vminFp f => pkVec 0x43 0x05 f
  | .vmaxFp f => pkVec 0x43 0x06 f
  | .vabsFp f => pkVec 0x43 0x07 f
  | .vnegFp f => pkVec 0x43 0x08 f
  | .vcmpFp f => pkVec 0x43 0x09 f
  | .vrcp f => pkVec 0x43 0x0A f
  | .vrsq f => pkVec 0x43 0x0B f
  | .vexp2 f => pkVec 0x43 0x0C f
  | .vlog2 f => pkVec 0x43 0x0D f
  | .vcvt f => pkVec 0x44 0x00 f
  | .vshuf f => pkVec 0x45 0x00 f
  | .vbcast f => pkVec 0x45 0x01 f
  | .vins f => pkVec 0x45 0x02 f
  | .vext f => pkVec 0x45 0x03 f
  | .vred f => pkVec 0x46 0x00 f
  | .vscan f => pkVec 0x46 0x01 f
  | .vdot f => pkVec 0x46 0x02 f
  | .vmxq f => pkVec 0x47 0x00 f
  | .vmxdq f => pkVec 0x47 0x01 f
  | .vnipack f => pkVec 0x47 0x02 f
  | .vniunpack f => pkVec 0x47 0x03 f
  | .mclaim f => pkClaim 0x48 0x00 f
  | .mrel f => pkLs 0x48 0x01 f
  | .mshape f => pkShape 0x48 0x02 f
  | .mload f => pkXfer 0x49 0x00 f
  | .mstore f => pkXfer 0x49 0x01 f
  | .mrow f => pkRow 0x49 0x02 f
  | .mrowr f => pkRow 0x49 0x03 f
  | .mcol f => pkCol 0x49 0x04 f
  | .mcolw f => pkCol 0x49 0x05 f
  | .mzero f => pkRs 0x4A 0x00 f
  | .mma f => pkMma 0x4A 0x01 f
  | .mmas f => pkRs 0x4A 0x02 f
  | .mscan f => pkScan 0x4A 0x03 f
  | .maccr f => pkAccr 0x4A 0x04 f
  | .mwait f => pkRs 0x4B 0x00 f
  | .mpoll f => pkRs 0x4B 0x01 f
  | .lcload f => pkLcload 0x4C 0x00 f
  | .lcsel f => pkLcsel 0x4C 0x01 f
  | .lcin f => pkLcin 0x4C 0x02 f
  | .lcrun f => pkLcrun 0x4C 0x03 f
  | .lcout f => pkLcout 0x4C 0x04 f
  | .lcwait f => pkRs 0x4C 0x05 f
  | .lcstat f => pkG2 0x4C 0x06 f
  | .cpy f => pkCpy 0x4D 0x00 f
  | .cpys f => pkCpys 0x4D 0x01 f
  | .stfree f => pkLs 0x4D 0x02 f
  | .stclose f => pkLs 0x4D 0x03 f
  | .stq f => pkStq 0x4D 0x04 f
  | .cwait f => pkRs 0x4D 0x05 f
  | .send f => pkSend 0x4E 0x00 f
  | .sendt f => pkSend 0x4E 0x01 f
  | .portcfg f => pkLs 0x4E 0x02 f
  | .patset f => pkC3 0x4E 0x03 f
  | .patclr f => pkLs 0x4E 0x04 f
  | .portq f => pkG2 0x4E 0x05 f
  | .hend f => pkLs 0x4E 0x06 f
  | .spawn f => pkSpawn 0x4F 0x00 f
  | .spawnp f => pkSpawn 0x4F 0x01 f
  | .compose f => pkG2 0x4F 0x02 f
  | .decomp f => pkG2 0x4F 0x03 f
  | .follow f => pkG2 0x4F 0x04 f
  | .unfollow f => pkP 0x4F 0x05 f
  | .rejoin f => pkP 0x4F 0x06 f
  | .tend f => pkLs 0x4F 0x07 f
  | .trap f => pkTrap 0x50 0x00 f
  | .eret f => pkEret 0x50 0x01 f
  | .srr f => pkRs 0x50 0x02 f
  | .srw f => pkLs 0x50 0x03 f
  | .tlbinv f => pkTlbinv 0x50 0x04 f
  | .ctxkill f => pkLs 0x50 0x05 f
  | .perfr f => pkPerfr 0x50 0x06 f
  | .calli f => pkCalli 0x51 0x00 f
  | .mov4 f => pkMov4 0x51 0x01 f
  | _ => []

end Sys2Proof
end

