-- ==== Sys2Proof/Machine/State.lean ====
section
/-! DEFINITION. The state of one GZ-8 module as plain data: everything the manual gives the machine. Sparse storage is a
list of (key, value) pairs in one canonical form (`Tab`, `Host.Cell`): keys strictly rising, no entry at the default
value where the reader has one. Keys: cluster = 80 × die + cluster number; grid = 8 × cluster + grid; thread = 4 × grid
+ context. -/

namespace Sys2Proof.Machine

/-- A sparse table: keys strictly rising. -/
abbrev Tab (α : Type) := List (Nat × α)

/-- The reasons the machine stops with a fault. No behaviour of the manual stops it: every fault of a program is a trap
it takes (R413), so there is one name, for a state that no run reaches. -/
inductive Fault where
  /-- `step` raises it when the agenda names a slot of a thread or block that does not exist: the state was not reached
  by a run. Safe: the machine stops where the hardware has no such state. -/
  | noSuchBlock
  deriving DecidableEq, Repr

/-- The reasons an instruction has no meaning. -/
inductive Refusal where
  /-- An instruction whose meaning this model does not give yet; raised by its arm in `exec`. Safe. -/
  | notModelled (mnemonic : String)
  deriving DecidableEq, Repr

/-- A signature (R96): 1,024 bits in four banks, the insertion count and `all`. -/
structure Sig where
  bits : BitVec 1024
  count : Nat
  all : Bool
  deriving DecidableEq, Repr

/-- The empty signature (R96). -/
def Sig.empty : Sig := ⟨0, 0, false⟩

/-- A token (R194). -/
inductive Tok where
  | null
  | s (w : Word)
  | v (x : Vec)
  deriving DecidableEq, Repr

/-- A cached translation (R30): `page` is VA[79:16] of the leaf's first 64 KiB page, `lvl` the leaf's level, `pa` its
page base. -/
structure Trans where
  ctx : Nat
  page : Nat
  lvl : Nat
  pa : Nat
  w : Bool
  x : Bool
  p : Bool
  kind : Nat
  cls : Nat
  d : Bool
  deriving DecidableEq, Repr

/-- The progress of one line's part of an access. -/
inductive PartSt where
  /-- Not yet performed or sent: waits for its translation, an order rule or a miss register. -/
  | want
  /-- Failed with a cause of R40 at a walk level (R39). -/
  | fail (cause level : Nat)
  /-- A request is outstanding under this message id (R62). -/
  | sent (msg : Nat)
  /-- Performed: a load's bytes and their poison. A store or line operation has none; it may commit, and `true` says that its
  block's commit has performed it. -/
  | got (bytes : List Byte) (poison : Bool)
  deriving DecidableEq, Repr

/-- The part of an access that lies in one line (R44): its first byte's virtual address, its place in the access, its
length, the bytes it stores (for a load: those that stores of its thread have forwarded to it, R279), and once it has
a translation the physical address, the class (1 `.own`, 2 `.wt`, 3 `.si`, 4 `.uc`) and the place (0 memory, 1
no-allocate page, 2 device page, 3 vault, 4 system registers). `sig` is the signature its reply carried (R101). -/
structure Part where
  va : Nat
  off : Nat
  len : Nat
  data : List (Option Byte)
  pa : Option Nat
  cls : Nat
  kind : Nat
  st : PartSt
  sig : Sig
  deriving DecidableEq, Repr

/-- A fired instruction that its frame still tracks: a memory access, or an instruction performed at commit, or one that
waits before it produces its token. `stage` counts its progress and `aux` names its message, grant or claim; `ans` is
its result once produced; `nul` says it was nullified (R196). -/
structure Op where
  i : Instr
  slot : Nat
  lsid : Option Nat
  a : Tok
  b : Tok
  c : Tok
  parts : List Part
  ans : Option Tok
  stage : Nat
  aux : Nat
  nul : Bool
  deriving DecidableEq, Repr

/-- A translation failure held for the fault record (R37 to R39); `lsid` is 0 and `kind` 3 for a fetch. -/
structure XFail where
  lsid : Nat
  page : Nat
  cause : Nat
  kind : Nat
  level : Nat
  deriving DecidableEq, Repr

/-- A fault a block holds until it is the oldest and nothing of it can fire (R416): class, `efault`, the LSID if the
instruction has one, and the slot. -/
structure Held where
  cls : Nat
  efault : Word
  lsid : Option Nat
  slot : Nat
  deriving DecidableEq, Repr

/-- An exit that fired (R199): number, destination, and the kind of branch (0 plain, 1 CALL or CALLI, 2 RET, 3 SCALL,
4 ERET) with the SCALL number. -/
structure Exit where
  num : Nat
  dest : VAddr
  kind : Nat
  arg : Nat
  deriving DecidableEq, Repr

/-- A block in flight (R165): its place in the thread's program order, address, mode and mapping; its chunks as they
arrive; its tokens; and everything it did that its commit performs. -/
structure Frame where
  seq : Nat
  addr : VAddr
  sup : Bool
  width : Nat
  /-- 0 fetching, 1 mapped, 2 committing (granted by the arbiter, its operations being performed). -/
  stage : Nat
  /-- The leader's block that this block of a following member copies (R171). -/
  lead : Option Nat
  /-- Chunks that have arrived: chunk 0 is the header (R183). -/
  chunks : Tab (List Slot32)
  /-- Chunks requested and not yet arrived: (chunk, message). -/
  missing : List (Nat × List Nat)
  poisoned : Bool
  /-- A refusal of R203: `efault` and whether its code is 0x00. -/
  refused : Option Word
  /-- Read entries whose value has not been sent yet (R164). -/
  unread : List Nat
  /-- Tokens that have arrived, by target (R193). -/
  toks : Tab Tok
  /-- Tokens on their way: (target, token) (R163). -/
  transit : List (Nat × Tok)
  /-- Slots that have fired, been nullified or resolved without firing (R195). -/
  fired : List Nat
  skipped : List Nat
  ops : List Op
  exit : Option Exit
  /-- The exit number predicted for it when its successor was fetched, if it was predicted (R257). -/
  pred : Option Nat
  fails : List XFail
  faults : List Held
  /-- Token collisions: code and low bits of `efault` (R205). -/
  colls : List (Nat × Nat)
  rsig : Sig
  wsig : Sig
  /-- The start number s0 (R109). -/
  s0 : Option Nat
  flags : Flags
  nfired : Nat
  l1miss : Nat
  /-- Value of `cyc` when the block was mapped (R182). -/
  cyc : Word
  deriving DecidableEq, Repr

/-- The pack state of a thread (R170): the leader's thread key for a member. -/
inductive Pack where
  | none
  | leader
  | following (leader : Nat)
  | stray (leader : Nat)
  | waiting (leader : Nat)
  deriving DecidableEq, Repr

/-- The special registers of a thread (R188). The read-only ones that other state holds (`clid`, `ctxid`, `cyc`) are
read from there. -/
structure Spec where
  fcr : Word
  conv : Word
  ftab : Word
  ftlen : Word
  srkey : Word
  thid : Word
  leash : Word
  jseed : Word
  /-- The fields of `tstat` that are storage: EPCHI, EXL, PSUP, SUP (R417). -/
  tstat : Word
  epc : Word
  ecause : Word
  efault : Word
  deriving DecidableEq, Repr

/-- What a thread still has to do after a drain of R99: the operations of the committing block that remain, or a
pre-emption. -/
inductive Post where
  /-- Nothing. -/
  | idle
  /-- A release of the committing block drains (R99, R100). -/
  | release
  /-- A pre-emption drains (R106, R423). -/
  | preempt
  deriving DecidableEq, Repr

/-- A thread (R160). -/
structure Thread where
  /-- THE MODEL'S OWN: what tells one thread from every other that ever ran, also after its number is used again (R324). -/
  ser : Nat
  /-- Running (true) or granted and not yet started (false). -/
  run : Bool
  ctx : Nat
  gen : Nat
  /-- Logical cluster (R177). -/
  lclu : Nat
  /-- Core width of blocks fetched from now on (R160, R167, R168). -/
  width : Nat
  pack : Pack
  g : Tab Word
  v : Tab Vec
  gdead : BitVec 128
  vdead : BitVec 64
  spec : Spec
  /-- The next block address: of the block that follows the last committed one. -/
  pc : VAddr
  /-- Blocks committed, by which a leader and its members name the same block (R172). -/
  pos : Nat
  /-- Blocks in flight, oldest first. -/
  frames : List Frame
  nextSeq : Nat
  /-- The block ordinal (R233). -/
  ord : Nat
  /-- Counters J, fabric and copy (R313, R363, R380). -/
  cnts : Nat × Nat × Nat
  /-- Latest status of a matrix job, fabric command and copy command by 256 × engine + id; 0 while it runs (R324). -/
  status : Tab Word
  fence : Option Sig
  /-- The scope of the fence that set the fence signature (R266). -/
  fenceScope : Nat
  /-- Recorded barrier arrivals: episode by 16 × scope + barrier (R277). -/
  arrive : Tab Nat
  /-- `cyc` at which the leash count started (R181). -/
  leash0 : Word
  /-- Arbiter squashes since the last commit (R110). -/
  arbSq : Nat
  /-- Whether the oldest block's replay runs locked (R110). -/
  lockNext : Bool
  ret : List VAddr
  perf : Tab Word
  /-- The pattern entry and its serial that a handler counts toward (R344). -/
  pat : Option (Nat × Nat)
  post : Post
  /-- Fetch is stopped by a pre-emption (R423). -/
  stop : Bool
  /-- REJOIN's limit and the cycle it began waiting (R174). -/
  rejoin : Option (Nat × Word)
  deriving DecidableEq, Repr

/-- A line in an L1 data cache (R45, R46): class (1 `.own`, 2 `.wt`, 3 `.si`), exclusive, dirty granules, data. -/
structure L1Line where
  line : Nat
  cls : Nat
  excl : Bool
  dirty : BitVec 4
  data : List Byte
  poison : BitVec 4
  deriving DecidableEq, Repr

/-- A grid (R159), without its threads. -/
structure Grid where
  /-- What the next-block predictor has seen (R257): block address, exit number, destination and branch kind. -/
  tbuf : List (VAddr × Nat × VAddr × Nat)
  /-- The lines of the L1, the most recently used last (R45). -/
  l1 : List L1Line
  /-- Block-cache lines and their data (R48). -/
  bc : Tab (List Byte)
  utlb : List Trans
  /-- Pending release signature (R98). -/
  pend : Sig
  /-- Arrived signature (R103). -/
  arrived : Sig
  /-- Write-through queue: stores sent and not acknowledged (R64). -/
  wtq : List Nat
  /-- Messages that hold a miss register (R62). -/
  mshr : List Nat
  /-- Messages that hold a fetch register (R48). -/
  fetchReg : List Nat
  /-- Messages that hold a write-back buffer entry (R64). -/
  wb : List Nat
  /-- Reserved for a COMPOSE of this thread (R167). -/
  held : Option Nat
  /-- Being removed from this thread's core: its key and its serial (R168). -/
  leaving : Option (Nat × Nat)
  /-- Context granted last by the arbiter on this grid (R109). -/
  lastCtx : Nat
  /-- The context that each of the 16 nodes served last (R180); 3 where none is listed. -/
  served : Tab Nat
  /-- Loads that the dependence predictor has recorded (R280): block address and slot. -/
  dep : List (VAddr × Nat)
  deriving DecidableEq, Repr

/-- The kinds of message in flight; each is moved on by the event of its kind. -/
inductive MKind where
  | ownLoad | ownership | wtSiLoad | ucLoad | wtUcStore | siWb | ownWb | atomic | evict | dogUpdate
  | vault | engOwn | engWrite | engRead | recall | recallAck | reply | ack
  /-- A write of a block that may commit but for a hold, a reservation or an ownership that stands in its way: it waits at its home or
  vault in its place (R71, R85, R92); also a stream that waits to open. -/
  | waiter
  | bisnp | grantReq | grantStatus | deliver | spawnReq | spawnAns | startNotice | freedNotice | closeNotice
  deriving DecidableEq, Repr

/-- Who sent a request. -/
inductive Src where
  /-- A grid's access: thread, block and slot, and the part of the access. -/
  | acc (thr seq slot part : Nat)
  /-- A grid's own traffic with nothing waiting in a block (an eviction, a prefetch, a discarded block's request). -/
  | grid (g : Nat)
  /-- A committed store or line operation of a thread. -/
  | store (g thr : Nat)
  /-- A table-entry read or update of the Retriever: die and walk. -/
  | walk (die idx : Nat)
  /-- A block-cache miss. -/
  | fetch (g thr seq chunk : Nat)
  /-- A proxy slice's request for its die (R94). -/
  | proxy (die : Nat)
  /-- An engine: cluster, unit (0 copy, 1 matrix, 2 fabric) and command id in its unit. -/
  | eng (clu unit cmd : Nat)
  /-- A host port or peer. -/
  | ext (agent : Nat)
  /-- The Sheepdog. -/
  | dog
  deriving DecidableEq, Repr

/-- A join-unit message (R327) with the arrival number of R331. -/
structure PMsg where
  words : List Word
  tag : Nat
  tagged : Bool
  sender : Nat
  arr : Nat
  deriving DecidableEq, Repr

/-- A message in flight. The fields that a kind does not use hold zeros and empty lists. -/
structure Msg where
  kind : MKind
  src : Src
  ctx : Nat
  gen : Nat
  /-- Physical address of the first byte named. -/
  pa : Nat
  len : Nat
  data : List (Option Byte)
  /-- Class and scope of the access (R25, R115). -/
  cls : Nat
  scope : Nat
  /-- Full/empty qualifier: 0 none, 1 `.fe`, 2 `.fec` or `.fs` (R69); for an atomic, its operation. -/
  sub : Nat
  /-- Whether the access writes. -/
  wr : Bool
  /-- Second operand of an atomic (ACAS: new value), or a spawn argument. -/
  arg : Nat
  sig : Option Sig
  /-- The signatures a reply carries, one for each granule of its line or its one granule (R101). -/
  sigs : List Sig
  /-- What a recall takes: 1 tracked copies, 2 self-managed copies, 3 both. -/
  takes : Nat
  /-- The node that serves it: 0 the home, die + 1 a proxy, 9 + cluster a vault or join unit. -/
  node : Nat
  /-- 0 on its way, 1 arrived and waiting, 2 recalling, 3 returned by a full wait list. -/
  st : Nat
  /-- Message this one answers or serves; agent a recall goes to. -/
  par : Nat
  agent : Nat
  /-- The value of the cluster's `cyc` when it began to wait (R272). -/
  t0 : Word
  port : Nat
  pm : Option PMsg
  poison : BitVec 4
  /-- The region byte of the virtual address that named a vault access (R54); 0 for any other. -/
  via : Nat
  /-- An access of a no-allocate page (R47). -/
  noAlloc : Bool
  /-- For a request that shares the miss register of an earlier one of its instruction (R62): the message that took it. -/
  grp : Option Nat
  deriving DecidableEq, Repr

/-- Directory states (R89). -/
inductive DSt where
  | i | s | e | eo
  deriving DecidableEq, Repr

/-- A set of agent ids: up to four exactly, or coarse by cluster and die (R90). -/
inductive ASet where
  | exact (ids : List Nat)
  | coarse (clusters dies : List Nat)
  deriving DecidableEq, Repr

/-- A directory entry (R89) of a home or of a proxy; `up` is the state a proxy holds from the home (R94). -/
structure Dir where
  st : DSt
  own : ASet
  self : ASet
  owner : Nat
  up : DSt
  deriving DecidableEq, Repr

/-- A hold on a vault granule (R68): a block's, with its pending effect on the bit, or an engine command's. -/
inductive Hold where
  | block (thr seq : Nat) (setFull : Bool)
  | eng (clu unit cmd : Nat)
  deriving DecidableEq, Repr

/-- A reservation an atomic placed (R271): its block and slot, and the write it will make. -/
structure Resv where
  thr : Nat
  seq : Nat
  slot : Nat
  pa : Nat
  data : List Byte
  deriving DecidableEq, Repr

/-- A signature buffer (R101) of a slice or vault: entries by granule, the least recently installed first; the overflow
signature and how many entries it absorbed. -/
structure SigBuf where
  ents : List (Nat × Sig)
  ovf : Sig
  absorbed : Nat
  deriving DecidableEq, Repr

/-- A walk (R33) for a key, with the clusters that wait for it and the level it reads next. -/
structure Walk where
  ctx : Nat
  gen : Nat
  page : Nat
  lvl : Nat
  base : Nat
  w : Bool
  x : Bool
  p : Bool
  clus : List Nat
  /-- The leaf entry read, and 1 if the update sets D, while the A or D update is at its home (R27). -/
  leaf : Option (Nat × Nat)
  /-- The read or update that is outstanding. -/
  msg : Option Nat
  /-- Whether a store asked (set D), and the clusters from which an access other than a prefetch did (R28). -/
  setD : Bool
  real : List Nat
  deriving DecidableEq, Repr

/-- A die: its shared TLB, Retriever, walk caches, remote filter and error counters. -/
structure Die where
  stlb : List Trans
  walks : Tab Walk
  /-- Walk-cache entries: (context, level, VA bits above the level's index) and the entry (R35). -/
  wcache : List ((Nat × Nat × Nat) × Nat)
  /-- Lines held beyond the package: holders and whether exclusively (R112). -/
  filter : Tab (List Nat × Bool)
  errs : Tab Nat
  deriving DecidableEq, Repr

/-- A miss that waits for a walk (R33, R34): its key, and whether it is a store's or a prefetch's. -/
structure Miss where
  ctx : Nat
  gen : Nat
  page : Nat
  setD : Bool
  pref : Bool
  /-- 0 new, 1 in the miss queue, 2 in a walk. -/
  st : Nat
  deriving DecidableEq, Repr

/-- A history entry of the commit arbiter (R108). -/
structure Hist where
  seq : Nat
  core : Nat
  sig : Sig
  deriving DecidableEq, Repr

/-- A port (R329, R330, R336). -/
structure Port where
  owner : Nat
  en : Bool
  open_ : Bool
  pol : Nat
  klim : Nat
  drops : Nat
  res : List PMsg
  /-- Resident slots granted and not filled, Kennel entries granted and not filled: grant message ids. -/
  granted : List Nat
  kgranted : List Nat
  /-- Requests waiting under BLOCK, oldest first. -/
  waiting : List Nat
  sig : Sig
  deriving DecidableEq, Repr

/-- A pattern (R337) with its captured target, its running count and its serial. -/
structure Pat where
  owner : Nat
  en : Bool
  mask : Word
  ctl : Word
  target : VAddr
  running : Nat
  serial : Nat
  last : Nat
  deriving DecidableEq, Repr

/-- The Kennel of a cluster (R332): size in entries, head and tail, and the messages in it by entry. -/
structure Kennel where
  size : Nat
  head : Nat
  tail : Nat
  ents : Tab (Nat × PMsg)
  deriving DecidableEq, Repr

/-- A spawn request (R400) at its allocator: what it asks, what it will create, and how far it has come. -/
structure Spawn where
  ctx : Nat
  gen : Nat
  entry : VAddr
  arg : Word
  desc : Word
  pack : Bool
  /-- The thread that asked, its block and slot, and the parent's registers that the child takes (R396). -/
  thr : Nat
  seq : Nat
  slot : Nat
  parent : Spec
  /-- The threads (home first) it was granted; empty while it waits. -/
  got : List Nat
  firm : Bool
  sig : Sig
  deriving DecidableEq, Repr

/-- A granted handler that has not begun its fetch (R342, R343). -/
structure Handler where
  thr : Nat
  sig : Sig
  deriving DecidableEq, Repr

/-- A slot name of a context on a logical cluster (R299, R300). -/
structure SlotName where
  ser : Nat
  claimed : Bool
  pair : Bool
  shaped : Bool
  rows : Nat
  cols : Nat
  fmt : Nat
  /-- Physical slots on the cluster where it stands; none when it was taken (R427). -/
  phys : Option (Nat × Nat)
  deriving DecidableEq, Repr

/-- A physical slot of operand memory: its owner (context, logical cluster, name), DIRTY and last use (R307, R427). -/
structure Phys where
  owner : Option (Nat × Nat × Nat)
  dirty : Bool
  last : Nat
  deriving DecidableEq, Repr

/-- What an engine command captured at its issue (R223) and who issued it. -/
structure Capture where
  thr : Nat
  /-- The serial of the thread that issued it, by which its status finds that thread (R324). -/
  uid : Nat
  ctx : Nat
  gen : Nat
  lclu : Nat
  id : Nat
  fcr : Word
  key : Word
  ord : Nat
  slot : Nat
  /-- Whether the issuing block ran in supervisor mode (R24). -/
  sup : Bool
  deriving DecidableEq, Repr

/-- The piece of an engine command's access that lies in one line: `off` is its place in the command's data. `st` is 0 to do,
2 asked for and 1 done; `poison` has a bit for each granule of the line. -/
structure Seg where
  pa : Nat
  off : Nat
  len : Nat
  kind : Nat
  /-- The class it is performed with (R25); 5 on a device page. -/
  cls : Nat
  dst : Bool
  st : Nat
  data : List Byte
  poison : BitVec 4
  deriving DecidableEq, Repr

/-- The memory side of an engine command (R83 to R87): its progress, the pieces it reads and writes, its messages
outstanding, the lines of translated space it owns, and what its completion reports. -/
structure Eng where
  st : Nat
  segs : List Seg
  out : List Nat
  owned : List Nat
  fl : Flags
  xf : Option Nat
  pz : Bool
  /-- Pages it waits for, and the failures of walks it has been given: page and cause (R29, R31). -/
  asked : List Nat
  nope : List (Nat × Nat)
  deriving DecidableEq, Repr

/-- A command that has not begun. -/
def Eng.mk0 : Eng := { st := 0, segs := [], out := [], owned := [], fl := 0#6, xf := none, pz := false, asked := [], nope := [] }

/-- A matrix job, move or read in the engine (R310 to R314): `shapes` are the slot names it uses, in the order of its
roles, with the table entry in force when it was issued and the physical slots that stand for it now; `seq` is its block. -/
structure MJob where
  i : Instr
  cap : Capture
  grid : Nat
  place : Nat
  a : Word
  b : Tok
  c : Word
  shapes : List (Nat × SlotName)
  seq : Nat
  eng : Eng
  deriving DecidableEq, Repr

/-- A fabric command (R360 to R364), in the same form. -/
structure FCmd where
  i : Instr
  cap : Capture
  place : Nat
  a : Word
  b : Word
  c : Word
  layers : Nat
  nctx : Bool
  nv : Bool
  eng : Eng
  deriving DecidableEq, Repr

/-- A copy command (R380 to R384): elements done, portions paid for, and its progress. -/
structure CCmd where
  i : Instr
  cap : Capture
  place : Nat
  a : Word
  b : Tok
  c : Tok
  portions : Nat
  done : Nat
  eng : Eng
  deriving DecidableEq, Repr

/-- A tile in staging (R78): its number, its bytes, and what its read met (R388): the cause of the first failure, and its
poisoned granules. -/
structure Tile where
  t : Nat
  bytes : List Byte
  xf : Option Nat
  bad : List Nat
  deriving DecidableEq, Repr

/-- A branch of a stream at the producing engine (R76): tiles started, the producer's copy of the slots freed, tiles completed,
S, and where the ring lies. A tile in `run` is started and not complete: 0 its holds are asked for, 1 its bytes are on their
way, 2 they have landed, 3 + n its message n waits for room. A cluster of another package stands in `clu` and `vaults` as
1024 × (its package + 1) + its number. -/
structure Branch where
  clu : Nat
  ent : Nat
  w : Nat
  f : Nat
  c : Nat
  s : Nat
  nv : Nat
  base : Nat
  vaults : List Nat
  port : Option Nat
  run : List (Nat × Tile)
  deriving DecidableEq, Repr

/-- A stream at its producing engine (R75, R78). `xf` and `pz` are the sticky flags of the tiles that went to other packages, whose entries
are not here. -/
structure Stream where
  cmd : CCmd
  branches : List Branch
  read : Nat
  total : Nat
  staging : List Tile
  closing : Bool
  xf : Option Nat
  pz : Bool
  deriving DecidableEq, Repr

/-- A stream-table entry of a consumer cluster (R390). -/
structure SEnt where
  ctx : Nat
  w : Nat
  c : Nat
  f : Nat
  base : Nat
  cause : Nat
  pz : Bool
  xf : Bool
  prod : Nat
  port : Nat
  ntf : Bool
  zl : Nat
  nvl : Nat
  sm1 : Nat
  br : Nat
  st : Nat
  vc : Word
  deriving DecidableEq, Repr

/-- A fabric context slot (R355): NC, LOADED and the records. -/
structure FSlot where
  nc : Nat
  loaded : Bool
  cells : List Nat
  deriving DecidableEq, Repr

/-- The lookup-cell fabric of a cluster (R354 to R359). A wire not listed holds a free value of `epoch`. -/
structure Fabric where
  owner : Nat
  p : Tab (BitVec 256)
  n : Tab (BitVec 256)
  c : Tab (BitVec 256)
  slots : Tab FSlot
  sel : Nat
  layers : Nat
  epoch : Nat
  q : List FCmd
  deriving DecidableEq, Repr

/-- A cluster, without its grids and threads (R159). -/
structure Clu where
  /-- The commit arbiter (R108, R109): C, the history, the grid granted last, and the locked thread (R110). -/
  seqC : BitVec 32
  hist : List Hist
  lastGrid : Nat
  lock : Option (Nat × Nat)
  tlb : List Trans
  misses : List Miss
  /-- The cluster-map cache of 64 entries, the one used last at the end: context, logical cluster and entry (R178). -/
  mapc : List (Nat × Nat × Nat)
  ports : Tab Port
  pats : Tab Pat
  ptr : Tab Nat
  arr : Nat
  kennel : Kennel
  handlers : List Handler
  spawns : Tab Spawn
  nextSpawn : Nat
  lastGrant : Tab Nat
  phys : Tab Phys
  /-- A slot save in progress: physical slot and the claim that waits (R307, R427). -/
  saving : List Nat
  place : Nat
  jobs : List MJob
  moves : List MJob
  /-- The job each pipe runs, by its place: compute, transfer (R314). -/
  pipeC : Option Nat
  pipeT : Option Nat
  pick : Tab (Nat × Nat)
  /-- Queue and buffer entries reserved by a block: (unit, thread, seq, count); units 0 jobs, 1 moves, 2 fabric, 3 copy
  (R312, R363, R380). -/
  reserved : List (Nat × Nat × Nat × Nat)
  copyQ : List CCmd
  streams : List Stream
  stab : Tab SEnt
  fab : Fabric
  bucket : Nat
  lastTok : Nat
  deriving DecidableEq, Repr

/-- What the Sheepdog keeps of a saved thread beside its record (R424): its logical cluster, the pattern entry its handler counts
toward, and its serial. -/
structure Saved where
  lclu : Nat
  pat : Option (Nat × Nat)
  ser : Nat
  deriving DecidableEq, Repr

/-- A slot table's and save state's owner: the context. Descriptor words 0 to 12 (R20, R177, R314, R338, R397, R419). -/
structure Ctx where
  /-- Assigned since module reset; alive; stopped clusters (pre-empted), by logical cluster (R423). -/
  alive : Bool
  words : List Word
  gen : Nat
  stopped : List Nat
  /-- THE MODEL'S OWN: the reason of a kill that waits for blocks of the context that the arbiter has granted (R117, R146). -/
  dying : Option Nat
  killReason : Option (Nat × Nat)
  /-- Slot names by 64 × logical cluster + name (R299). -/
  names : Tab SlotName
  /-- Saved threads by record number (R424). -/
  saved : Tab Saved
  /-- Fabric of a logical cluster whose contents were saved (R359). -/
  fabs : Tab Fabric
  /-- THE MODEL'S OWN: for a logical cluster whose map entry is not valid, the cluster where its vault contents, ports and stream entries
  still stand (R179). -/
  parked : Tab Nat
  deriving DecidableEq, Repr

/-- A barrier of a context (R277): arrivals, target, episode and the episode's signature; completed episodes keep their
signatures for the waiters. -/
structure Bar where
  count : Nat
  target : Nat
  episode : Nat
  sig : Sig
  past : Tab Sig
  deriving DecidableEq, Repr

/-- A management mailbox (R448). -/
structure Mbox where
  cmd : Nat
  args : Tab Word
  busy : Bool
  /-- THE MODEL'S OWN: the command in progress has begun. -/
  began : Bool
  result : Nat
  res : Tab Word
  /-- The DOE mailbox's last answer, its SPDM session and the link keys that IDE_KM has set (R437, R447), as numbers whose meaning the
  SPDM standard gives. -/
  doe : List Byte
  session : Nat
  ide : Nat
  deriving DecidableEq, Repr

/-- Bring-up states (R445). -/
inductive Bstate where
  | powered | loading | verified | ready | failed
  deriving DecidableEq, Repr

/-- The module: bring-up, identity, mailboxes, islands and pod (chapter 19). -/
structure Module where
  st : Bstate
  vbusy : Bool
  failc : Nat
  ign : Nat
  /-- LOCK owner: 0 free, 1 port A, 2 port B (R443). -/
  lock : Nat
  meas : BitVec 256
  svn : BitVec 16
  len : Nat
  win : List Host.Cell
  /-- A byte of the load window has an uncorrectable error (R446). -/
  winBad : Bool
  mboxes : Tab Mbox
  /-- Commands that wait, by port, in arrival order (R449). -/
  queue : List Nat
  pkg : Nat
  presence : Word
  /-- Island registers: FREQ, REFILL, THROT (R451). -/
  freq : Tab Nat
  refill : Tab Nat
  throt : Tab Nat
  /-- THE MODEL'S OWN: 256-cycle periods of each island whose refill has been made (R402). -/
  refills : Tab Nat
  power : Nat
  ioErr : Nat
  /-- Port-window posts waiting in the I/O die (R333). -/
  postq : List Nat
  /-- CXL-attached ranges configured by the Sheepdog: (offset, length) (R17). -/
  cxl : List (Nat × Nat)
  /-- A purge in progress: the units whose overflow was `all`, and the messages it waits for (R102). -/
  purge : Option (List Nat × List Nat)
  deriving DecidableEq, Repr

/-- Errors of storage (R65): a corrected one, counted at a place of its die's counters; an uncorrectable one in an L1 line's
granule, in a block-cache line, in a granule of a line that an L2 slice holds (node 0 the home's, die + 1 a proxy's), in a granule of
memory, in a 16-byte piece of operand memory, or in the load window (R446); or a CXL device that goes away (R58). -/
inductive MemErr where
  | corrected (die idx : Nat)
  | l1 (g line gran : Nat)
  | bc (g line : Nat)
  | l2 (node line gran : Nat)
  | gran (a : Nat)
  | piece (a : Nat)
  | window
  | device (i : Nat)
  deriving DecidableEq, Repr

/-- Inputs from outside that no row of the opcode table names. -/
inductive Input where
  /-- A read of the port window by an agent (R14). -/
  | windowRead (agent addr : Nat)
  /-- A BAR0 read of a system register through port 1 (A) or 2 (B) (R437, R439, R441). -/
  | barRead (port off : Nat)
  /-- A spawn request of a thread of another package (R400): `tag` names it in what follows. -/
  | spawn (pkg clu tag ctx : Nat) (pack : Bool) (entry : VAddr) (arg desc : Word) (parent : Spec)
  /-- Its block has committed; the signature is that of its release (R401, R407). -/
  | spawnFirm (clu tag : Nat) (sig : Sig)
  /-- Its block was discarded (R401). -/
  | spawnGone (clu tag : Nat)
  /-- F of a branch's consumer entry on another package, as its notice brings it (R81). -/
  | freed (clu cmd branch f : Nat)
  /-- A close of a branch by its consumer on another package (R391). -/
  | closed (clu cmd : Nat)
  /-- A stream of another package opens a branch here (R388), starts a tile in it (R388), completes one (R79), and frees the entry (R82). -/
  | opened (clu ent : Nat) (e : SEnt)
  | started (clu ent : Nat)
  | tileDone (clu ent : Nat) (xf : Option Nat) (pz : Bool)
  | ended (clu ent : Nat)
  /-- A message of another package's thread or engine asks a port for room, and is delivered once it has it (R331, R333, R349); the messages
  of one sender arrive in their order. -/
  | message (sender clu port ctx : Nat) (m : PMsg) (sig : Option Sig)
  /-- An arrival of another package's thread at a `.pod` barrier of a context (R277). -/
  | arrival (ctx bid target : Nat) (sig : Sig)
  /-- A TLBINV of another package's thread at scope `.pod`: of every page, or of those that hold an address (R32, R433). -/
  | tlbinv (ctx : Nat) (va : Option VAddr)
  deriving DecidableEq, Repr

/-- What moves next (R147: no order is promised beyond the rules). -/
inductive Move where
  /-- The instruction at a slot of a block of a thread fires. -/
  | fire (thr seq slot : Nat)
  /-- A step of the hardware, or an input from outside. -/
  | event (e : Instr)
  /-- An error of storage, an input from outside (R65). -/
  | upset (e : MemErr)
  /-- Another input from outside. -/
  | input (e : Input)
  /-- A free choice among the moves of the hardware, as for an empty agenda. -/
  | free
  deriving DecidableEq, Repr

/-- The state of the module. -/
structure State where
  /-- THE MODEL'S OWN: the moves that come next, first first; when empty, a free choice among the enabled ones. -/
  agenda : List Move
  /-- THE MODEL'S OWN: the instruction that `exec` fires: thread, block and slot. -/
  cur : Nat × Nat × Nat
  /-- THE MODEL'S OWN: the counter that free values and message ids take. -/
  fresh : Nat
  /-- Cycles of each island since module reset (R402). -/
  cyc : Tab Word
  /-- `cyc` of each grid (R1, R182); 0 where none is listed. -/
  gcyc : Tab Word
  mod : Module
  ctxs : Tab Ctx
  /-- All bytes of HBM, tier two and the vaults, by physical address (R17). -/
  mem : List Host.Cell
  /-- Poisoned granules, by address / 16 (R65). -/
  poison : List Nat
  /-- Full vault granules, by address / 16 (R66). -/
  full : List Nat
  holds : Tab Hold
  resvs : List Resv
  /-- Operand memory by 2 MiB × cluster + byte (R56). -/
  opmem : List Host.Cell
  /-- Poisoned 16-byte pieces of operand memory (R65), by address / 16. -/
  opoison : List Nat
  /-- Lines present in an L2 slice (R52), by node and line: in the home slice under node 0, in the proxy slice of die e under
node e + 1; from the least recently used position of the sets to the most recently used. -/
  l2 : List Nat
  dirs : Tab Dir
  /-- Requests waiting at their node, oldest first, by line (R92, R71). -/
  queues : Tab (List Nat)
  sigbufs : Tab SigBuf
  dies : Tab Die
  clus : Tab Clu
  grids : Tab Grid
  thrs : Tab Thread
  net : Tab Msg
  bars : Tab Bar
  deriving DecidableEq, Repr

/-! ### The values after reset

`State.reset` is the module after power-up: POWERED, every context gone (R445), every table at its reset value. A value
the manual does not give is a log entry's. -/

/-- A new thread's special registers before R396 fills them: the reset values the manual gives (R221, R236, R420), else
zero. -/
def Spec.reset : Spec :=
  { fcr := fcrReset, conv := 0xFC000003F8#64, ftab := 0, ftlen := 0, srkey := 0, thid := 0, leash := 0x1000000#64,
    jseed := 0, tstat := 0, epc := 0, ecause := 0, efault := 0 }

/-- A thread before its creator fills it in (R396): every register dead and zero, the counters zero. So `dmask`, which reads the dead
groups, does not read zero, where R236 says that it holds zero at creation (log 123). -/
def Thread.reset : Thread :=
  { ser := 0, run := false, ctx := 0, gen := 0, lclu := 0, width := 1, pack := .none, g := [], v := [],
    gdead := BitVec.allOnes 128, vdead := BitVec.allOnes 64, spec := Spec.reset, pc := 0, pos := 0, frames := [],
    nextSeq := 0, ord := 0, cnts := (0, 0, 0), status := [], fence := none, fenceScope := 0, arrive := [], leash0 := 0,
    arbSq := 0, lockNext := false, ret := [], perf := [], pat := none, post := .idle, stop := false,
    rejoin := none }

/-- A grid after module reset: caches, TLB and pools empty, signatures empty. -/
def Grid.reset : Grid :=
  { tbuf := [], l1 := [], bc := [], utlb := [], pend := Sig.empty, arrived := Sig.empty, wtq := [], mshr := [],
    fetchReg := [], wb := [], held := none, leaving := none, lastCtx := 3,
    served := [], dep := [] }

/-- A port after module reset: unallotted and disabled (R329, R330). -/
def Port.reset : Port :=
  { owner := 0xFFF, en := false, open_ := false, pol := 0, klim := 0, drops := 0, res := [], granted := [],
    kgranted := [], waiting := [], sig := Sig.empty }

/-- A pattern after module reset: unallotted and disabled (R329, R337). -/
def Pat.reset : Pat :=
  { owner := 0xFFF, en := false, mask := 0, ctl := 0, target := 0, running := 0, serial := 0, last := 7 }

/-- The fabric after module reset: unallotted, no selection, no slot loaded (R354 to R356, R359). -/
def Fabric.reset : Fabric :=
  { owner := 0xFFF, p := [], n := [], c := [], slots := [], sel := 7, layers := 0, epoch := 0, q := [] }

/-- A cluster after module reset: C zero and grid 7 granted last (R108, R109), 64 tokens (log 20). -/
def Clu.reset : Clu :=
  { seqC := 0, hist := [], lastGrid := 7, lock := none, tlb := [], misses := [], mapc := [], ports := [], pats := [], ptr := [],
    arr := 0, kennel := ⟨0, 0, 0, []⟩, handlers := [], spawns := [], nextSpawn := 0, lastGrant := [], phys := [],
    saving := [], place := 0, jobs := [], moves := [], pipeC := none, pipeT := none, pick := [], reserved := [],
    copyQ := [], streams := [], stab := [], fab := Fabric.reset, bucket := 64, lastTok := 6 }

/-- A die after module reset. -/
def Die.reset : Die := { stlb := [], walks := [], wcache := [], filter := [], errs := [] }

/-- A mailbox after module reset (R448). -/
def Mbox.reset : Mbox := { cmd := 0, args := [], busy := false, began := false, result := 0, res := [], doe := [], session := 0, ide := 0 }

/-- The module after power-up (R442, R443, R445): LOCK free, MEAS, SVN, FAIL and IGN zero. -/
def Module.reset : Module :=
  { st := .powered, vbusy := false, failc := 0, ign := 0, lock := 0, meas := 0, svn := 0, len := 0, win := [], winBad := false,
    mboxes := [], queue := [], pkg := 0, presence := 1, freq := [], refill := [], throt := [],
    refills := [], power := 5200, ioErr := 0, postq := [], cxl := [], purge := none }

/-- The machine after power-up (R445): no contexts, no threads, nothing in flight; every full/empty bit empty (R66);
memory undefined there, read as zero here (log 1). -/
def State.reset : State :=
  { agenda := [], cur := (0, 0, 0), fresh := 0, cyc := [], gcyc := [], mod := Module.reset, ctxs := [], mem := [], poison := [],
    full := [], holds := [], resvs := [], opmem := [], opoison := [], l2 := [], dirs := [], queues := [], sigbufs := [], dies := [],
    clus := [], grids := [], thrs := [], net := [], bars := [] }

end Sys2Proof.Machine
end

