-- ==== Sys2Proof/Machine/Base.lean ====
section
/-! DEFINITION. The plumbing of the state: sparse tables, byte memory in its canonical form, signatures (R96), physical
addresses and homes (R17, R50, R51), and the accessors of clusters, grids, threads and messages. -/

namespace Sys2Proof.Machine

/-! ### Sparse tables -/

/-- The entry of a key. -/
def tget {α : Type} : Tab α → Nat → Option α
  | [], _ => none
  | (k, v) :: r, a => if k = a then some v else tget r a

/-- Set the entry of a key, keeping the keys rising. -/
def tset {α : Type} : Tab α → Nat → α → Tab α
  | [], a, x => [(a, x)]
  | (k, v) :: r, a, x =>
    if a < k then (a, x) :: (k, v) :: r
    else if a = k then (a, x) :: r
    else (k, v) :: tset r a x

/-- Remove the entry of a key. -/
def tdel {α : Type} : Tab α → Nat → Tab α
  | [], _ => []
  | (k, v) :: r, a => if k = a then r else (k, v) :: tdel r a

/-- Rising keys, all above `lo`. -/
def keysFrom {α : Type} : Option Nat → Tab α → Bool
  | _, [] => true
  | lo, (k, _) :: r => lo.all (· < k) && keysFrom (some k) r

/-- The canonical form of a table: strictly rising keys. -/
def tabWf {α : Type} (t : Tab α) : Bool := keysFrom none t

/-! ### Memory -/

/-- Byte `i` of a physical address space word: fields of a 56-bit physical address (R17). -/
def paPkg (pa : Nat) : Nat := field pa 55 50
/-- The kind of a physical address: 0 HBM, 1 tier two, 2 vault, 3 system (R17). -/
def paKind (pa : Nat) : Nat := field pa 49 48
/-- The offset of a physical address within its kind (R17). -/
def paOff (pa : Nat) : Nat := field pa 47 0
/-- An address of CXL-attached memory (R17). -/
def isCxl (pa : Nat) : Bool := paKind pa == 1 && 0x10000000000 ≤ paOff pa

/-- What an address that no write has named reads as: RAM after reset is undefined (R66, R445) and reads zero here (log
1); a CXL-attached device holds what it holds (log 11). -/
def unlisted (pa : Nat) : Byte := if isCxl pa then Config.cxlByte pa else 0

/-- The byte at an address. -/
def mget (m : List Host.Cell) (a : Nat) : Byte := (tget m a).getD (unlisted a)

/-- Write one byte, keeping the canonical form. -/
def mput (m : List Host.Cell) (a : Nat) (b : Byte) : List Host.Cell :=
  if b = unlisted a then tdel m a else tset m a b

/-- The canonical form of memory: rising addresses, and no entry equal to what an unlisted address reads as. -/
def Memory.wf (m : List Host.Cell) : Bool := tabWf m && m.all fun c => c.2 != unlisted c.1

/-- `n` bytes from an address (R4: little-endian). -/
def mread (m : List Host.Cell) (a : Nat) : Nat → List Byte
  | 0 => []
  | n + 1 => mget m a :: mread m (a + 1) n

/-- Write bytes from an address. -/
def mwrite (m : List Host.Cell) (a : Nat) : List Byte → List Host.Cell
  | [] => m
  | b :: r => mwrite (mput m a b) (a + 1) r

/-- Write the bytes that are present, from an address. -/
def mwriteOpt (m : List Host.Cell) (a : Nat) : List (Option Byte) → List Host.Cell
  | [] => m
  | some b :: r => mwriteOpt (mput m a b) (a + 1) r
  | none :: r => mwriteOpt m (a + 1) r

/-- The number that little-endian bytes spell (R4). -/
def leNat : List Byte → Nat
  | [] => 0
  | b :: r => b.toNat + 256 * leNat r

/-- The `n` little-endian bytes of a number (R4). -/
def leBytes : Nat → Nat → List Byte
  | 0, _ => []
  | n + 1, x => BitVec.ofNat 8 x :: leBytes n (x / 256)

/-- The 64-bit word at an address of memory. -/
def mword (m : List Host.Cell) (a : Nat) : Nat := leNat (mread m a 8)

/-- The line of an address: PA[55:6] (R44). -/
def lineOf (pa : Nat) : Nat := pa / 64
/-- The granule of an address (R44). -/
def granOf (pa : Nat) : Nat := pa / 16

/-- The granules that `n` bytes from an address touch. -/
def gransOf (pa n : Nat) : List Nat :=
  (List.range ((pa + n + 15) / 16 - pa / 16)).map (pa / 16 + ·)

/-! ### Homes and places -/

/-- The home die of a line of translated space (R50). -/
def homeDie (pa : Nat) : Nat := if paKind pa = 0 then field pa 39 37 else (field pa 15 13) ^^^ (field pa 24 22)

/-- XOR of the 6-bit fields of pa[55:6] (R51). -/
def homeSlice (pa : Nat) : Nat :=
  (List.range 9).foldl (fun f i => f ^^^ (((pa % 2 ^ 56) >>> (6 + 6 * i)) % 64)) 0

/-- The die of a cluster key. -/
def dieOf (clu : Nat) : Nat := clu / 80
/-- The cluster key of a grid key, and of a thread key. -/
def cluOfGrid (g : Nat) : Nat := g / 8
/-- The grid key of a thread key: its home grid (R160). -/
def gridOfThr (k : Nat) : Nat := k / 4
/-- The cluster key of a thread key. -/
def cluOf (k : Nat) : Nat := k / 32
/-- The island of a cluster (R451). -/
def islandOf (clu : Nat) : Nat := 2 * (clu / 80) + (if clu % 80 < 40 then 0 else 1)

/-- The physical address of a byte of a cluster's vault (R17). -/
def vaultPa (pkg clu off : Nat) : Nat :=
  pkg * 2 ^ 50 + 2 ^ 49 + (clu / 80) * 2 ^ 30 + (clu % 80) * 2 ^ 23 + off

/-- The cluster key of a vault address (R17). -/
def vaultClu (pa : Nat) : Nat := 80 * field pa 32 30 + field pa 29 23

/-- The node that is the home of an address: 0 an L2 home, 9 + cluster a vault. -/
def homeNode (pa : Nat) : Nat := if paKind pa = 2 then 9 + vaultClu pa else 0

/-- The key of a line at a node. -/
def nodeKey (node line : Nat) : Nat := node * 2 ^ 50 + line

/-- Whether a device answers an offset of tier two beyond the module's own memory (R17, R58). -/
def cxlAt (cxl : List (Nat × Nat)) (off : Nat) : Bool := cxl.any fun r => r.1 ≤ off && off < r.1 + r.2

/-- Whether an address of a kind is populated (R17, R18). -/
def populated (cxl : List (Nat × Nat)) (pa : Nat) : Bool :=
  match paKind pa with
  | 0 => paOff pa ≤ 0xFFFFFFFFFF
  | 1 => paOff pa ≤ 0xEE6B27FFFF || (isCxl pa && cxlAt cxl (paOff pa))
  | 2 => field pa 47 33 = 0 && field pa 29 23 ≤ 79
  | _ => false

/-- The memory behind a home (R57, R58): an HBM stack of the home die, the module's own LPDDR, a CXL-attached device, or the
package that owns the address. -/
inductive MemUnit where
  | hbm (die stack : Nat)
  | lpddr
  | cxl (off : Nat)
  | package (pkg : Nat)
  deriving DecidableEq, Repr

/-- The stack of a die that holds a line of HBM: the two are interleaved at 1 KiB (R57). -/
def hbmStack (pa : Nat) : Nat := (field pa 10 10 ^^^ field pa 17 17) ^^^ field pa 24 24

/-- Where a miss of an L2 home goes (R57, R58). -/
def memUnit (pkg pa : Nat) : MemUnit :=
  if paPkg pa != pkg then .package (paPkg pa)
  else if paKind pa = 0 then .hbm (homeDie pa) (hbmStack pa)
  else if isCxl pa then .cxl (paOff pa) else .lpddr

/-- Whether a memory answers (R58, R440): a device or a package may have gone away. -/
def memAnswers (m : Module) : MemUnit → Bool
  | .hbm _ _ => true
  | .lpddr => true
  | .cxl off => cxlAt m.cxl off
  | .package p => m.presence.getLsbD p

/-! ### Signatures (R96) -/

/-- Rotate an 8-bit value left. -/
def rot8 (x n : Nat) : Nat := ((x <<< n) ||| (x >>> (8 - n))) % 256

/-- The rotation amounts of SigHash. -/
def sigRot : List (List Nat) :=
  [[0, 1, 2, 3, 4, 5, 6], [1, 4, 7, 2, 5, 0, 3], [2, 7, 4, 1, 6, 3, 0], [3, 2, 1, 0, 7, 6, 5]]

/-- SigHash of a line for bank `k` (R96). -/
def sigHash (k line : Nat) : Nat :=
  ((sigRot.getD k []).zipIdx.map fun rj => rot8 ((line >>> (8 * rj.2)) % 256) rj.1).foldl (· ^^^ ·) 0

/-- The mask of the four bits a line sets. -/
def sigBits (line : Nat) : BitVec 1024 :=
  (List.range 4).foldl (fun m k => m ||| BitVec.ofNat 1024 (2 ^ (256 * k + sigHash k line))) 0

/-- SigInsert (R96). -/
def Sig.insert (x : Sig) (line : Nat) : Sig :=
  let bs := x.bits ||| sigBits line
  if bs = x.bits then x
  else
    let n := Nat.min (x.count + 1) 0xFFFF
    ⟨bs, n, x.all || 255 < n⟩

/-- SigMatch (R96). -/
def Sig.has (x : Sig) (line : Nat) : Bool := x.all || x.bits &&& sigBits line == sigBits line

/-- Whether a signature is empty (R96). -/
def Sig.isEmpty (x : Sig) : Bool := x == Sig.empty

/-- SigMeet (R96). -/
def Sig.meet (x y : Sig) : Bool :=
  (x.all && !y.isEmpty) || (y.all && !x.isEmpty) ||
  (List.range 4).all fun k => Sys2Proof.bits x.bits (256 * k) 256 &&& Sys2Proof.bits y.bits (256 * k) 256 != 0#256

/-- SigOr (R96). -/
def Sig.or (x y : Sig) : Sig :=
  let n := Nat.min (x.count + y.count) 0xFFFF
  ⟨x.bits ||| y.bits, n, x.all || y.all || 255 < n⟩

/-- OR of a list of signatures. -/
def Sig.ors (l : List Sig) : Sig := l.foldl Sig.or Sig.empty

/-- The image of a signature (R97): 0x88 bytes. -/
def Sig.image (x : Sig) : List Byte :=
  leBytes 128 x.bits.toNat ++ leBytes 8 (x.count + if x.all then 0x10000 else 0)

/-- The signature an image holds (R97). -/
def Sig.ofImage (l : List Byte) : Sig :=
  let w := leNat (l.drop 128)
  ⟨BitVec.ofNat 1024 (leNat (l.take 128)), w % 65536, field w 16 16 == 1⟩

/-! ### Accessors -/

/-- A cluster, by key. -/
def State.clu (s : State) (c : Nat) : Clu := (tget s.clus c).getD Clu.reset
/-- Update a cluster. -/
def State.modClu (s : State) (c : Nat) (f : Clu → Clu) : State := { s with clus := tset s.clus c (f (s.clu c)) }
/-- A grid, by key. -/
def State.grid (s : State) (g : Nat) : Grid := (tget s.grids g).getD Grid.reset
/-- Update a grid. -/
def State.modGrid (s : State) (g : Nat) (f : Grid → Grid) : State := { s with grids := tset s.grids g (f (s.grid g)) }
/-- A die. -/
def State.die (s : State) (d : Nat) : Die := (tget s.dies d).getD Die.reset
/-- Update a die. -/
def State.modDie (s : State) (d : Nat) (f : Die → Die) : State := { s with dies := tset s.dies d (f (s.die d)) }
/-- A thread, by key: the context of a grid that holds one. -/
def State.thr (s : State) (k : Nat) : Option Thread := tget s.thrs k
/-- Put a thread. -/
def State.setThr (s : State) (k : Nat) (t : Thread) : State := { s with thrs := tset s.thrs k t }
/-- Update a thread, if it exists. -/
def State.modThr (s : State) (k : Nat) (f : Thread → Thread) : State :=
  match s.thr k with
  | some t => s.setThr k (f t)
  | none => s
/-- A message. -/
def State.msg (s : State) (n : Nat) : Option Msg := tget s.net n
/-- Put a message. -/
def State.setMsg (s : State) (n : Nat) (m : Msg) : State := { s with net := tset s.net n m }
/-- Remove a message. -/
def State.delMsg (s : State) (n : Nat) : State := { s with net := tdel s.net n }
/-- A context; one that was never assigned is not alive. -/
def State.ctx (s : State) (c : Nat) : Ctx :=
  (tget s.ctxs c).getD
    { alive := false, words := [], gen := 0, stopped := [], dying := none, killReason := none, names := [], saved := [], fabs := [],
      parked := [] }
/-- Update a context. -/
def State.modCtx (s : State) (c : Nat) (f : Ctx → Ctx) : State := { s with ctxs := tset s.ctxs c (f (s.ctx c)) }
/-- The cycle counter of a cluster's island (R402). -/
def State.cycOf (s : State) (clu : Nat) : Word := (tget s.cyc (islandOf clu)).getD 0
/-- `cyc` of a grid (R182). -/
def State.gridCyc (s : State) (g : Nat) : Word := (tget s.gcyc g).getD 0
/-- Update the module. -/
def State.modMod (s : State) (f : Module → Module) : State := { s with mod := f s.mod }

/-- The block of a sequence number among a thread's blocks in flight. -/
def Thread.frame (t : Thread) (q : Nat) : Option Frame := t.frames.find? (·.seq == q)
/-- Update one block. -/
def Thread.modFrame (t : Thread) (q : Nat) (f : Frame → Frame) : Thread :=
  { t with frames := t.frames.map fun x => if x.seq = q then f x else x }
/-- The blocks older than one, oldest first. -/
def Thread.older (t : Thread) (q : Nat) : List Frame := t.frames.takeWhile (·.seq != q)
/-- The oldest block in flight. -/
def Thread.oldest (t : Thread) : Option Frame := t.frames.head?
/-- Whether a block is the oldest in flight of its thread. -/
def Thread.isOldest (t : Thread) (q : Nat) : Bool := t.oldest.any (·.seq == q)
/-- Update one block of a thread. -/
def State.modFrame (s : State) (k q : Nat) (f : Frame → Frame) : State := s.modThr k (·.modFrame q f)
/-- The block of a thread. -/
def State.frame (s : State) (k q : Nat) : Option Frame := (s.thr k).bind (·.frame q)
/-- Whether a block is in flight. -/
def State.live (s : State) (k q : Nat) : Bool := (s.frame k q).isSome

/-- The grid of the core that slot `i` of a block lies on (R161, R162). -/
def slotGrid (home width i : Nat) : Nat :=
  let g := home % 8
  8 * (home / 8) + width * (g / width) + (i / 16) % width
/-- Grid 0 of a core (R161). -/
def coreGrid0 (home width : Nat) : Nat := 8 * (home / 8) + width * (home % 8 / width)
/-- The grids of a core (R161). -/
def coreGrids (home width : Nat) : List Nat := (List.range width).map (coreGrid0 home width + ·)

/-- `cyc` as a thread counts and reads it (R181, R182): of grid 0 of its core, for a member of a pack of its home grid. -/
def State.cycThr (s : State) (k : Nat) : Word :=
  match s.thr k with
  | none => s.gridCyc (gridOfThr k)
  | some t => s.gridCyc (match t.pack with
    | .following _ => gridOfThr k
    | .stray _ => gridOfThr k
    | .waiting _ => gridOfThr k
    | _ => coreGrid0 (gridOfThr k) t.width)

/-- An empty message of a kind. -/
def Msg.mk0 (kind : MKind) (src : Src) : Msg :=
  { kind := kind, src := src, ctx := 0, gen := 0, pa := 0, len := 0, data := [], cls := 0, scope := 0, sub := 0,
    wr := false, arg := 0, sig := none, sigs := [], takes := 0, node := 0, st := 0, par := 0, agent := 0, t0 := 0,
    port := 0, pm := none, poison := 0, via := 0, noAlloc := false, grp := none }

/-- Send a message: it takes the next number. -/
def State.send (s : State) (m : Msg) : State := { s.setMsg s.fresh m with fresh := s.fresh + 1 }

/-- A descriptor word of a context (R20, R177, R314, R338, R397, R419). -/
def Ctx.word (c : Ctx) (i : Nat) : Nat := (c.words.getD i 0).toNat
/-- PREFIX (R20). -/
def Ctx.pre (c : Ctx) : Nat := field (c.word 0) 15 0
/-- Expand(E) (R8). -/
def expand (pre : Nat) (e : Word) : Nat :=
  let n := e.toNat
  if field n 63 60 = 0xF then field n 63 56 * 2 ^ 72 + field n 55 0 else pre * 2 ^ 64 + n

/-- The map entry of a logical cluster as memory holds it (R178). -/
def mapWord (s : State) (c : Ctx) (n : Nat) : Nat := leNat (mread s.mem (field (c.word 3) 55 8 * 256 + 4 * n) 4)

/-- What an entry for logical cluster `n` says (R178): the package and the physical cluster key, or the refusal's code: 0x18 beyond
MAPLEN, 0x19 not valid. -/
def entrySays (c : Ctx) (n e : Nat) : Except Nat (Nat × Nat) :=
  if field (c.word 4) 15 0 ≤ n then .error 0x18
  else if field e 31 31 = 0 || 79 < field e 6 0 then .error 0x19
  else .ok (field e 15 10, 80 * field e 9 7 + field e 6 0)

/-- The map as the Sheepdog reads it (R178). -/
def mapCluster (s : State) (c : Ctx) (n : Nat) : Except Nat (Nat × Nat) := entrySays c n (mapWord s c n)

/-- The entry that a cluster finds: one of the 64 it caches, else that of memory (R178). -/
def mapFound (s : State) (clu ctx n : Nat) : Nat :=
  match (s.clu clu).mapc.find? fun e => e.1 == ctx && e.2.1 == n with
  | some e => e.2.2
  | none => mapWord s (s.ctx ctx) n

/-- The map of a context as a cluster finds it (R178). -/
def mapAt (s : State) (clu ctx n : Nat) : Except Nat (Nat × Nat) := entrySays (s.ctx ctx) n (mapFound s clu ctx n)

/-- A cluster caches the entry it has found, in place of the one not used for longest when it has 64 (R178; log 106). -/
def fillMap (s : State) (clu ctx n : Nat) : State :=
  if field ((s.ctx ctx).word 4) 15 0 ≤ n then s
  else
    let e := mapFound s clu ctx n
    s.modClu clu fun c =>
      let l := c.mapc.filter fun x => !(x.1 == ctx && x.2.1 == n)
      { c with mapc := l.drop (l.length - 63) ++ [(ctx, n, e)] }

/-- The Sheepdog flushes the clusters' caches as it changes a map (R178). -/
def flushMaps (s : State) : State := { s with clus := s.clus.map fun e => (e.1, { e.2 with mapc := [] }) }

/-- Whether a physical cluster is in a context's map (R13). -/
def inMap (s : State) (c : Ctx) (pkg clu : Nat) : Bool :=
  (List.range (field (c.word 4) 15 0)).any fun n =>
    match mapCluster s c n with
    | .ok (p, k) => p == pkg && k == clu
    | .error _ => false

/-- The logical cluster of a context that maps to a physical cluster of this package (R177, R178). -/
def logicalOf (s : State) (ctx clu : Nat) : Option Nat :=
  (List.range (field ((s.ctx ctx).word 4) 15 0)).find? fun n =>
    match mapCluster s (s.ctx ctx) n with
    | .ok (p, k) => p == s.mod.pkg && k == clu
    | .error _ => false

/-- Whether a context is running on a cluster: it is alive, the cluster is in its map, and it is not stopped there
(R340, R423), and not being killed. -/
def runningOn (s : State) (ctx clu : Nat) : Bool :=
  (s.ctx ctx).alive && (s.ctx ctx).dying.isNone && (logicalOf s ctx clu).any fun n => !(s.ctx ctx).stopped.contains n

end Sys2Proof.Machine
end

