-- ==== Sys2Proof/Machine/Xlate.lean ====
section
/-! DEFINITION. Address translation: the regions of the virtual map (R10 to R16), the TLBs (R30), the permission checks
(R24) and the checks of one table entry of a walk (R22, R23, R26, R36). -/

namespace Sys2Proof.Machine

/-- The outcome of looking an access up. `kind` is a place as `Part.kind` has it. -/
inductive Tr where
  | ok (pa cls kind : Nat) (d : Bool)
  | miss
  | fail (cause level : Nat)
  deriving DecidableEq, Repr

/-- What an access needs of a page (R24): 0 validity, 1 W, 2 X. -/
abbrev Need := Nat

/-- The page number of a virtual address: VA[79:16] (R34). -/
def pageOf (va : Nat) : Nat := (va / 2 ^ 16) % 2 ^ 64

/-- How many 64 KiB pages a leaf of a level maps, as a shift (R22). -/
def leafShift (lvl : Nat) : Nat := if lvl = 3 then 26 else if lvl = 4 then 13 else 0

/-- Whether a cached translation serves a page (R30). -/
def Trans.covers (e : Trans) (ctx page : Nat) : Bool :=
  e.ctx == ctx && e.page >>> leafShift e.lvl == page >>> leafShift e.lvl

/-- The translation of a page in the TLBs an access passes through (R30): micro-TLB, cluster TLB, shared TLB. -/
def tlbGet (s : State) (grid : Option Nat) (clu ctx page : Nat) : Option Trans :=
  let f := fun (l : List Trans) => l.find? (·.covers ctx page)
  (grid.bind fun g => f (s.grid g).utlb) <|> f (s.clu clu).tlb <|> f (s.die (dieOf clu)).stlb

/-- The set of a TLB that holds a translation: the low bits of the leaf's number (log 111; R30 gives no index). -/
def Trans.set (e : Trans) (sets : Nat) : Nat := (e.page >>> leafShift e.lvl) % sets

/-- Add a translation to a TLB of `sets` sets of `ways` ways, the most recent first: a full set gives up its oldest (R30). -/
def tlbAdd (sets ways : Nat) (e : Trans) (l : List Trans) : List Trans :=
  let rest := l.filter fun x => !(x.ctx == e.ctx && x.page == e.page && x.lvl == e.lvl)
  let out := ((rest.filter fun x => x.set sets == e.set sets).drop (ways - 1))
  e :: rest.filter fun x => !out.contains x

/-- Fill the levels a lookup passed through (R30): the cluster TLB and the grid's micro-TLB. -/
def tlbFill (s : State) (grid : Option Nat) (clu : Nat) (e : Trans) : State :=
  let s := s.modClu clu fun c => { c with tlb := tlbAdd 64 8 e c.tlb }
  match grid with
  | some g => s.modGrid g fun x => { x with utlb := tlbAdd 1 32 e x.utlb }
  | none => s

/-- The class a leaf's CLS gives (R23), as the class codes of R263 number them: 1 `.own`, 2 `.wt`, 3 `.si`, 4 `.uc`. -/
def leafCls (cls : Nat) : Nat := cls + 1

/-- A translation applied to an address (R24): privilege, then the write or fetch permission, then the populated-offset
and presence checks of the page (R18). R18 gives cause 0x5 the level of the leaf; that causes 0x1, 0x2 and 0x3 record it as
well is the model's choice (log 112). -/
def transApply (s : State) (e : Trans) (sup : Bool) (need : Need) (va : Nat) : Tr :=
  let sz := 2 ^ (16 + leafShift e.lvl)
  let pa := e.pa + va % sz
  if e.p && !sup then .fail 3 e.lvl
  else if need = 1 && !e.w then .fail 1 e.lvl
  else if need = 2 && !e.x then .fail 2 e.lvl
  else if !populated s.mod.cxl (pa / 2 ^ 16 * 2 ^ 16) || !s.mod.presence.getLsbD (paPkg pa) then .fail 5 e.lvl
  else .ok pa (leafCls e.cls) e.kind e.d

/-- The region checks and the lookup of one address (R10 to R13, R24, R472). `clu` is the executing cluster; a
translated address that no TLB holds misses. -/
def translate (s : State) (ctx : Nat) (sup : Bool) (grid : Option Nat) (clu : Nat) (need : Need) (va : Nat) : Tr :=
  let r := field va 79 72
  if r < 0xF0 then
    match tlbGet s grid clu ctx (pageOf va) with
    | some e => transApply s e sup need va
    | none => .miss
  else if 0xF3 ≤ r && r ≤ 0xFE then .fail 6 0
  else if need = 2 then .fail 2 0
  else if r = 0xF0 then
    if field va 71 23 != 0 then .fail 7 0 else .ok (vaultPa s.mod.pkg clu (field va 22 0)) 4 3 true
  else if r = 0xF1 then
    if field va 71 39 != 0 || 79 < field va 29 23 then .fail 7 0
    else
      let c := 80 * field va 32 30 + field va 29 23
      if !s.mod.presence.getLsbD (field va 38 33) || !inMap s (s.ctx ctx) (field va 38 33) c then .fail 8 0
      else .ok (vaultPa (field va 38 33) c (field va 22 0)) 4 3 true
  else if r = 0xF2 then .fail 7 0
  else if !sup then .fail 3 0
  else if field va 71 56 != 0 then .fail 7 0
  else .ok (va % 2 ^ 56) 4 4 true

/-- Whether `n` bytes from an effective address lie in one region, and in a vault window inside its offset field (R10, R16): the
reserved bytes 0xF3 to 0xFE are one region. -/
def oneRegion (e : Word) (n : Nat) : Bool :=
  let x := e.toNat
  if field x 63 60 != 0xF then x + n ≤ 0xF * 2 ^ 60
  else if field x 63 56 = 0xF0 || field x 63 56 = 0xF1 then field x 22 0 + n ≤ 2 ^ 23
  else if 0xF3 ≤ field x 63 56 && field x 63 56 ≤ 0xFE then x + n ≤ 0xFF * 2 ^ 56
  else field x 55 0 + n ≤ 2 ^ 56

/-! ### One table entry -/

/-- The index bits of a level (R22): how far VA is shifted, and how many entries. -/
def lvlShift (lvl : Nat) : Nat := 68 - 13 * (lvl - 1)
/-- The index of a page in the table of a level (R22). -/
def lvlIndex (page lvl : Nat) : Nat :=
  (page * 2 ^ 16 / 2 ^ lvlShift lvl) % (if lvl = 1 then 4096 else 8192)
/-- What a walk-cache entry of a level is tagged with: the virtual bits down to the level's index (R35). -/
def lvlTag (page lvl : Nat) : Nat := page * 2 ^ 16 / 2 ^ lvlShift lvl

/-- What one entry of a walk gives (R23, R36). -/
inductive Pte where
  | fail (cause : Nat)
  | table (base : Nat) (w x p : Bool)
  | leaf (t : Trans)
  deriving DecidableEq, Repr

/-- The checks of an entry at a level, with the permissions of the path so far (R22 to R24, R18, R40). -/
def pteCheck (s : State) (ctx page lvl e : Nat) (w x p : Bool) : Pte :=
  let base := field e 55 16 * 2 ^ 16
  let w := w && e.testBit 3
  let x := x && e.testBit 4
  let p := p || e.testBit 5
  if !e.testBit 0 then .fail 0
  else if field e 63 56 != 0 then .fail 4
  else if e.testBit 11 && lvl ≤ 2 || !e.testBit 11 && lvl == 5 then .fail 4
  else if !e.testBit 11 then .table base w x p
  else if 3 ≤ field e 10 8 || base % 2 ^ (16 + leafShift lvl) != 0 || 2 ≤ paKind base then .fail 4
  else if !populated s.mod.cxl base || !s.mod.presence.getLsbD (paPkg base) then .fail 5
  else .leaf { ctx := ctx, page := page >>> leafShift lvl <<< leafShift lvl, lvl := lvl, pa := base, w := w, x := x, p := p,
               kind := field e 10 8, cls := field e 7 6, d := e.testBit 2 }

/-- Whether the indivisible update of A and D still applies (R27): V, PA, L, KIND, P, X and W as when read. -/
def pteSame (old new : Nat) : Bool :=
  let key := fun (e : Nat) => (e.testBit 0, field e 55 16, field e 11 8, field e 5 3)
  key old == key new && new.testBit 0

end Sys2Proof.Machine
end

