-- ==== Sys2Proof/Machine/Home.lean ====
section
/-! DEFINITION. What a home does: the directory (R89 to R94), the order of requests at a line (R92), holds and the
full/empty bit at a vault (R66 to R71), reservations (R271), signature buffers (R101). A request waits in the queue of
its line (at a vault, of the vault) and is performed by `homeTry` or `vaultTry` as soon as nothing of the rules holds it
back; a pass examines the queue in arrival order. -/

namespace Sys2Proof.Machine

/-! ### What an instruction accesses -/

/-- The properties of an access: `kind` as the fault record numbers it (R39; 7 a prefetch), the class it names (0 the
leaf's), scope, ordering bits (bit 0 acquire, bit 1 release), FE, size in bytes and sign extension. -/
structure Acc where
  kind : Nat
  cls : Nat
  scope : Nat
  ord : Nat
  fe : Nat
  size : Nat
  sx : Bool
  deriving DecidableEq, Repr

/-- Bytes of a SIZE code (R263). -/
def memSize (x : BitVec 3) : Nat := if x = 4#3 then 64 else 2 ^ x.toNat

/-- A WMEM access. -/
def wmem (f : MemF) (kind : Nat) : Acc :=
  ⟨kind, f.cls.toNat, f.scope.toNat, f.ord.toNat, f.fe.toNat, memSize f.size, f.sx == 1#1⟩

/-- The access an instruction makes, if it makes one. -/
def accOf (i : Instr) : Option Acc :=
  match i with
  | .ldb _ => some ⟨0, 0, 0, 0, 0, 1, false⟩
  | .ldh _ => some ⟨0, 0, 0, 0, 0, 2, false⟩
  | .ldw _ => some ⟨0, 0, 0, 0, 0, 4, false⟩
  | .ldd _ => some ⟨0, 0, 0, 0, 0, 8, false⟩
  | .ldbs _ => some ⟨0, 0, 0, 0, 0, 1, true⟩
  | .ldhs _ => some ⟨0, 0, 0, 0, 0, 2, true⟩
  | .ldws _ => some ⟨0, 0, 0, 0, 0, 4, true⟩
  | .ldv _ => some ⟨0, 0, 0, 0, 0, 64, false⟩
  | .calli _ => some ⟨0, 1, 0, 0, 0, 16, false⟩
  | .stb _ => some ⟨1, 0, 0, 0, 0, 1, false⟩
  | .sth _ => some ⟨1, 0, 0, 0, 0, 2, false⟩
  | .stw _ => some ⟨1, 0, 0, 0, 0, 4, false⟩
  | .std _ => some ⟨1, 0, 0, 0, 0, 8, false⟩
  | .stv _ => some ⟨1, 0, 0, 0, 0, 64, false⟩
  | .ld f => some (wmem f 0)
  | .st f => some (wmem f 1)
  | .gather f => some (wmem f 4)
  | .scatter f => some (wmem f 5)
  | .pref f => some { wmem f 7 with fe := 0, size := 1 }
  | .lflush f => some { wmem f 6 with size := 1 }
  | .linv f => some { wmem f 6 with size := 1 }
  | .aadd f => some (wmem f 2)
  | .aand f => some (wmem f 2)
  | .aor f => some (wmem f 2)
  | .axor f => some (wmem f 2)
  | .amin f => some (wmem f 2)
  | .amax f => some (wmem f 2)
  | .aminz f => some (wmem f 2)
  | .amaxz f => some (wmem f 2)
  | .axchg f => some (wmem f 2)
  | .acas f => some (wmem f 2)
  | .afaddF32 f => some (wmem f 2)
  | .afaddBf16x2 f => some (wmem f 2)
  | _ => none

/-- The access of a tracked instruction that was not nullified. -/
def Op.acc (o : Op) : Option Acc := if o.nul then none else accOf o.i

/-- The parts of an instruction whose bytes a later load receives (R279): a store's or scatter's once it has fired, an
atomic's once it has replied. -/
def Op.stored (o : Op) : List Part :=
  match o.acc with
  | some x =>
    if x.kind = 1 || x.kind = 5 then o.parts
    else if x.kind = 2 && o.ans.isSome then o.parts
    else []
  | none => []

/-! ### Agents and sets (R90) -/

def ASet.empty : ASet := .exact []

/-- Insert into a list without repeats. -/
def addOnce (l : List Nat) (x : Nat) : List Nat := if l.contains x then l else l ++ [x]

/-- Add an agent to a coarse set: its cluster or its die; the remote filter is marked as die 8 (log 21). -/
def coarseAdd (cs ds : List Nat) (id : Nat) : ASet :=
  if id < 640 then .coarse (addOnce cs (id / 8)) ds else .coarse cs (addOnce ds (id - 640))

/-- Add an agent: a fifth makes the set coarse (R90). -/
def ASet.add (x : ASet) (id : Nat) : ASet :=
  match x with
  | .exact ids =>
    if ids.contains id then x
    else if ids.length < 4 then .exact (ids ++ [id])
    else (ids ++ [id]).foldl (fun a i => match a with | .coarse c d => coarseAdd c d i | .exact _ => a) (.coarse [] [])
  | .coarse cs ds => coarseAdd cs ds id

/-- The agents a recall of a set goes to (R90). -/
def ASet.members : ASet → List Nat
  | .exact ids => ids
  | .coarse cs ds => cs.flatMap (fun c => (List.range 8).map (8 * c + ·)) ++ ds.map (640 + ·)

/-- An entry of a line no copy of which exists (R89). -/
def Dir.none : Dir := { st := .i, own := .empty, self := .empty, owner := 0, up := .i }

/-- The directory entry of a line at a node. -/
def State.dir (s : State) (node line : Nat) : Dir := (tget s.dirs (nodeKey node line)).getD Dir.none
/-- Set a directory entry; an entry of state I is not kept. -/
def State.setDir (s : State) (node line : Nat) (d : Dir) : State :=
  { s with dirs := if d = Dir.none then tdel s.dirs (nodeKey node line) else tset s.dirs (nodeKey node line) d }

/-- The requests that wait at a node for a line (at a vault: for the vault). -/
def queueKey (node line : Nat) : Nat := if 9 ≤ node then nodeKey node 0 else nodeKey node line
/-- The queue of a key. -/
def State.queue (s : State) (key : Nat) : List Nat := (tget s.queues key).getD []
/-- Set a queue; an empty one is not kept. -/
def State.setQueue (s : State) (key : Nat) (l : List Nat) : State :=
  { s with queues := if l = [] then tdel s.queues key else tset s.queues key l }
/-- Take a request out of its queue. -/
def State.unqueue (s : State) (key n : Nat) : State := s.setQueue key ((s.queue key).filter (· != n))

/-! ### Data and signatures at a home -/

/-- Whether a line is homed on another package: node 0 then stands for this package's proxy of it, on die HomeDie (R95). -/
def State.foreign (s : State) (line : Nat) : Bool := paPkg (64 * line) != s.mod.pkg && paKind (64 * line) < 2

/-- Whether this module holds the bytes of a line: its own, or one that its proxy holds from another package (R95). -/
def State.holdsLine (s : State) (line : Nat) : Bool := paPkg (64 * line) = s.mod.pkg || (s.dir 0 line).up != .i

/-- The bytes a home or proxy reads; those of another package that are not held here are a free value (log 13). -/
def State.readHome (s : State) (pa n : Nat) : List Byte :=
  if s.holdsLine (lineOf pa) then mread s.mem pa n
  else (List.range n).map fun i => Config.remoteByte s.fresh (pa + i)

/-- The poison of a line that another package sends: a free value (log 13). -/
def freePoison (v line : Nat) : BitVec 4 := BitVec.ofNat 4 (Config.freeBits v (2 ^ 60 + line))

/-- The poison of a line's granules (R65): a device or package that cannot be reached answers poisoned data (R58, R440), and what
comes over a link from another package may be poisoned. -/
def State.linePoison (s : State) (line : Nat) : BitVec 4 :=
  if !memAnswers s.mod (memUnit s.mod.pkg (64 * line)) then 15#4
  else if !s.holdsLine line then freePoison s.fresh line
  else BitVec.ofNat 4 (((List.range 4).map fun i => if s.poison.contains (4 * line + i) then 2 ^ i else 0).foldl (· + ·) 0)

/-- The poison of a line after a merge of bytes from `pa` with poison bits `pz`: a granule written whole takes the
written poison, one written in part keeps its own as well (R65). -/
def mergePoison (old : List Nat) (pa : Nat) (data : List (Option Byte)) (pz : BitVec 4) : List Nat :=
  let line := lineOf pa
  (List.range 4).foldl (fun p i =>
    let g := 4 * line + i
    let bs := (List.range 16).map fun j => if 16 * g + j < pa then Option.none else (data.getD (16 * g + j - pa) Option.none)
    if bs.all (·.isSome) then (if pz.getLsbD i then addOnce p g else p.filter (· != g))
    else if bs.any (·.isSome) && pz.getLsbD i then addOnce p g else p) old

/-- Merge bytes into memory (R91, R93). -/
def State.merge (s : State) (pa : Nat) (data : List (Option Byte)) (pz : BitVec 4) : State :=
  if s.holdsLine (lineOf pa) then
    { s with mem := mwriteOpt s.mem pa data, poison := mergePoison s.poison pa data pz }
  else s

/-- The owner of another package's line answers this package's proxy (R95): the line comes with bytes and poison that are free
values (R65, log 13), in S or in E. -/
def ownerGrants (s : State) (line : Nat) (excl : Bool) : State :=
  let d := s.dir 0 line
  let up : DSt := if excl || d.up = .e then .e else .s
  let s := if d.up != .i then s else { s with
    fresh := s.fresh + 1
    mem := mwrite s.mem (64 * line) ((List.range 64).map fun i => Config.remoteByte s.fresh (64 * line + i))
    poison := mergePoison s.poison (64 * line) (List.replicate 64 (some 0)) (freePoison s.fresh line) }
  s.setDir 0 line { d with st := if d.st = .i then .s else d.st, up := up }

/-- Another package's line goes back to its owner, with every store made to it here (R95). -/
def ownerTakes (s : State) (line : Nat) : State :=
  if !s.foreign line then s
  else
    let d := s.dir 0 line
    { s with
      mem := (List.range 64).foldl (fun m i => tdel m (64 * line + i)) s.mem
      poison := s.poison.filter (· / 4 != line) }.setDir 0 line
        (if d.own.members = [] && d.self.members = [] && d.st != DSt.eo then Dir.none else { d with up := .i })

/-- The signature buffer of an address: of its slice, or of its vault (R101). -/
def sigUnit (pa : Nat) : Nat := if paKind pa = 2 then 512 + vaultClu pa else 64 * homeDie pa + homeSlice pa

/-- An empty signature buffer. -/
def SigBuf.empty : SigBuf := ⟨[], Sig.empty, 0⟩

/-- Install a signature for a granule (R101). -/
def SigBuf.install (b : SigBuf) (gran : Nat) (x : Sig) : SigBuf :=
  match b.ents.find? (·.1 == gran) with
  | some e => { b with ents := b.ents.filter (·.1 != gran) ++ [(gran, e.2.or x)] }
  | none =>
    if b.ents.length < 64 then { b with ents := b.ents ++ [(gran, x)] }
    else
      match b.ents with
      | [] => b
      | e :: r =>
        let o := b.ovf.or e.2
        { ents := r ++ [(gran, x)], ovf := { o with all := o.all || 64 < b.absorbed + 1 }, absorbed := b.absorbed + 1 }

/-- Install the signature of a release for every granule of its access, at their home (R99 step 4, R101); another package's
home is outside this module. -/
def State.installSig (s : State) (pa n : Nat) (x : Option Sig) : State :=
  match x with
  | none => s
  | some x =>
    let u := sigUnit pa
    let b := (gransOf pa n).foldl (fun b g => SigBuf.install b g x) ((tget s.sigbufs u).getD SigBuf.empty)
    if paPkg pa != s.mod.pkg then s else { s with sigbufs := tset s.sigbufs u b }

/-- A signature whose value is free (log 13). -/
def freeSig (v pos : Nat) : Sig :=
  let n := Config.freeBits v (2 * pos + 1) % 65536
  ⟨BitVec.ofNat 1024 (Config.freeBits v (2 * pos)), n, 255 < n⟩

/-- The signature a reader of a granule receives (R101); from another package's home, a free value (log 13). -/
def State.sigFor (s : State) (pa : Nat) : Sig :=
  let b := (tget s.sigbufs (sigUnit pa)).getD SigBuf.empty
  if paPkg pa != s.mod.pkg then freeSig s.fresh (granOf pa)
  else match b.ents.find? (·.1 == granOf pa) with
    | some e => e.2
    | none => b.ovf

/-- The signatures of a line's four granules. -/
def State.lineSigs (s : State) (line : Nat) : List Sig := (List.range 4).map fun i => s.sigFor (64 * line + 16 * i)

/-! ### Atomics (R270) -/

/-- The new value of an atomic on `n` bytes, none when it does not write: 0 AADD … 8 AXCHG, 9 ACAS, 10 AFADD.f32, 11
AFADD.bf16x2 (R270). -/
def atomicNew (op n v b c : Nat) : Option Nat :=
  let m := 2 ^ (8 * n)
  let sg := fun (x : Nat) => if m / 2 ≤ x then (x : Int) - m else x
  let b := b % m
  match op with
  | 0 => some ((v + b) % m)
  | 1 => some (v &&& b)
  | 2 => some (v ||| b)
  | 3 => some (v ^^^ b)
  | 4 => some (if sg v ≤ sg b then v else b)
  | 5 => some (if sg v ≤ sg b then b else v)
  | 6 => some (if v ≤ b then v else b)
  | 7 => some (if v ≤ b then b else v)
  | 8 => some b
  | 9 => if v = b then some (c % m) else none
  | 10 => some (afaddF fmtF32 v b)
  | _ => some (afaddF fmtBf16 (v % 65536) (b % 65536) + 65536 * afaddF fmtBf16 (v / 65536) (b / 65536))

/-- Bytes with the pending writes of one block's reservations laid over them. -/
def overlay (rs : List Resv) (thr seq pa : Nat) (bs : List Byte) : List Byte :=
  rs.foldl (fun bs r =>
    if r.thr = thr && r.seq = seq then
      bs.zipIdx.map fun x => if r.pa ≤ pa + x.2 && pa + x.2 < r.pa + r.data.length then r.data.getD (pa + x.2 - r.pa) x.1 else x.1
    else bs) bs

/-- The bytes of memory under those that stores of its own block have given an atomic (R120, R279). -/
def ownBytes (s : State) (t q i : Nat) (bs : List Byte) : List Byte :=
  match ((s.frame t q).bind fun f => f.ops.find? (·.slot == i)).bind (·.parts[0]?) with
  | some p => bs.zipIdx.map fun b => (p.data.getD b.2 none).getD b.1
  | none => bs

/-- Whether two byte ranges meet. -/
def meets (a n b m : Nat) : Bool := a < b + m && b < a + n

/-! ### Requests -/

/-- The thread and block a request belongs to, if it still belongs to one. -/
def Src.block : Src → Option (Nat × Nat)
  | .acc t q _ _ => some (t, q)
  | _ => none

/-- Whether a request comes from a host port or another module. -/
def Src.outside : Src → Bool
  | .ext _ => true
  | _ => false

/-- Whether a request is of the block that holds a reservation, or a store of its commit. -/
def Resv.owns (r : Resv) (x : Src) : Bool :=
  match x with
  | .store _ t => t == r.thr
  | x => x.block == some (r.thr, r.seq)

/-- Whether a write-back comes from the core of the granted block that holds a reservation: it is part of that block's drain (R99). -/
def drainsFor (s : State) (r : Resv) (x : Src) : Bool :=
  match x with
  | .grid g => (s.frame r.thr r.seq).any fun f => f.stage == 2 &&
      ((coreGrids (gridOfThr r.thr) f.width).contains g || (s.thr r.thr).any fun t => (coreGrids (gridOfThr r.thr) t.width).contains g)
  | _ => false

/-- Whether a write waits behind a reservation of another block (R271). -/
def State.reserved (s : State) (m : Msg) : Bool :=
  s.resvs.any fun r => (gransOf r.pa r.data.length).any (fun g => (gransOf m.pa m.len).contains g) && !r.owns m.src &&
    !drainsFor s r m.src

/-- The holds on the granules of a range. -/
def State.holdsOn (s : State) (pa n : Nat) : List Hold := (gransOf pa n).filterMap (tget s.holds)
/-- A hold of an engine. -/
def Hold.isEng : Hold → Bool
  | .eng _ _ _ => true
  | .block _ _ _ => false

/-- Whether a hold is that of the engine command that sends a request. -/
def Hold.ofCmd (x : Src) : Hold → Bool
  | .eng c u k => x == .eng c u k || (match x with | .ext a => c == 1000 + a | _ => false)
  | .block _ _ _ => false

/-- Whether a hold is that of the block that sends a request. -/
def Hold.ofBlock (x : Src) : Hold → Bool
  | .block t q _ => x.block == some (t, q)
  | .eng _ _ _ => false

/-- Whether a hold, a reservation of another block or the ownership of an engine stands in the way of a write (R69, R85, R271). -/
def State.barred (s : State) (m : Msg) : Bool :=
  s.reserved m ||
    (if 9 ≤ m.node then !(s.holdsOn m.pa m.len).all (Hold.ofBlock m.src) else (s.dir 0 (lineOf m.pa)).st == .eo)

/-- Whether a write that waits keeps its place for its bytes (R92); that of a block which could not commit yet keeps it only while
something stands in its way (log 124). -/
def State.keepsPlace (s : State) (m : Msg) : Bool := m.wr && (m.kind != .waiter || m.takes == 0 || s.barred m)

/-- Whether an earlier write that still waits names some of a request's bytes (R92). -/
def State.behind (s : State) (key n : Nat) (m : Msg) : Bool :=
  ((s.queue key).takeWhile (· != n)).any fun k =>
    match s.msg k with
    | some e => s.keepsPlace e && meets e.pa e.len m.pa m.len
    | none => false

/-! ### The ways of an L2 slice (R52) -/

/-- The die whose slice a node's lines of this number lie in: the home die, or that of a proxy (R52, R94). -/
def nodeDie (node line : Nat) : Nat := if node = 0 then homeDie (64 * line) else node - 1

/-- The ways of the set of a slice that a line of a node falls into (R43: 2,048 sets; the index is log 39), the least recently
used first. -/
def l2Set (s : State) (node line : Nat) : List Nat :=
  s.l2.filter fun k =>
    let l := k % 2 ^ 50
    nodeDie (k / 2 ^ 50) l == nodeDie node line && homeSlice (64 * l) == homeSlice (64 * line) && l / 64 % 2048 == line / 64 % 2048

/-- A request uses a line of a slice; one of a no-allocate page leaves its place (R47, R52). -/
def useL2 (s : State) (m : Msg) : State :=
  let key := nodeKey m.node (lineOf m.pa)
  if m.noAlloc || !s.l2.contains key then s else { s with l2 := s.l2.filter (· != key) ++ [key] }

/-- A line comes into a slice: at its most recently used place, or for a no-allocate request at the least (R47). -/
def fillL2 (s : State) (node line : Nat) (noAlloc : Bool) : State :=
  let key := nodeKey node line
  { s with l2 := if noAlloc then key :: s.l2 else s.l2 ++ [key] }

/-- A line leaves its slice. -/
def dropL2 (s : State) (node line : Nat) : State := { s with l2 := s.l2.filter (· != nodeKey node line) }

/-- Whether a request leaves a copy in an L1 or block cache, so that a proxy it passes needs a way for the line (R52, R94). -/
def Msg.leavesCopy (m : Msg) : Bool := m.kind == .ownLoad || m.kind == .ownership || m.kind == .wtSiLoad

/-! ### Miss registers (R62) -/

/-- The request that holds a miss register of a grid for a line: a further one for the line joins it (R62). -/
def regOf (s : State) (g line : Nat) : Option Nat :=
  (s.grid g).mshr.find? fun n => (s.msg n).any fun m => lineOf m.pa == line

/-- Send a request of a grid: it joins the miss register of its line, or takes one that is free (R62). -/
def sendReg (s : State) (g : Nat) (m : Msg) : State :=
  let n := s.fresh
  match regOf s g (lineOf m.pa) with
  | some r => s.send { m with agent := g + 1, grp := some r }
  | none => (s.send { m with agent := g + 1 }).modGrid g fun x => { x with mshr := if x.mshr.length < 32 then x.mshr ++ [n] else x.mshr }

/-- A request is done with its miss register: the next that shares it holds it, else it is free (R62). -/
def leaveReg (s : State) (g n : Nat) : State :=
  let heirs := (s.net.filter fun e => e.1 != n && e.2.grp == some n && e.2.agent == g + 1).map (·.1)
  match heirs with
  | [] => s.modGrid g fun x => { x with mshr := x.mshr.filter (· != n) }
  | h :: _ =>
    { s with net := s.net.map fun (e : Nat × Msg) =>
        if heirs.contains e.1 then (e.1, { e.2 with grp := if e.1 = h then none else some h }) else e }.modGrid g fun x =>
      { x with mshr := x.mshr.map fun r => if r = n then h else r }

/-! ### A block's accesses and the arbiter (R109, R110) -/

/-- The parts that wait for a message: thread, block, slot and part. -/
def waitersOf (s : State) (n : Nat) : List (Nat × Nat × Nat × Nat) :=
  s.thrs.flatMap fun e => e.2.frames.flatMap fun f => f.ops.flatMap fun o => o.parts.zipIdx.filterMap fun p =>
    if p.1.st = .sent n then some (e.1, f.seq, o.slot, p.2) else none

/-- A block's first performed access gives it its start number (R109), and the arbiter's lock to a replay that runs in
locked mode (R110). -/
def touch (s : State) (k q : Nat) : State :=
  match s.thr k, s.frame k q with
  | some t, some f =>
    let c := s.clu (cluOf k)
    let s := if f.s0.isSome then s else s.modFrame k q fun f => { f with s0 := some c.seqC.toNat }
    if t.lockNext && t.isOldest q && c.lock.isNone then s.modClu (cluOf k) fun c => { c with lock := some (k, q) } else s
  | _, _ => s

/-- The accesses that a message serves are performed (R109). -/
def touchAll (s : State) (n : Nat) : State := (waitersOf s n).foldl (fun s w => touch s w.1 w.2.1) s

/-- A lock that ended passes to a block of the cluster that qualifies and has performed an access unlocked (R110). -/
def relock (s : State) (clu : Nat) : State :=
  let due := fun (e : Nat × Thread) =>
    if cluOf e.1 = clu && e.2.lockNext then e.2.oldest.bind fun f => if f.s0.isSome then some (e.1, f.seq) else none else none
  if (s.clu clu).lock.isSome then s
  else match s.thrs.findSome? due with
    | some l => s.modClu clu fun c => { c with lock := some l }
    | none => s

/-! ### The stores of commits (R109, R120, R130) -/

/-- Whether a message is a committed store of a thread, or one of its writes, that has not been performed. -/
def Msg.isStore (m : Msg) : Bool :=
  match m.src with
  | .store _ _ => m.kind != .ack
  | _ => false

/-- Whether a block that the arbiter has granted has still to make a store to a line (R109). -/
def grantedStore (s : State) (hit : Nat → Thread → Bool) (line : Nat) : Bool :=
  s.thrs.any fun e => hit e.1 e.2 && e.2.frames.any fun f => f.stage == 2 && f.ops.any fun o => o.stored.any fun p =>
    (p.pa.any fun pa => lineOf pa == line) && (p.cls == 1 || p.cls == 4 || p.kind == 3)

/-- Whether a tracked store of another thread's committed block of the cluster to a line is still on its way, or is still to be made;
tracked accesses of a thread wait for it (R130, R131). -/
def clusterStore (s : State) (k clu line : Nat) : Bool :=
  (s.net.any fun e => e.2.isStore && lineOf e.2.pa == line && cluOfGrid (e.2.agent - 1) == clu &&
    (e.2.cls == 1 || e.2.cls == 4 || paKind e.2.pa == 2) && match e.2.src with
      | .store _ t => t != k
      | _ => true) ||
  grantedStore s (fun j _ => j != k && cluOf j == clu) line

/-- Whether a write of a granted block, or a write-back, is on its way to a line: an atomic's reservation and an engine's ownership
follow it (log 124). -/
def writeComing (s : State) (line : Nat) : Bool :=
  (s.net.any fun e => (e.2.st == 0 || e.2.st == 3) && lineOf e.2.pa == line && (e.2.isStore || e.2.kind == .siWb)) ||
  s.thrs.any fun e => e.2.frames.any fun f => f.stage == 2 && f.ops.any fun o => o.stored.any fun p =>
    p.pa.any fun pa => lineOf pa == line && p.st != .got [] true

/-- Whether a load or atomic that has reached its home or vault must go back to its grid, for its turn comes after a store of its
cluster's committed blocks (R130, R131). -/
def goesBack (s : State) (w : Nat × Nat × Nat × Nat) (line : Nat) : Bool :=
  (((s.frame w.1 w.2.1).bind fun f => f.ops.find? (·.slot == w.2.2.1)).any fun o =>
    (o.acc.any fun x => x.kind == 0 || x.kind == 2 || x.kind == 4) &&
      (o.parts[w.2.2.2]?).any fun p => p.kind == 2 || p.kind == 3 || p.cls == 1 || p.cls == 4) &&
    clusterStore s w.1 (cluOf w.1) line

/-- A part of an access waits for its request again. -/
def wantAgain (s : State) (w : Nat × Nat × Nat × Nat) : State :=
  s.modFrame w.1 w.2.1 fun f => { f with ops := f.ops.map fun o => if o.slot != w.2.2.1 then o else { o with
    parts := o.parts.zipIdx.map fun p => if p.2 = w.2.2.2 then { p.1 with st := .want } else p.1 } }

/-- The parts of a line request that must go back do so (R130, R131). -/
def detach (s : State) (n line : Nat) : State :=
  ((waitersOf s n).filter (goesBack s · line)).foldl wantAgain s

/-- Whether a request for bytes must go back as a whole. -/
def turnedBack (s : State) (m : Msg) : Option (Nat × Nat × Nat × Nat) :=
  match m.kind, m.src with
  | .ucLoad, .acc k q i j => if goesBack s (k, q, i, j) (lineOf m.pa) then some (k, q, i, j) else none
  | .atomic, .acc k q i j => if goesBack s (k, q, i, j) (lineOf m.pa) then some (k, q, i, j) else none
  | .vault, .acc k q i j => if goesBack s (k, q, i, j) (lineOf m.pa) then some (k, q, i, j) else none
  | _, _ => none

/-! ### Performing at a home (R91, R94) -/

/-- The id by which a node knows a grid (R90). -/
def agentAt (node line g : Nat) : Nat :=
  if node = 0 && homeDie (64 * line) != g / 640 then 640 + g / 640 else g % 640

/-- What a request recalls (R91): agent, which copies (1 tracked, 2 self-managed, 3 both), and whether it invalidates. -/
def recalls (d : Dir) (m : Msg) : List (Nat × Nat × Bool) :=
  let ex := if d.st = .e then [d.owner] else []
  let inval := fun (l : List Nat) (t : Nat) => l.map fun a => (a, t, true)
  match m.kind with
  | .ownLoad | .wtSiLoad | .ucLoad | .engRead => ex.map fun a => (a, 1, false)
  | .ownership | .siWb | .atomic | .dogUpdate => inval (ex ++ d.own.members) 1
  | .wtUcStore =>
    match m.src with
    | .ext a => if a < 64 then inval (ex ++ d.own.members) 1
      else inval ((ex ++ d.own.members ++ d.self.members).eraseDups) 3
    | _ => inval (ex ++ d.own.members) 1
  | .engOwn | .evict => inval ((ex ++ d.own.members ++ d.self.members).eraseDups) 3
  | .recall =>
    if m.wr then
      inval (((if m.takes % 2 = 1 then ex ++ d.own.members else []) ++
        (if 2 ≤ m.takes then d.self.members else [])).eraseDups) m.takes
    else ex.map fun a => (a, 1, false)
  | _ => []

/-- Send the recalls of a request that begins to recall. -/
def State.sendRecalls (s : State) (n : Nat) (m : Msg) (rs : List (Nat × Nat × Bool)) : State :=
  rs.foldl (fun s r =>
    s.send { Msg.mk0 .recall .dog with
      pa := m.pa / 64 * 64, len := 64, node := m.node, par := n, agent := r.1, takes := r.2.1, wr := r.2.2 })
    (s.setMsg n { m with st := 2 })

/-- Turn a request into its reply or acknowledgement and take it from its queue. -/
def State.answer (s : State) (n : Nat) (m : Msg) : State := (s.unqueue (queueKey m.node (lineOf m.pa)) n).setMsg n m

/-- A request goes back to its grid: its access waits for a miss register again (R62). -/
def sendBack (s : State) (n : Nat) (m : Msg) (w : Nat × Nat × Nat × Nat) : State :=
  wantAgain (leaveReg ((s.unqueue (queueKey m.node (lineOf m.pa)) n).delMsg n) (m.agent - 1) n) w

/-- A reply with a whole line. `how` says how the receiver installs it: 1 exclusive, 2 shared, 0 not. -/
def State.replyLine (s : State) (n : Nat) (m : Msg) (how : Nat) : State :=
  let line := lineOf m.pa
  s.answer n { m with
    kind := .reply, st := 0, pa := 64 * line, len := 64, sub := how, wr := false,
    data := (s.readHome (64 * line) 64).map some, sigs := s.lineSigs line, poison := s.linePoison line }

/-- A reply with the bytes a request names. -/
def State.replyBytes (s : State) (n : Nat) (m : Msg) (bs : List Byte) : State :=
  s.answer n { m with
    kind := .reply, st := 0, sub := 0, wr := false, data := bs.map some,
    sigs := s.lineSigs (lineOf m.pa), poison := s.linePoison (lineOf m.pa) }

/-- Whether a request comes through a proxy: its grid's die is not the home die (R94). -/
def viaProxy (m : Msg) (line : Nat) : Option Nat :=
  if m.agent = 0 then none
  else
    let die := (m.agent - 1) / 640
    if die = homeDie (64 * line) then none else some die

/-- The clearing of an agent's copies by its acknowledgement (R91). -/
def dirDrop (d : Dir) (agent takes : Nat) (inval : Bool) : Dir :=
  if inval then
    let drop := fun (x : ASet) => match x with
      | .exact ids => ASet.exact (ids.filter (· != agent))
      | .coarse c e => .coarse c e
    let d := if takes % 2 = 1 then { d with own := drop d.own } else d
    let d := if 2 ≤ takes then { d with self := drop d.self } else d
    if d.st = .e && d.owner = agent && takes % 2 = 1 then { d with st := .s } else d
  else if d.st = .e && d.owner = agent then { d with st := .s, own := d.own.add agent } else d

/-- Forget the sets a completed recall has emptied, and the entry when no copy is left (R89, R90). -/
def dirSettle (d : Dir) (takes : Nat) (inval : Bool) : Dir :=
  let d := if inval && takes % 2 = 1 then { d with own := .empty } else d
  let d := if inval && 2 ≤ takes then { d with self := .empty } else d
  if d.st = .s && d.own.members = [] && d.self.members = [] && d.up = .i then Dir.none else d

/-- Whether a request makes a holder beyond the package, which the remote filter records (R112). -/
def Msg.holdsOut (m : Msg) : Bool := m.src.outside && (m.kind == .ownLoad || m.kind == .ownership || m.kind == .engOwn)

/-- Room in the remote filter of a home for a line (R112): 16 ways of 1,024 sets. -/
def filterRoom (s : State) (line : Nat) : Bool :=
  let f := (s.die (homeDie (64 * line))).filter
  (tget f line).isSome || (f.filter fun e => e.1 % 1024 == line % 1024).length < 16

/-- The remote filter of a line's home die takes a holder beyond the package (R112): packages 0 to 63, host ports 64 and
65; a host's access that a peer port forwards comes from 128 + its package. -/
def filterAdd (s : State) (x : Src) (line : Nat) (excl : Bool) : State :=
  match x with
  | .ext a => s.modDie (homeDie (64 * line)) fun d =>
    let a := a % 128
    let old := (tget d.filter line).getD ([], false)
    { d with filter := tset d.filter line (if excl then ([a], true) else (addOnce old.1 a, false)) }
  | _ => s

/-- An atomic of another module (R113): its read and its write are one step here. -/
def outsideAtomic (s : State) (n : Nat) (m : Msg) (bs : List Byte) : State :=
  let s := match atomicNew m.sub m.len (leNat bs) (leNat (m.data.map fun b => b.getD 0)) m.arg with
    | some x => (s.merge m.pa ((leBytes m.len x).map some) m.poison).installSig m.pa m.len m.sig
    | none => s
  s.replyBytes n m bs

/-- The state a proxy of this package must hold another package's line in before a request is performed (R95). -/
def needsUp (m : Msg) : DSt :=
  match m.kind with
  | .ownLoad => .s
  | .ownership | .engOwn => .e
  | _ => .i

/-- Whether the owning package has granted what a request needs of its line (R95). -/
def upOk (s : State) (m : Msg) : Bool :=
  let up := (s.dir 0 (lineOf m.pa)).up
  !s.foreign (lineOf m.pa) || needsUp m = .i || up = .e || (up = .s && needsUp m = .s)

/-- A line that a slice gives up, its copies recalled (R52, R94). -/
def evictLine (s : State) (node line : Nat) : State :=
  let s := dropL2 s node line
  if node = 0 then (if s.foreign line then ownerTakes s line else s.setDir 0 line Dir.none)
  else
    let h := s.dir 0 line
    (s.setDir node line Dir.none).setDir 0 line (dirSettle (dirDrop h (639 + node) 3 true) 0 false)

/-- Engine ownership is granted (R84, R90): the home records the engine, its die's proxy, or the remote filter. -/
def grantEngine (s : State) (n : Nat) (m : Msg) : State :=
  let line := lineOf m.pa
  let eo := fun (a : Nat) => { Dir.none with st := .eo, owner := a, up := (s.dir 0 line).up }
  match m.src with
  | .eng c _ _ =>
    let die := dieOf c
    if (s.ctx m.ctx).gen != m.gen then (s.answer n m).delMsg n
    else
      let s := if die = homeDie m.pa then s.setDir 0 line (eo m.arg)
        else (s.setDir 0 line (eo (640 + die))).setDir (die + 1) line { Dir.none with st := .eo, owner := m.arg }
      s.answer n { m with kind := .reply, st := 0, wr := false, data := [] }
  | .ext _ =>
    (filterAdd (s.setDir 0 line (eo 648)) m.src line true).answer n { m with kind := .reply, st := 0, wr := false, data := [] }
  | _ => (s.answer n m).delMsg n

/-- Perform a request at a node whose recalls are done (R91, R94). While an atomic's reservation stands on the line, a load
reads the old value and no copy is left behind that the atomic's write would have to recall (R271). A discarded atomic
has no effect (R117). -/
def homePerform (s : State) (n : Nat) (m : Msg) : State :=
  let line := lineOf m.pa
  match turnedBack s m with
  | some w => sendBack s n m w
  | none =>
  let s := touchAll (useL2 (detach s n line) m) n
  let d := s.dir m.node line
  let g := m.agent - 1
  let id := match m.src with
    | .ext _ => 648
    | _ => agentAt m.node line g
  let px := if m.node = 0 then viaProxy m line else none
  let atPx := fun (s : State) (f : Dir → Dir) =>
    match px with
    | some e => s.setDir (e + 1) line (f (s.dir (e + 1) line))
    | none => s
  match m.kind with
  | .ownLoad =>
    if s.resvs.any fun r => meets r.pa r.data.length (64 * line) 64 then s.replyLine n m 0
    else
    let s := if m.agent = 0 && id != 648 then s
      else filterAdd (s.setDir m.node line { d with st := .s, own := d.own.add id }) m.src line false
    (atPx s fun p => { p with st := .s, own := p.own.add (g % 640), up := if p.up = .e then .e else .s }).replyLine n m 2
  | .wtSiLoad =>
    if m.src.outside then s.replyLine n m 2
    else
    let s := s.setDir m.node line { d with st := .s, self := d.self.add id }
    let s := atPx s fun p => { p with self := p.self.add (g % 640) }
    let h := s.dir 0 line
    let s := if m.node = 0 then s else s.setDir 0 line { h with self := h.self.add (640 + (m.node - 1)) }
    s.replyLine n m 2
  | .ucLoad => s.replyBytes n m (s.readHome m.pa m.len)
  | .engRead => s.replyBytes n m (s.readHome m.pa m.len)
  | .ownership =>
    let s := filterAdd (s.setDir m.node line { d with st := .e, own := .empty, owner := id }) m.src line true
    (atPx s fun p => { p with st := .e, own := .empty, owner := g % 640, up := .e }).replyLine n m 1
  | .wtUcStore =>
    let s := ((ownerTakes s line).merge m.pa m.data m.poison).installSig m.pa m.len m.sig
    s.answer n { m with kind := .ack, st := 0 }
  | .siWb => ((ownerTakes s line).merge m.pa m.data m.poison).answer n { m with kind := .ack, st := 0 }
  | .atomic =>
    let s := ownerTakes s line
    match m.src with
    | .acc t q i _ =>
      let bs := ownBytes s t q i (overlay s.resvs t q m.pa (s.readHome m.pa m.len))
      let v := leNat bs
      let s := match atomicNew m.sub m.len v (leNat (m.data.map fun b => b.getD 0)) m.arg with
        | some x => { s with resvs := s.resvs ++ [(⟨t, q, i, m.pa, leBytes m.len x⟩ : Resv)] }
        | none => s
      s.replyBytes n m bs
    | .ext _ => outsideAtomic s n m (s.readHome m.pa m.len)
    | _ => s.replyBytes n m (s.readHome m.pa m.len)
  | .dogUpdate =>
    let s := ownerTakes s line
    let e := leNat (s.readHome m.pa 8)
    let s := if pteSame m.arg e then
        s.merge m.pa ((leBytes 8 (e ||| (if m.sub = 1 then 6 else 2))).map some) 0
      else s
    s.replyBytes n m (leBytes 8 e)
  | .engOwn => grantEngine s n m
  | .evict => (evictLine s m.node line).answer n m |>.delMsg n
  | .recall =>
    let s := if m.wr then s.setDir m.node line (dirSettle { d with st := .s, up := .i } m.takes true)
      else s.setDir m.node line { d with up := if d.up = .e then .s else d.up }
    match m.src with
    | .ext _ => ((if m.wr then ownerTakes s line else s).answer n m).delMsg n
    | _ => s.answer n { m with kind := .recallAck, st := 0, node := 0, data := [] }
  | _ => s

/-- Whether a proxy serves a request itself (R94): the state it holds from the home. -/
def proxyServes (d : Dir) (m : Msg) : Bool :=
  match m.kind with
  | .ownLoad | .wtSiLoad | .ucLoad => d.up = .s || d.up = .e
  | .ownership => d.up = .e
  | .recall | .evict => true
  | _ => false

/-- Examine a request that waits at an L2 home or proxy, and perform it if the rules let it (R85, R91, R92, R271). -/
def homeTry (s : State) (n : Nat) : State :=
  match s.msg n with
  | none => s
  | some m =>
    let line := lineOf m.pa
    let key := queueKey m.node line
    let d := s.dir m.node line
    let inRecall := (s.queue key).any fun k => k != n && (s.msg k).any (·.st == 2)
    if m.st != 1 || m.kind == .waiter then s
    else if m.node != 0 && !proxyServes d m then
      if m.leavesCopy && !s.l2.contains (nodeKey m.node line) then s
      else (s.unqueue key n).setMsg n { m with node := 0, st := 0 }
    else if m.node = 0 && !s.l2.contains line && m.cls != 5 then s
    else if (d.st = .eo && (m.kind != .recall || m.src.outside) && !(m.kind = .engRead && m.takes = 1)) || inRecall || s.behind key n m then s
    else if (m.wr && m.kind != .recall && s.reserved m) || (m.kind = .ownership && s.reserved { m with pa := 64 * line, len := 64 }) ||
        (m.node = 0 && !upOk s m) || (m.holdsOut && !filterRoom s line) then s
    else
      match recalls d m with
      | [] => homePerform s n m
      | rs => s.sendRecalls n m rs

/-- Examine every request that waits at a key, in arrival order. -/
def homePass (s : State) (key : Nat) : State := (s.queue key).foldl homeTry s

/-- A request reaches its L2 home or proxy: it joins the queue of its line and is examined (R92). -/
def homeArrive (s : State) (n : Nat) (m : Msg) (now : Word) : State :=
  let key := queueKey m.node (lineOf m.pa)
  homeTry ((s.setQueue key (s.queue key ++ [n])).setMsg n { m with st := 1, t0 := now }) n

/-! ### Vaults (R66 to R71) -/

/-- Bytes of the Kennel of a cluster (R332). -/
def inKennel (s : State) (pa : Nat) : Bool :=
  2 ^ 23 - 128 * (s.clu (vaultClu pa)).kennel.size ≤ field pa 22 0

/-- Set or clear the bits of the granules of a range. -/
def State.setBits (s : State) (pa n : Nat) (v : Bool) : State :=
  let gs := gransOf pa n
  { s with full := if v then gs.foldl addOnce s.full else s.full.filter (!gs.contains ·) }

/-- The condition of a qualified access on one granule (R69): unheld, with its bit as wanted; or held by the access's own
block under the same name, with the pending bit as wanted (R70). `arg` marks the granules of the line that the block
holds under that name. -/
def granReady (s : State) (m : Msg) (full : Bool) (g : Nat) : Bool :=
  match tget s.holds g with
  | none => s.full.contains g == full
  | some (.block t q v) => m.src.block == some (t, q) && m.arg.testBit (g % 4) && v == full
  | some (.eng _ _ _) => false

/-- The condition of R69 for an access that reached its vault. `sub` is 1 for `.fe`, 2 for `.fec` and `.fs`. -/
def vaultReady (s : State) (m : Msg) : Bool :=
  let hs := s.holdsOn m.pa m.len
  match m.kind with
  | .vault =>
    if !m.wr then
      if m.sub = 0 then hs.all (!·.isEng) else !s.reserved m && (gransOf m.pa m.len).all (granReady s m true)
    else if m.sub = 1 then !s.reserved m && (gransOf m.pa m.len).all (granReady s m false)
    else hs = [] && !s.reserved m
  | .atomic => hs.all (Hold.ofBlock m.src) && !s.reserved m
  | .wtUcStore => hs = [] && !s.reserved m
  | .engOwn => hs.all (Hold.ofCmd m.src) && !s.reserved m
  | .engRead => hs.all fun h => !h.isEng || Hold.ofCmd m.src h
  | _ => true

/-- Whether a waiting access is a write that waits behind a hold or a reservation, and so keeps its place for its bytes
(R92); a `.fe` access that waits for its bit keeps none (R71). -/
def vaultKeeps (s : State) (m : Msg) : Bool :=
  if m.kind = .waiter then s.keepsPlace m else m.wr && !(m.kind = .vault && m.sub = 1) && !vaultReady s m

/-- Perform an access at its vault granules (R69). -/
def vaultPerform (s : State) (n : Nat) (m : Msg) : State :=
  match turnedBack s m with
  | some w => sendBack s n m w
  | none =>
  let s := touchAll s n
  let bytes := if inKennel s m.pa then List.replicate m.len 0 else s.readHome m.pa m.len
  match m.kind with
  | .vault =>
    if !m.wr then
      let s := if m.sub = 2 then
          match m.src with
          | .acc t q _ _ => { s with holds := (gransOf m.pa m.len).foldl (fun h g => tset h g (.block t q false)) s.holds }
          | _ => s.setBits m.pa m.len false
        else s
      s.replyBytes n m bytes
    else if m.sub = 1 then
      match m.src with
      | .acc t q _ _ =>
        { s with holds := (gransOf m.pa m.len).foldl (fun h g => tset h g (.block t q true)) s.holds }.answer n
          { m with kind := .reply, st := 0, wr := false, data := [] }
      | _ => (((s.merge m.pa m.data m.poison).setBits m.pa m.len true).installSig m.pa m.len m.sig).answer n
          { m with kind := .ack, st := 0 }
    else
      let s := if inKennel s m.pa then s else s.merge m.pa m.data m.poison
      let s := (if m.sub = 2 then s.setBits m.pa m.len true else s).installSig m.pa m.len m.sig
      s.answer n { m with kind := .ack, st := 0 }
  | .atomic =>
    match m.src with
    | .acc t q i _ =>
      let bs := ownBytes s t q i (overlay s.resvs t q m.pa bytes)
      let s := match atomicNew m.sub m.len (leNat bs) (leNat (m.data.map fun b => b.getD 0)) m.arg with
        | some x => { s with resvs := s.resvs ++ [(⟨t, q, i, m.pa, leBytes m.len x⟩ : Resv)] }
        | none => s
      s.replyBytes n m bs
    | .ext _ => outsideAtomic s n m bytes
    | _ => s.replyBytes n m bytes
  | .wtUcStore =>
    let s := (if inKennel s m.pa then s else s.merge m.pa m.data m.poison).installSig m.pa m.len m.sig
    s.answer n { m with kind := .ack, st := 0 }
  | .engOwn =>
    match m.src with
    | .eng c u k =>
      { s with holds := (gransOf m.pa m.len).foldl (fun h g => tset h g (.eng c u k)) s.holds }.answer n
        { m with kind := .reply, st := 0, wr := false }
    | .ext a =>
      { s with holds := (gransOf m.pa m.len).foldl (fun h g => tset h g (.eng (1000 + a) 0 0)) s.holds }.answer n
        { m with kind := .reply, st := 0, wr := false, data := [] }
    | _ => s.answer n { m with kind := .ack, st := 0 }
  | .engRead => s.replyBytes n m bytes
  | _ => s

/-- Whether an access that waits at a vault may be performed now (R69, R71, R92). -/
def vaultMay (s : State) (n : Nat) : Bool :=
  match s.msg n with
  | none => false
  | some m =>
    let earlier := (s.queue (nodeKey m.node 0)).takeWhile (· != n)
    m.st = 1 && m.kind != .waiter && vaultReady s m && !earlier.any fun k =>
      match s.msg k with
      | some e => vaultKeeps s e && meets e.pa e.len m.pa m.len
      | none => false

/-- Perform the accesses that wait at a key of a vault, each time the first that may be: one that changes a bit has those before
it examined again (R71). -/
def vaultRun : Nat → State → Nat → State
  | 0, s, _ => s
  | fuel + 1, s, key =>
    match (s.queue key).find? (vaultMay s) with
    | none => s
    | some n =>
      match s.msg n with
      | none => s
      | some m => vaultRun fuel (vaultPerform s n m) key

/-- A granule of a vault changed: its waiters are examined in arrival order (R71). -/
def vaultPass (s : State) (clu : Nat) : State :=
  let key := nodeKey (9 + clu) 0
  vaultRun (s.queue key).length s key

/-- An access reaches its vault: performed, placed on the wait list of 64, or returned (R71). -/
def vaultArrive (s : State) (n : Nat) (m : Msg) (now : Word) : State :=
  let key := nodeKey m.node 0
  let waiting := (s.queue key).length
  let s := vaultPass ((s.setQueue key (s.queue key ++ [n])).setMsg n { m with st := 1, t0 := now }) (m.node - 9)
  if 64 ≤ waiting && (s.queue key).contains n then (s.unqueue key n).setMsg n { m with st := 3 } else s

/-- Examine every request that the end of a hold or reservation on an address may release. -/
def passAt (s : State) (pa : Nat) : State :=
  if paKind pa = 2 then vaultPass s (vaultClu pa) else homePass s (nodeKey 0 (lineOf pa))

end Sys2Proof.Machine
end

