-- ==== Sys2Proof/Machine/Join.lean ====
section
/-! DEFINITION. The room of a cluster's ports and Kennel (R327 to R333): what is granted, moves up and is freed. -/

namespace Sys2Proof.Machine

/-! ### Ports -/

/-- A port of a cluster. -/
def Clu.port (c : Clu) (p : Nat) : Port := (tget c.ports p).getD Port.reset
/-- Update a port. -/
def State.modPort (s : State) (clu p : Nat) (f : Port → Port) : State :=
  s.modClu clu fun c => { c with ports := tset c.ports p (f (c.port p)) }
/-- A pattern of a cluster. -/
def Clu.pat (c : Clu) (e : Nat) : Pat := (tget c.pats e).getD Pat.reset
/-- Update a pattern. -/
def State.modPat (s : State) (clu e : Nat) (f : Pat → Pat) : State :=
  s.modClu clu fun c => { c with pats := tset c.pats e (f (c.pat e)) }

/-- The messages of a port in the Kennel, oldest first. -/
def kennelOf (c : Clu) (p : Nat) : List (Nat × PMsg) := (c.kennel.ents.filter (·.2.1 == p)).map fun e => (e.1, e.2.2)

/-- The messages a port holds, resident ones first (R339). -/
def heldBy (c : Clu) (p : Nat) : List PMsg := (c.port p).res ++ (kennelOf c p).map (·.2)

/-- Drops counted, saturating (R330). -/
def Port.drop (p : Port) (n : Nat) : Port := { p with drops := Nat.min (p.drops + n) 0xFFFF }

/-- Whether a resident slot can be granted: SPACE (R333). -/
def portSpace (c : Clu) (p : Nat) : Bool :=
  (c.port p).res.length + (c.port p).granted.length < 8 && kennelOf c p = [] && (c.port p).kgranted = []

/-- Whether a Kennel entry can be granted: SPILL (R332, R333). -/
def portSpill (c : Clu) (p : Nat) : Bool :=
  let granted := (c.ports.map fun e => e.2.kgranted.length).foldl (· + ·) 0
  c.kennel.tail - c.kennel.head + granted < c.kennel.size &&
    (kennelOf c p).length + (c.port p).kgranted.length < (c.port p).klim

/-- Whether a port accepts a sender (R329): the Sheepdog counts as the owner. -/
def portAccepts (c : Clu) (p : Nat) (m : Msg) : Bool :=
  let q := c.port p
  q.en && (q.open_ || match m.src with
    | .dog => true
    | .ext _ => false
    | _ => m.ctx == q.owner)

/-- The status of a request goes back (R333). -/
def sendStatus (s : State) (n : Nat) (m : Msg) (status : Nat) : State :=
  s.setMsg n { m with kind := .grantStatus, st := 0, sub := status }

/-- Grant room to a request, if there is room. -/
def tryGrant (s : State) (n : Nat) (m : Msg) : Option State :=
  let clu := m.node - 9
  let c := s.clu clu
  if portSpace c m.port then
    some (sendStatus (s.modPort clu m.port fun p => { p with granted := p.granted ++ [n] }) n m 0)
  else if portSpill c m.port then
    some (sendStatus (s.modPort clu m.port fun p => { p with kgranted := p.kgranted ++ [n] }) n m 0)
  else none

/-- The Kennel's head advances past holes (R332). -/
def Kennel.advance (k : Kennel) : Nat → Kennel
  | 0 => k
  | fuel + 1 => if k.head < k.tail && (tget k.ents k.head).isNone then Kennel.advance { k with head := k.head + 1 } fuel else k

/-- The Kennel without the entries that `keep` does not pick. -/
def Kennel.keep (k : Kennel) (keep : Nat × Nat × PMsg → Bool) : Kennel :=
  Kennel.advance { k with ents := k.ents.filter keep } 2048

/-- The oldest Kennel messages of a port move into freed resident slots (R333). -/
def refill (s : State) (clu p : Nat) : Nat → State
  | 0 => s
  | fuel + 1 =>
    let c := s.clu clu
    match kennelOf c p with
    | [] => s
    | (e, m) :: _ =>
      if 8 ≤ (c.port p).res.length + (c.port p).granted.length then s
      else
        let s := s.modPort clu p fun q => { q with res := q.res ++ [m] }
        let s := s.modClu clu fun c => { c with kennel := Kennel.advance { c.kennel with ents := tdel c.kennel.ents e } 2048 }
        refill s clu p fuel

/-- Insert a waiting request by its place in the order of arrival. -/
def insertWait (x : Nat × Msg) : List (Nat × Msg) → List (Nat × Msg)
  | [] => [x]
  | y :: r => if x.2.t0.toNat ≤ y.2.t0.toNat then x :: y :: r else y :: insertWait x r

/-- The requests that are next at the ports of a cluster where some wait, the one that came first at the head (R333): `t0` of a
waiting request is its place in that order. -/
def nextWaiting (s : State) (clu : Nat) : List (Nat × Msg) :=
  let hs := (s.clu clu).ports.filterMap fun e => e.2.waiting.head?.bind fun n => (s.msg n).map fun m => (n, m)
  hs.foldl (fun l x => insertWait x l) []

/-- Room that is free is granted to the requests that wait at a cluster's ports, oldest first (R333). -/
def grantWaiting (s : State) (clu : Nat) : Nat → State
  | 0 => s
  | fuel + 1 =>
    match (nextWaiting s clu).findSome? fun e => (tryGrant s e.1 e.2).map fun s' => (e.2.port, s') with
    | none => s
    | some (p, s') => grantWaiting (s'.modPort clu p fun q => { q with waiting := q.waiting.drop 1 }) clu fuel

/-- The signature of a port that holds nothing, has granted nothing and has no request waiting is cleared (R336). -/
def clearPortSig (s : State) (clu p : Nat) : State :=
  let c := s.clu clu
  let q := c.port p
  if heldBy c p = [] && q.granted = [] && q.kgranted = [] && q.waiting = [] && q.sig != Sig.empty then
    s.modPort clu p fun q => { q with sig := Sig.empty }
  else s

/-- The ports of a cluster are settled after a change, for room in the Kennel is shared: Kennel messages move up, waiting
requests are granted, the signatures of empty ports are cleared (R333, R336). -/
def settleAll (s : State) (clu : Nat) : State :=
  let ps := (s.clu clu).ports.map (·.1)
  let waits := ((s.clu clu).ports.map fun e => e.2.waiting.length).foldl (· + ·) 0
  let s := grantWaiting (ps.foldl (fun s p => refill s clu p 8) s) clu waits
  ps.foldl (fun s p => clearPortSig s clu p) s

end Sys2Proof.Machine
end

