-- ==== Sys2Proof/Machine/Operands.lean ====
section
/-! DEFINITION. Every operand form: which ports an instruction's words take and what width they carry (the operand
tables of R237 to R249, R262, R274, R285 to R297, R303, R346, R360, R377, R404, R429), which LSIDs are masked (R198), the
layout of a block (R183 to R187) and the check that refuses one (R203). -/

namespace Sys2Proof.Machine

/-! ### The ports of a word -/

/-- Token widths of a port (R194): 0 takes no token, 1 a 64-bit token, 2 a 512-bit token, 3 either. -/
abbrev Wid := Nat

/-- What an instruction takes and sends. A result 3 has the width of the operand that is passed on, 4 is null only. -/
structure Ports where
  a : Wid
  b : Wid
  c : Wid
  res : Wid
  deriving DecidableEq, Repr

/-- WMEM SIZE is `v` (R263). -/
def sizeV (w1 : Slot32) : Bool := bits w1 5 3 == 4#3

/-- The ports of the WMEM forms (R262). -/
def portsMem (x : Nat) (w1 : Slot32) : Ports :=
  match x with
  | 0x00 => ⟨1, 0, 0, if sizeV w1 then 2 else 1⟩
  | 0x01 => ⟨1, if sizeV w1 then 2 else 1, 0, 0⟩
  | 0x02 => ⟨1, 2, 0, 2⟩
  | 0x03 => ⟨1, 2, 2, 0⟩
  | 0x04 => ⟨1, 0, 0, 0⟩
  | 0x05 => ⟨1, 0, 0, 0⟩
  | 0x06 => ⟨1, 0, 0, 0⟩
  | 0x11 => ⟨1, 1, 1, 1⟩
  | _ => ⟨1, 1, 0, 1⟩

/-- The ports of VINT and VFP (R285, R288): the unary forms and those with c. -/
def portsLane (unary ternary : List Nat) (x : Nat) : Ports :=
  if ternary.contains x then ⟨2, 2, 2, 2⟩ else if unary.contains x then ⟨2, 0, 0, 2⟩ else ⟨2, 2, 0, 2⟩

/-- The ports of the instruction a slot holds, by its opcode and XOP (R200); none when they are not defined. -/
def portsOf (w0 w1 : Slot32) : Option Ports :=
  let x := xop w0
  let o := opc w0
  if !xopDefined w0 then none
  else if o = 0x01 || o = 0x02 then some ⟨1, if x = 13 || x = 14 then 0 else 1, 0, 1⟩
  else if o = 0x03 || o = 0x05 then some ⟨1, 1, 0, 1⟩
  else if o = 0x04 then some ⟨1, if x ≤ 4 then 0 else 1, 0, 1⟩
  else if o = 0x06 then some (if x = 0 then ⟨3, 0, 0, 3⟩ else if x = 1 then ⟨1, 3, 0, 3⟩ else ⟨0, 0, 0, 4⟩)
  else if o = 0x07 then
    some (if x = 5 || x = 13 then ⟨1, 1, 1, 1⟩ else if x = 4 || x = 12 || 0x18 ≤ x then ⟨1, 0, 0, 1⟩ else ⟨1, 1, 0, 1⟩)
  else if 0x08 ≤ o && o ≤ 0x16 then some ⟨1, 0, 0, 1⟩
  else if o = 0x18 then some ⟨0, 0, 0, 1⟩
  else if o = 0x19 then some ⟨1, 0, 0, 1⟩
  else if 0x20 ≤ o && o ≤ 0x27 then some ⟨1, 0, 0, if o = 0x27 then 2 else 1⟩
  else if 0x28 ≤ o && o ≤ 0x2C then some ⟨1, if o = 0x2C then 2 else 1, 0, 0⟩
  else if o = 0x30 || o = 0x31 || o = 0x34 then some ⟨0, 0, 0, 0⟩
  else if o = 0x32 || o = 0x33 then some ⟨1, 0, 0, 0⟩
  else if o = 0x40 then some (portsMem x w1)
  else if o = 0x41 then some (if x = 0 then ⟨0, 0, 0, 0⟩ else if x = 1 then ⟨1, 0, 0, 0⟩ else ⟨0, 0, 0, 1⟩)
  else if o = 0x42 then some (portsLane [6, 7] [15] x)
  else if o = 0x43 then some (portsLane [7, 8, 10, 11, 12, 13] [3, 4] x)
  else if o = 0x44 then some ⟨2, 0, 0, 2⟩
  else if o = 0x45 then
    some (if x = 0 then ⟨2, 2, 0, 2⟩ else if x = 1 then ⟨1, 0, 0, 2⟩ else if x = 2 then ⟨2, 1, 0, 2⟩ else ⟨2, 0, 0, 1⟩)
  else if o = 0x46 then some (if x = 0 then ⟨2, 0, 0, 1⟩ else if x = 1 then ⟨2, 1, 0, 2⟩ else ⟨2, 2, 2, 2⟩)
  else if o = 0x47 then some (if x = 0 then ⟨2, 2, 0, 2⟩ else ⟨2, 0, 0, 2⟩)
  else if o = 0x48 then some (if x = 0 then ⟨0, 0, 0, 1⟩ else ⟨1, 0, 0, 0⟩)
  else if o = 0x49 then
    some (if x ≤ 1 then ⟨1, 1, 1, 1⟩ else if x = 3 || x = 4 then ⟨1, 0, 0, 2⟩ else ⟨1, 2, 0, 0⟩)
  else if o = 0x4A then some (if x = 0 then ⟨1, 0, 0, 1⟩ else ⟨1, 1, 0, 1⟩)
  else if o = 0x4B then some ⟨1, 0, 0, 1⟩
  else if o = 0x4C then
    some (if x = 2 then ⟨1, 1, 1, 1⟩ else if x = 0 || x = 4 then ⟨1, 1, 0, 1⟩ else if x = 5 then ⟨1, 0, 0, 1⟩ else ⟨0, 0, 0, 1⟩)
  else if o = 0x4D then
    some (if x = 0 then ⟨1, 1, 2, 1⟩ else if x = 1 then ⟨1, 2, 2, 1⟩ else if x ≤ 3 then ⟨1, 0, 0, 0⟩ else ⟨1, 0, 0, 1⟩)
  else if o = 0x4E then
    some (if x ≤ 1 then ⟨1, if bits w1 7 1 == 1#1 then 2 else 1, 0, 1⟩ else if x = 2 then ⟨1, 1, 0, 0⟩
      else if x = 3 then ⟨1, 1, 1, 0⟩ else if x = 4 then ⟨1, 0, 0, 0⟩ else if x = 5 then ⟨1, 0, 0, 1⟩ else ⟨0, 0, 0, 0⟩)
  else if o = 0x4F then
    some (if x ≤ 1 then ⟨1, 1, 1, 1⟩ else if x ≤ 4 then ⟨1, 0, 0, 1⟩ else if x = 6 then ⟨1, 0, 0, 0⟩ else ⟨0, 0, 0, 0⟩)
  else if o = 0x50 then
    some (if x ≤ 1 then ⟨0, 0, 0, 0⟩ else if x = 2 then ⟨1, 0, 0, 1⟩ else if x = 3 then ⟨1, 1, 0, 0⟩
      else if x ≤ 5 then ⟨1, 0, 0, 0⟩ else ⟨0, 0, 0, 1⟩)
  else if o = 0x51 then some (if x = 0 then ⟨1, 0, 0, 0⟩ else ⟨3, 0, 0, 3⟩)
  else if 0x6C ≤ o && o ≤ 0x6F then some ⟨3, 3, 0, 3⟩
  else none

/-- The operand a slot waits for although its port exists: operand b of a hint is not waited for (R202). -/
def needsB (w0 : Slot32) (p : Ports) : Bool := p.b != 0 && opc w0 < 0x6C

/-- PRED of a word (R190): 00 in the C format. -/
def predOf (w0 : Slot32) : Nat := if opc w0 = 0x18 || opc w0 = 0x19 then 0 else (bits w0 23 2).toNat

/-- A vector instruction (R162, R192, R260 to R262). -/
def isVector (w0 w1 : Slot32) : Bool :=
  (0x42 ≤ opc w0 && opc w0 ≤ 0x47) || opc w0 == 0x27 || opc w0 == 0x2C ||
  (opc w0 == 0x40 && (xop w0 == 2 || xop w0 == 3 || (xop w0 ≤ 1 && sizeV w1)))

/-- The LSID an instruction carries and whether it is masked (R198). -/
def lsidOf (w0 w1 : Slot32) : Option (Nat × Bool) :=
  let o := opc w0
  let x := xop w0
  let l := (bits w1 0 5).toNat
  if 0x20 ≤ o && o ≤ 0x27 then some (x, false)
  else if 0x28 ≤ o && o ≤ 0x2C then some (x, true)
  else if o = 0x40 then some (l, !(x == 0 || x == 2 || x == 4))
  else if o = 0x41 then some (l, x ≤ 1)
  else if o = 0x48 || o = 0x4A then some (l, true)
  else if o = 0x49 then some (l, !(x == 3 || x == 4))
  else if o = 0x4B then some (l, false)
  else if o = 0x4C then if x ≤ 4 then some (l, true) else if x = 5 then some (l, false) else none
  else if o = 0x4D then if x ≤ 3 then some (l, true) else if x = 5 then some (l, false) else none
  else if o = 0x4E then if x ≤ 4 || x = 6 then some (l, true) else none
  else if o = 0x4F then if x ≤ 1 || x = 7 then some (l, true) else none
  else if o = 0x50 then if x = 2 then some (l, false) else if 3 ≤ x && x ≤ 5 then some (l, true) else none
  else if o = 0x51 then if x = 0 then some (l, false) else none
  else none

/-- The exit number of a branch (R199, R249, R253, R431). -/
def exitOf (w0 w1 : Slot32) : Option Nat :=
  let o := opc w0
  if 0x30 ≤ o && o ≤ 0x34 then some (bits w0 20 3).toNat
  else if (o = 0x51 && xop w0 = 0) || (o = 0x50 && xop w0 = 1) then some (bits w1 5 3).toNat
  else none

/-- The target fields of a word, target 0 first (R189, R245). -/
def targetsOf (w0 w1 : Slot32) : List Nat :=
  let o := opc w0
  let t0 := (bits w0 0 9).toNat
  let t1 := (bits w0 9 9).toNat
  if (1 ≤ o && o ≤ 7) || (0x6C ≤ o && o ≤ 0x6F) then [t0, t1]
  else if 0x08 ≤ o && o ≤ 0x27 then [t0]
  else if 0x40 ≤ o && o ≤ 0x51 then
    if o = 0x51 && xop w0 = 1 then [t0, t1, (bits w1 0 9).toNat, (bits w1 9 9).toNat] else [t0, t1]
  else []

/-! ### The layout of a block -/

/-- A word of a list of words. -/
def wordAt (l : List Slot32) (i : Nat) : Slot32 := l.getD i 0

/-- NCHUNK + 1 (R184). -/
def hdrChunks (h : List Slot32) : Nat := (bits (wordAt h 0) 22 2).toNat + 1
/-- NEXIT (R184). -/
def hdrNexit (h : List Slot32) : Nat := (bits (wordAt h 0) 19 3).toNat
/-- NOSPEC (R184). -/
def hdrNospec (h : List Slot32) : Bool := bits (wordAt h 0) 18 1 == 1#1
/-- The store mask (R185). -/
def hdrMask (h : List Slot32) : Slot32 := wordAt h 1
/-- Write entry `e` (R186). -/
def wrEntry (h : List Slot32) (e : Nat) : Nat := (bits (wordAt h (2 + e / 4)) (8 * (e % 4)) 8).toNat
/-- The live write entries: entry and register (R186). -/
def wrEntries (h : List Slot32) : List (Nat × Nat) :=
  ((List.range 32).map fun e => (e, wrEntry h e)).filter (·.2 != 0)
/-- The valid read entries: entry, register and targets (R187). -/
def rdEntries (h : List Slot32) : List (Nat × Nat × Nat × Nat) :=
  (List.range 22).filterMap fun j =>
    let w := wordAt h (10 + j)
    if bits w 31 1 == 1#1 then some (j, (bits w 18 8).toNat, (bits w 0 9).toNat, (bits w 9 9).toNat) else none

/-- Whether a register is a vector register (R188). -/
def isVreg (r : Nat) : Bool := 128 ≤ r && r ≤ 191

/-- The slots that hold the first or only word of an instruction or are empty: a W word takes the slot after it too
(R192). -/
def slotStarts (ws : List Slot32) : Nat → Nat → List Nat
  | 0, _ => []
  | fuel + 1, i => if ws.length ≤ i then [] else i :: slotStarts ws fuel (if isWide (wordAt ws i) then i + 2 else i + 1)

/-- The words of the instruction at a slot; the second is zero beyond the block. -/
def slotWords (ws : List Slot32) (i : Nat) : Slot32 × Slot32 := (wordAt ws i, wordAt ws (i + 1))

/-- The ports of the instruction at a slot, if the slot is a first slot that holds one. -/
def portsAt (ws : List Slot32) (starts : List Nat) (i : Nat) : Option Ports :=
  if starts.contains i && wordAt ws i != 0#32 then portsOf (wordAt ws i) (wordAt ws (i + 1)) else none

/-! ### The check of a block (R203) -/

/-- `efault` of a refused block (R204): code, index, and whether it names a header entry and a write entry. -/
def refusal (code idx : Nat) (hdr wr : Bool) : Nat :=
  idx + (if hdr then 128 else 0) + (if wr then 256 else 0) + 512 * code

/-- The header pass: checks 0x01 to 0x06 in order (R184, R186 to R188, R250). -/
def checkHeader (addr : VAddr) (sup : Bool) (h : List Slot32) (hasCall : Bool) : Option Nat :=
  let we := wrEntries h
  let re := rdEntries h
  let badWr := fun (e : Nat × Nat) =>
    (198 ≤ e.2 && e.2 ≤ 201) || 208 ≤ e.2 || (e.2 == 3 && hasCall) || we.any fun x => x.1 < e.1 && x.2 == e.2
  let badRd := fun (j : Nat) =>
    let w := wordAt h (10 + j)
    if bits w 31 1 == 1#1 then bits w 26 5 != 0#5 else w != 0#32
  let supWr := fun (r : Nat) => r == 202 || (204 ≤ r && r ≤ 207)
  let supRd := fun (r : Nat) => 205 ≤ r && r ≤ 207
  if bits (wordAt h 0) 24 8 != 0xA5#8 then some (refusal 1 0 false false)
  else if bits (wordAt h 0) 0 18 != 0#18 || (List.range 22).any badRd then some (refusal 2 0 false false)
  else if addr % 128#80 != 0#80 then some (refusal 3 0 false false)
  else
    (re.find? fun r => 208 ≤ r.2.1).map (fun r => refusal 4 r.1 true false) <|>
    (we.find? badWr).map (fun e => refusal 5 e.1 true true) <|>
    (if sup then none else
      (we.find? fun e => supWr e.2).map (fun e => refusal 6 e.1 true true) <|>
      (re.find? fun r => supRd r.2.1).map fun r => refusal 6 r.1 true false)

/-- Whether a target is legal (R193). `holder` is the slot that holds it, if a slot does. -/
def targetLegal (h ws : List Slot32) (starts : List Nat) (holder : Option Nat) (t : Nat) : Bool :=
  let i := t % 128
  if t = 0x1FF then true
  else if 384 ≤ t then t < 0x1A0 && wrEntry h i != 0
  else if holder = some i then false
  else
    match portsAt ws starts i with
    | none => false
    | some p =>
      if t < 128 then p.a != 0
      else if t < 256 then p.b != 0
      else p.c != 0 || 2 ≤ predOf (wordAt ws i)

/-- The width a target takes: 1, 2, or 3 for either (R194, R202, R243). -/
def targetWid (h ws : List Slot32) (starts : List Nat) (t : Nat) : Wid :=
  if 384 ≤ t then if isVreg (wrEntry h (t % 128)) then 2 else 1
  else
    match portsAt ws starts (t % 128) with
    | none => 3
    | some p => if t < 128 then p.a else if t < 256 then p.b else if p.c != 0 then p.c else 1

/-- A set of widths as two bits: 1 a 64-bit token, 2 a 512-bit token. -/
def widOr (a b : Nat) : Nat := a ||| b

/-- The port through which a passing instruction takes the token it passes on: operand b of SEL, a of the others. -/
def passPort (w0 : Slot32) : Nat := if opc w0 = 0x06 && xop w0 = 1 then 128 else 0

/-- The widths of the tokens a slot may send, given the widths that reach the passing slots (R194, R243). -/
def sendWids (pass : Tab Nat) (i : Nat) (p : Ports) : Nat :=
  if p.res = 1 then 1 else if p.res = 2 then 2 else if p.res = 3 then (tget pass i).getD 0 else 0

/-- One round of widths over the passing slots (MOV, SEL, MOV4 and hints): each takes what its sources may send. -/
def passRound (h ws : List Slot32) (starts : List Nat) (pass : Tab Nat) : Tab Nat :=
  let ps := starts.filterMap fun i => (portsAt ws starts i).map fun p => (i, p)
  ps.foldl (fun acc x =>
    if x.2.res != 3 then acc
    else
      let port := passPort (wordAt ws x.1) + x.1
      let fromRd := (rdEntries h).foldl (fun w r =>
        if r.2.2.1 = port || r.2.2.2 = port then widOr w (if isVreg r.2.1 then 2 else 1) else w) 0
      let w := ps.foldl (fun w y =>
        if (targetsOf (wordAt ws y.1) (wordAt ws (y.1 + 1))).contains port then widOr w (sendWids acc y.1 y.2) else w) fromRd
      tset acc x.1 w) pass

/-- The widths that reach the passing slots: as many rounds as there are passing slots. -/
def passWids (h ws : List Slot32) (starts : List Nat) : Tab Nat :=
  let n := (starts.filter fun i => (portsAt ws starts i).any (·.res == 3)).length
  (List.range n).foldl (fun acc _ => passRound h ws starts acc) []

/-- A token of some width of a set does not fit a target (R194). -/
def widBad (wids : Nat) (t : Wid) : Bool :=
  (wids.testBit 0 && t == 2) || (wids.testBit 1 && t == 1)

/-- The checks of one slot in their order (R203). `reserved` says whether the decoder rejects the slot's words. -/
def checkSlot (h ws : List Slot32) (starts : List Nat) (pass : Tab Nat) (reserved : Slot32 → Slot32 → Bool) (i : Nat) :
    Option Nat :=
  let w0 := wordAt ws i
  let w1 := wordAt ws (i + 1)
  let f := fun c => some (refusal c i false false)
  if w0 = 0#32 then none
  else if opc w0 = 0 then f 0x0B
  else
    match portsOf w0 w1 with
    | none => f 0
    | some p =>
      let ts := targetsOf w0 w1
      if isWide w0 && (i % 16 = 15 || ws.length ≤ i + 1) then f 0x09
      else if reserved w0 w1 then f 0
      else if ts.any (!targetLegal h ws starts (some i) ·) then f 0x07
      else if predOf w0 = 1 then f 0x08
      else if isVector w0 w1 && i % 16 != 5 && i % 16 != 10 then f 0x0A
      else if (exitOf w0 w1).any (hdrNexit h < ·) then f 0x0C
      else if ts.any fun t => t != 0x1FF && widBad (sendWids pass i p) (targetWid h ws starts t) then f 0x0F
      else none

/-- The checks of one read entry's targets (R203). -/
def checkRead (h ws : List Slot32) (starts : List Nat) (r : Nat × Nat × Nat × Nat) : Option Nat :=
  let ts := [r.2.2.1, r.2.2.2]
  if ts.any (!targetLegal h ws starts none ·) then some (refusal 0x07 r.1 true false)
  else if ts.any fun t => t != 0x1FF && widBad (if isVreg r.2.1 then 2 else 1) (targetWid h ws starts t) then
    some (refusal 0x0F r.1 true false)
  else none

/-- The store mask agrees with the instructions (R198). -/
def maskAgrees (h ws : List Slot32) (starts : List Nat) : Bool :=
  let ls := starts.filterMap fun i => if wordAt ws i = 0#32 then none else lsidOf (wordAt ws i) (wordAt ws (i + 1))
  ls.all (fun l => (hdrMask h).getLsbD l.1 == l.2) &&
  (List.range 32).all fun n => !(hdrMask h).getLsbD n || ls.contains (n, true)

/-- Every live write entry is some target (R203, 0x0E). -/
def writesReached (h ws : List Slot32) (starts : List Nat) : Bool :=
  let ts := starts.flatMap (fun i => if wordAt ws i = 0#32 then [] else targetsOf (wordAt ws i) (wordAt ws (i + 1))) ++
    (rdEntries h).flatMap fun r => [r.2.2.1, r.2.2.2]
  (wrEntries h).all fun e => ts.contains (384 + e.1)

/-- The four passes of R203 over a whole block: `efault` of the first check that fails. -/
def mapCheck (addr : VAddr) (sup : Bool) (h ws : List Slot32) (reserved : Slot32 → Slot32 → Bool) : Option Nat :=
  let starts := slotStarts ws 128 0
  let hasCall := starts.any fun i => opc (wordAt ws i) == 0x31 || (opc (wordAt ws i) == 0x51 && xop (wordAt ws i) == 0)
  let pass := passWids h ws starts
  checkHeader addr sup h hasCall <|>
  starts.findSome? (checkSlot h ws starts pass reserved) <|>
  (rdEntries h).findSome? (checkRead h ws starts) <|>
  (if maskAgrees h ws starts then none else some (refusal 0x0D 0 false false)) <|>
  (if writesReached h ws starts then none else some (refusal 0x0E 0 false false))

end Sys2Proof.Machine
end

