-- ==== Sys2Proof/Machine/Ops.lean ====
section
/-! DEFINITION. The named operations over registers, blocks and threads: the value a block reads from a register (R164),
tokens and firing (R194 to R198), discarding blocks (R117), taking a trap (R413) and returning from one (R431), and
killing a context (R428). -/

namespace Sys2Proof.Machine

/-! ### Tokens -/

/-- The 64-bit value of a token. -/
def Tok.word : Tok → Word
  | .null => 0
  | .s w => w
  | .v x => x.setWidth 64
/-- The 512-bit value of a token. -/
def Tok.vec : Tok → Vec
  | .null => 0
  | .s w => w.setWidth 512
  | .v x => x
/-- Whether a token is null. -/
def Tok.isNull : Tok → Bool
  | .null => true
  | _ => false

/-! ### Registers (R188, R164, R251) -/

/-- What a write of a special register leaves of a value: reserved fields read zero (R6, R221, R236, R420, R417). -/
def specMask (r : Nat) : Word :=
  match r with
  | 192 => fcrMask
  | 193 => 0x0000FFFFFFFFFFFF#64
  | 194 => 0x0000FFFFFFFFFFFF#64
  | 195 => 0xFFFFFFFFFFFFFFF0#64
  | 196 => 0x00000000FFFFFFFF#64
  | 202 => 0x0000FFFFFFFFFFFF#64
  | 204 => 0x00000000FFFF0007#64
  | 206 => 0x00000000000000FF#64
  | _ => BitVec.allOnes 64

/-- The PACK, WAIT and WIDTH fields of `tstat` (R417). -/
def tstatRo (t : Thread) : Word :=
  let w : Nat := if t.width = 8 then 3 else if t.width = 4 then 2 else if t.width = 2 then 1 else 0
  let p : Nat := match t.pack with | .none => 0 | .leader => 1 | .following _ => 2 | .stray _ => 3 | .waiting _ => 3
  let q : Nat := match t.pack with | .waiting _ => 1 | _ => 0
  BitVec.ofNat 64 (w * 64 + p * 256 + q * 1024)

/-- The groups whose four registers are all dead, as `dmask` reads them (R252). -/
def deadGroups (t : Thread) : Word :=
  let g := (List.range 32).filter fun i => i != 0 && (List.range 4).all fun j => t.gdead.getLsbD (4 * i + j)
  let v := (List.range 16).filter fun i => (List.range 4).all fun j => t.vdead.getLsbD (4 * i + j)
  BitVec.ofNat 64 ((g.map (2 ^ ·)).foldl (· + ·) 0 + (v.map (2 ^ 32 * 2 ^ ·)).foldl (· + ·) 0)

/-- The committed value of a register (R188). g0 reads zero; a dead register holds zero. -/
def regCommitted (t : Thread) (cyc : Word) (r : Nat) : Tok :=
  if r = 0 then .s 0
  else if r < 128 then .s ((tget t.g r).getD 0)
  else if r < 192 then .v ((tget t.v (r - 128)).getD 0)
  else
    .s (match r with
    | 192 => t.spec.fcr
    | 193 => t.spec.conv
    | 194 => deadGroups t
    | 195 => t.spec.ftab
    | 196 => t.spec.ftlen
    | 197 => t.spec.srkey
    | 198 => t.spec.thid
    | 199 => BitVec.ofNat 64 t.lclu
    | 200 => BitVec.ofNat 64 t.ctx
    | 201 => cyc
    | 202 => t.spec.leash
    | 203 => t.spec.jseed
    | 204 => t.spec.tstat ||| tstatRo t
    | 205 => t.spec.epc
    | 206 => t.spec.ecause
    | 207 => t.spec.efault
    | _ => 0)

/-- Whether a group mask of `conv` or `dmask` kills a register (R251, R252): g0 to g3 never. -/
def kills (m : Word) (r : Nat) : Bool :=
  if r < 4 then false
  else if r < 128 then m.getLsbD (r / 4)
  else if r < 192 then m.getLsbD (32 + (r - 128) / 4)
  else false

/-- The header of a block that has arrived. -/
def Frame.hdr (f : Frame) : List Slot32 := (tget f.chunks 0).getD []
/-- The slot words of a block that has arrived. -/
def Frame.words (f : Frame) : List Slot32 :=
  (List.range (hdrChunks f.hdr)).flatMap fun c => (tget f.chunks (c + 1)).getD []
/-- The return address of a block (R250). -/
def Frame.retAddr (f : Frame) : VAddr := f.addr + BitVec.ofNat 80 (128 * (hdrChunks f.hdr + 1))
/-- The token that reached a write entry. -/
def Frame.wrTok (f : Frame) (e : Nat) : Option Tok := tget f.toks (384 + e)
/-- The live write entry that names a register. -/
def Frame.entryOf (f : Frame) (r : Nat) : Option Nat := ((wrEntries f.hdr).find? (·.2 == r)).map (·.1)
/-- Whether the block holds a CALL, CALLI or RET (R251). -/
def Frame.hasCall (f : Frame) : Bool :=
  (slotStarts f.words 128 0).any fun i =>
    let w := wordAt f.words i
    opc w == 0x31 || opc w == 0x33 || (opc w == 0x51 && xop w == 0)

/-- The derived `srkey` of a written `jseed` (R232). -/
def seedKey (t : Thread) (seed : Word) : Word := srkeyOf seed t.spec.thid

/-- What the block `f` makes of register `r` by its write entries alone: none while it is not known, `some none` when it
leaves the register as it was. -/
def entryEffect (t : Thread) (f : Frame) (r : Nat) : Option (Option Tok) :=
  match f.entryOf r with
  | some e =>
    match f.wrTok e with
    | none => none
    | some .null => if r = 197 then seed f else some none
    | some x => some (some (if 192 ≤ r then .s (x.word &&& specMask r) else x))
  | none => if r = 197 then seed f else some none
where
  /-- A block that writes `jseed` and not `srkey` sets `srkey` (R232). -/
  seed (f : Frame) : Option (Option Tok) :=
    match f.entryOf 203 with
    | none => some none
    | some e =>
      match f.wrTok e with
      | none => none
      | some .null => some none
      | some x => some (some (.s (seedKey t x.word)))

/-- The value a read entry of register `r` would receive behind the blocks `older`, the youngest first (R164, R222,
R250 to R252); none while it is not known. -/
def regFwd (t : Thread) (cyc : Word) : List Frame → Nat → Option Tok
  | [], r => some (regCommitted t cyc r)
  | f :: rest, r =>
    let zero := if isVreg r then Tok.v 0 else Tok.s 0
    let plain := fun (_ : Unit) =>
      match entryEffect t f r with
      | none => none
      | some (some x) => some x
      | some none => regFwd t cyc rest r
    let killable := 4 ≤ r && r < 192
    let byMask := fun (_ : Unit) =>
      match (if killable then f.entryOf 194 else none) with
      | none => plain ()
      | some e =>
        match f.wrTok e with
        | none => none
        | some .null => plain ()
        | some m => if kills m.word r then some zero else plain ()
    if f.stage = 0 || f.refused.isSome then none
    else if !f.hasCall || !(killable || r = 3) then byMask ()
    else
      match f.exit with
      | none => none
      | some x =>
        if r = 3 then if x.kind = 1 then some (.s (f.retAddr.setWidth 64)) else plain ()
        else if x.kind = 1 || x.kind = 2 then
          match regFwd t cyc rest 193 with
          | none => none
          | some c => if kills c.word r then some zero else byMask ()
        else byMask ()

/-- The value register `r` has for block `q` of a thread (R164). `dmask`, `tstat` and, for a read entry, the flags of
`fcr` are known once every older block has committed (R222). -/
def Thread.regFor (t : Thread) (cyc : Word) (q r : Nat) : Option Tok :=
  if (r = 194 || r = 204) && !t.isOldest q then none else regFwd t cyc (t.older q).reverse r

/-- The ordinal of block `q` (R233): committed blocks, counted from an older block in flight that writes `srkey` or
`jseed`; none while that is not known. -/
def Thread.ordFor (t : Thread) (q : Nat) : Option Nat :=
  (t.older q).foldl (fun o f =>
    match o with
    | none => none
    | some o =>
      let w := fun (r : Nat) => match f.entryOf r with
        | none => some false
        | some e => (f.wrTok e).map (!·.isNull)
      if f.stage = 0 then none
      else match w 197, w 203 with
        | some a, some b => some (if a || b then 0 else o + 1)
        | _, _ => none) (some t.ord)

/-- What an instruction of block `q` at slot `i` rounds with (R222, R232, R233). -/
def Thread.env (t : Thread) (cyc : Word) (q i : Nat) : Option FEnv :=
  match t.regFor cyc q 192, t.regFor cyc q 197, t.ordFor q with
  | some f, some k, some o => some ⟨f.word, k.word, o, i⟩
  | _, _, _ => none

/-! ### Firing -/

/-- Send a token to targets: it travels until it arrives (R163, R193). -/
def Frame.send (f : Frame) (ts : List (BitVec 9)) (x : Tok) : Frame :=
  { f with transit := f.transit ++ (ts.filter (· != noTarget)).map fun t => (t.toNat, x) }

/-- What the tokens that have arrived let a slot do (R194 to R196). -/
inductive Ready where
  | wait | skip | null | go
  deriving DecidableEq, Repr

/-- The state of a slot's operands: `p` is PRED, the flags say which of a, b and c it waits for. -/
def readiness (f : Frame) (i : Nat) (p : BitVec 2) (na nb nc : Bool) : Ready :=
  let a := tget f.toks i
  let b := tget f.toks (128 + i)
  let c := tget f.toks (256 + i)
  let pr : Ready :=
    if p.toNat < 2 then .go
    else match c with
      | none => .wait
      | some x => if x.isNull || (p == 2#2) != (x.word != 0#64) then .skip else .go
  if pr != .go then pr
  else if (na && a.isNone) || (nb && b.isNone) || (nc && c.isNone) then .wait
  else if (na && a == some .null) || (nb && b == some .null) || (nc && c == some .null) then .null
  else .go

/-- Operand `j` (0 a, 1 b, 2 c) of a slot. -/
def Frame.operand (f : Frame) (j i : Nat) : Tok := (tget f.toks (128 * j + i)).getD .null

/-- Mark a slot fired. -/
def Frame.fireAt (f : Frame) (i : Nat) : Frame := { f with fired := f.fired ++ [i], nfired := f.nfired + 1 }
/-- Mark a slot resolved without firing. -/
def Frame.skipAt (f : Frame) (i : Nat) : Frame := { f with skipped := f.skipped ++ [i] }

/-- Whether a slot has not fired and was not resolved. -/
def Frame.pending (f : Frame) (i : Nat) : Bool := !f.fired.contains i && !f.skipped.contains i

/-- A fired instruction that the frame tracks. -/
def Op.mk0 (i : Instr) (slot : Nat) (lsid : Option Nat) (a b c : Tok) : Op :=
  { i := i, slot := slot, lsid := lsid, a := a, b := b, c := c, parts := [], ans := none, stage := 0, aux := 0,
    nul := false }

/-- Update the tracked instruction of a slot. -/
def Frame.modOp (f : Frame) (i : Nat) (g : Op → Op) : Frame :=
  { f with ops := f.ops.map fun o => if o.slot = i then g o else o }
/-- The tracked instruction of a slot. -/
def Frame.op (f : Frame) (i : Nat) : Option Op := f.ops.find? (·.slot == i)

/-- The instruction that `exec` fires belongs to a block in flight: its thread and block. -/
def State.current (s : State) : Option (Thread × Frame) :=
  match s.thr s.cur.1 with
  | none => none
  | some t => (t.frame s.cur.2.1).map fun f => (t, f)

/-- Put the block of the current instruction back. -/
def State.putFrame (s : State) (f : Frame) : State := s.modFrame s.cur.1 s.cur.2.1 fun _ => f

/-- Whether an instruction fires when its block is mapped: it takes no operand and no predicate (R194, R241, R430). -/
def Frame.atMap (f : Frame) (i : Nat) : Bool :=
  let w := wordAt f.words i
  predOf w == 0 && (portsOf w (wordAt f.words (i + 1))).any fun p => p.a == 0 && !needsB w p && p.c == 0

/-- Whether every instruction that fires when the block is mapped has fired. -/
def Frame.mapFired (f : Frame) : Bool := (slotStarts f.words 128 0).all fun i => !f.atMap i || !f.pending i

/-- Whether slot `i` may fire as far as its block goes: the block is mapped and not refused, and the slot has not fired (R180). -/
def Frame.canFire (f : Frame) (i : Nat) : Bool := f.stage == 1 && f.refused.isNone && f.pending i

/-- Fire the current slot: nothing while its operands or predicate are missing; resolved without firing when its
predicate does not match (R195); `null` when an operand is null (R196); else `go` with the operands. -/
def fireWith (s : State) (p : BitVec 2) (na nb nc : Bool)
    (null : Thread → Frame → State) (go : Thread → Frame → Tok → Tok → Tok → State) :
    Host.Outcome State Fault Refusal :=
  match s.current with
  | none => .fault .noSuchBlock
  | some (t, f) =>
    let i := s.cur.2.2
    if !f.canFire i then .next s
    else
      match readiness f i p na nb nc with
      | .wait => .next s
      | .skip => .next (s.putFrame (f.skipAt i))
      | .null => .next (null t f)
      | .go => .next (go t f (f.operand 0 i) (f.operand 1 i) (f.operand 2 i))

/-- The null outcome of an instruction that only sends results (R196). -/
def nullResult (s : State) (ts : List (BitVec 9)) (f : Frame) : State := s.putFrame ((f.fireAt s.cur.2.2).send ts .null)

/-- An instruction that computes a token from its operands and sends it to its targets. -/
def firePure (s : State) (p : BitVec 2) (na nb nc : Bool) (ts : List (BitVec 9)) (g : Tok → Tok → Tok → Tok) :
    Host.Outcome State Fault Refusal :=
  fireWith s p na nb nc (fun _ f => nullResult s ts f)
    (fun _ f a b c => s.putFrame ((f.fireAt s.cur.2.2).send ts (g a b c)))

/-- An instruction that computes with `fcr` and `srkey` (R222, R235): it waits until they are known; its flags are kept
in the block until it commits. -/
def fireEnv (s : State) (p : BitVec 2) (na nb nc : Bool) (ts : List (BitVec 9))
    (g : FEnv → Tok → Tok → Tok → Tok × Flags) : Host.Outcome State Fault Refusal :=
  fireWith s p na nb nc (fun _ f => nullResult s ts f)
    (fun t f a b c =>
      match t.env f.cyc s.cur.2.1 s.cur.2.2 with
      | none => s
      | some v =>
        let r := g v a b c
        let f := (f.fireAt s.cur.2.2).send ts r.1
        s.putFrame { f with flags := f.flags ||| r.2 })

/-- A second firing with one LSID (R197, R205): it has no other effect. A nullified instruction counts as one that fired (log
121). -/
def Frame.lsidClash (f : Frame) (l i : Nat) : Option Frame :=
  if f.ops.any (·.lsid == some l) then some { f.skipAt i with colls := f.colls ++ [(0x22, i)] } else none

/-- An instruction with an LSID fires: its frame tracks it, nullified when an operand is null (R196), its targets then
receiving null; R196 does not say so for a masked instruction with targets (log 120). `go` gives the tracked instruction's first state;
`nul` is what follows when it is nullified. -/
def fireOp (s : State) (i : Instr) (p : BitVec 2) (na nb nc : Bool) (lsid : Option Nat) (ts : List (BitVec 9))
    (go : Thread → Frame → Op → State) (nul : State → State := id) : Host.Outcome State Fault Refusal :=
  let k := s.cur.2.2
  let clash := fun (f : Frame) => lsid.bind fun l => f.lsidClash l k
  fireWith s p na nb nc
    (fun _ f =>
      match clash f with
      | some f' => s.putFrame f'
      | none =>
        let o := { Op.mk0 i k lsid .null .null .null with nul := true, ans := some .null }
        nul (s.putFrame { (f.fireAt k).send ts .null with ops := f.ops ++ [o] }))
    (fun t f a b c =>
      match clash f with
      | some f' => s.putFrame f'
      | none =>
        let o := Op.mk0 i k lsid a b c
        go t { f.fireAt k with ops := f.ops ++ [o] } o)

/-- A fault an instruction's check found: its block holds it (R416). -/
def Frame.hold (f : Frame) (cls : Nat) (efault : Nat) (lsid : Option Nat) (slot : Nat) : Frame :=
  { f with faults := f.faults ++ [⟨cls, BitVec.ofNat 64 efault, lsid, slot⟩] }

/-- Slot, code and LSID in the positions of R305. -/
def efaultOf (slot code : Nat) (lsid : Option Nat) : Nat := slot + 512 * code + 65536 * lsid.getD 0

/-! ### What a block may still do -/

/-- What the tokens that have arrived let the instruction of a slot do. -/
def Frame.ready (f : Frame) (i : Nat) : Ready :=
  let ws := f.words
  match portsOf (wordAt ws i) (wordAt ws (i + 1)) with
  | none => .wait
  | some p => readiness f i (BitVec.ofNat 2 (predOf (wordAt ws i))) (p.a != 0) (needsB (wordAt ws i) p) (p.c != 0)

/-- Whether a slot's tokens let it fire or be resolved (R194). -/
def Frame.slotReady (f : Frame) (i : Nat) : Bool := f.pending i && f.ready i != .wait

/-- Whether a slot is to be resolved without firing (R195): no node issues it. -/
def Frame.skips (f : Frame) (i : Nat) : Bool := f.canFire i && f.ready i == .skip

/-- The instructions that wait for something in their block and then produce a result or a reservation: everything with an
LSID that is neither a memory access nor a fence or barrier. -/
def waitsInBlock (i : Instr) : Bool :=
  match i with
  | .mclaim _ | .mrel _ | .mshape _ | .mload _ | .mstore _ | .mrow _ | .mrowr _ | .mcol _ | .mcolw _ | .mzero _ | .mma _
  | .mmas _ | .mscan _ | .maccr _ | .mwait _ | .mpoll _ | .lcload _ | .lcsel _ | .lcin _ | .lcrun _ | .lcout _ | .lcwait _
  | .lcstat _ | .cpy _ | .cpys _ | .stfree _ | .stclose _ | .stq _ | .cwait _ | .send _ | .sendt _ | .portcfg _
  | .patset _ | .patclr _ | .portq _ | .hend _ | .spawn _ | .spawnp _ | .compose _ | .decomp _ | .follow _ | .unfollow _
  | .rejoin _ | .tend _ | .srr _ | .srw _ | .tlbinv _ | .ctxkill _ | .barw _ | .perfr _ => true
  | _ => false

/-- Whether every masked LSID below `l` has fired or been nullified (R313). -/
def Frame.below_ (f : Frame) (l : Nat) : Bool :=
  (List.range l).all fun n => !(hdrMask f.hdr).getLsbD n || f.ops.any (·.lsid == some n)

/-- The matrix instructions that an LSID below theirs orders (R306). -/
def ofMatrix (i : Instr) : Bool :=
  match i with
  | .mclaim _ | .mrel _ | .mshape _ | .mload _ | .mstore _ | .mrow _ | .mrowr _ | .mcol _ | .mcolw _ | .mzero _ | .mma _
  | .mmas _ | .mscan _ | .maccr _ => true
  | _ => false

/-- Whether every masked matrix instruction below an LSID has passed or failed its check, or was nullified (R306). -/
def Frame.matrixBelow (f : Frame) (l : Nat) : Bool :=
  let masked := (slotStarts f.words 128 0).filterMap fun i =>
    let w := wordAt f.words i
    if 0x48 ≤ opc w && opc w ≤ 0x4A then (lsidOf w (wordAt f.words (i + 1))).bind fun x => if x.2 then some x.1 else none
    else none
  (masked.filter (· < l)).all fun n => f.ops.any fun o => o.lsid == some n && (o.nul || o.stage != 0 || !ofMatrix o.i)

/-- The instructions that take an id of their block's commands (R313, R363, R380), and STFREE (R379). -/
def takesId (i : Instr) : Bool :=
  match i with
  | .mload _ | .mstore _ | .mzero _ | .mma _ | .mmas _ | .mscan _ | .maccr _ | .lcload _ | .lcsel _ | .lcin _ | .lcrun _
  | .lcout _ | .cpy _ | .cpys _ | .stfree _ | .stclose _ => true
  | _ => false

/-- The PORT instructions that are checked in LSID order (R348). -/
def ofPort (i : Instr) : Bool :=
  match i with
  | .send _ | .sendt _ | .portcfg _ | .patset _ | .patclr _ => true
  | _ => false

/-- Whether every masked PORT instruction below an LSID has begun or failed its check, or was nullified (R348). -/
def Frame.portBelow (f : Frame) (l : Nat) : Bool :=
  let masked := (slotStarts f.words 128 0).filterMap fun i =>
    let w := wordAt f.words i
    if opc w = 0x4E then (lsidOf w (wordAt f.words (i + 1))).bind fun x => if x.2 then some x.1 else none else none
  (masked.filter (· < l)).all fun n => f.ops.any fun o => o.lsid == some n && (o.nul || o.stage != 0 || !ofPort o.i)

/-- Whether the lower LSIDs of its block let an instruction be checked (R306, R313, R348, R362, R379). -/
def Frame.turn (f : Frame) (o : Op) : Bool :=
  (!ofMatrix o.i || f.matrixBelow (o.lsid.getD 0)) && (!takesId o.i || f.below_ (o.lsid.getD 0)) &&
  (!ofPort o.i || f.portBelow (o.lsid.getD 0))

/-- Whether a tracked instruction may still produce a token or reach a failure. -/
def Op.open_ (f : Frame) (o : Op) : Bool :=
  o.ans.isNone && !o.nul &&
    (o.parts.any (fun p => match p.st with | .want => true | .sent _ => true | _ => false) ||
      (waitsInBlock o.i && f.turn o))

/-- Whether no instruction of a block can fire any more (R38, R205, R416). -/
def Frame.quiet (f : Frame) : Bool :=
  f.transit = [] && f.unread = [] && !(f.ops.any (Op.open_ f)) && !((slotStarts f.words 128 0).any f.slotReady)

/-- The result of a waiting instruction goes to its targets. -/
def stepDone (s : State) (k : Nat) (f : Frame) (o : Op) (x : Tok) : State :=
  s.modFrame k f.seq fun f => (f.modOp o.slot fun o => { o with ans := some x, stage := 1 }).send o.i.targets x

/-- A waiting instruction without a result has passed its check. -/
def stepOk (s : State) (k : Nat) (f : Frame) (o : Op) : State :=
  s.modFrame k f.seq (·.modOp o.slot fun o => { o with ans := some .null, stage := 1 })

/-- A waiting instruction has failed its check: its block holds the fault (R416), and it produces nothing. -/
def stepFail (s : State) (k : Nat) (f : Frame) (o : Op) (cls efault : Nat) : State :=
  s.modFrame k f.seq fun f => (f.modOp o.slot fun o => { o with ans := some .null, stage := 8 }).hold cls efault o.lsid o.slot

/-! ### Commands and their queue entries (R303, R312, R363, R380) -/

/-- A job instruction (R303). -/
def isJob : Instr → Bool
  | .mload _ | .mstore _ | .mzero _ | .mma _ | .mmas _ | .mscan _ | .maccr _ => true
  | _ => false

/-- A move (R303). -/
def isMove : Instr → Bool
  | .mrow _ | .mcolw _ => true
  | _ => false

/-- An LCELL command (R360). -/
def isLcell (i : Instr) : Bool :=
  match i with
  | .lcload _ | .lcsel _ | .lcin _ | .lcrun _ | .lcout _ => true
  | _ => false

/-- A CPY or CPYS. -/
def isCopy (i : Instr) : Bool :=
  match i with
  | .cpy _ | .cpys _ => true
  | _ => false

/-- Whether an instruction is a command that reads or writes memory, an Issue (R115). -/
def isIssue (i : Instr) : Bool :=
  match i with
  | .mload _ | .mstore _ | .lcload _ | .lcin _ | .lcout _ | .cpy _ | .cpys _ => true
  | _ => false

/-- A read of the move buffer (R311). -/
def isRead (i : Instr) : Bool :=
  match i with
  | .mrowr _ | .mcol _ => true
  | _ => false

/-- How many commands of one unit a block issues: those of its tracked instructions that fired, below an LSID. -/
def issuedBelow (f : Frame) (l : Nat) (job : Instr → Bool) : Nat :=
  (f.ops.filter fun o => !o.nul && job o.i && o.lsid.any (· < l)).length

/-- Entries of a unit that blocks have reserved: units 0 jobs, 1 moves, 2 fabric, 3 copy; jobs and moves are counted at the
home grid. -/
def reservedOf (c : Clu) (unit grid : Nat) : Nat :=
  ((c.reserved.filter fun r => r.1 == unit && (2 ≤ unit || gridOfThr r.2.1 == grid)).map fun r => r.2.2.2).foldl (· + ·) 0

/-- Whether a block has reserved entries of a unit. -/
def hasReserved (c : Clu) (k q unit : Nat) : Bool := c.reserved.any fun r => r.1 == unit && r.2.1 == k && r.2.2.1 == q

/-- Give back a block's reservation: its commands now hold the entries. -/
def unreserve (s : State) (k q : Nat) : State :=
  s.modClu (cluOf k) fun c => { c with reserved := c.reserved.filter fun r => !(r.2.1 == k && r.2.2.1 == q) }

/-- What a block's commands need of the queues that are reserved together, the matrix engine's (`grp` 0), the fabric's (1) or the
copy engine's (2): unit, count, and the entries free for it (R312, R363, R380). -/
def needsOf (s : State) (k : Nat) (f : Frame) (grp : Nat) : List (Nat × Nat × Nat) :=
  let c := s.clu (cluOf k)
  let g := gridOfThr k
  let free := fun (unit size used : Nat) => size - (used + reservedOf c unit g)
  let ns := if grp = 0 then
      [(0, issuedBelow f 32 isJob, free 0 4 (c.jobs.filter (·.grid == g)).length),
       (1, issuedBelow f 32 isMove, free 1 64 (c.moves.filter fun j => isMove j.i && j.grid == g).length)]
    else if grp = 1 then [(2, issuedBelow f 32 isLcell, free 2 16 c.fab.q.length)]
    else [(3, issuedBelow f 32 isCopy, free 3 32 c.copyQ.length)]
  ns.filter fun n => n.2.1 != 0 && !hasReserved c k f.seq n.1

/-- Reserve the entries of one group of queues at once, if enough are free; none otherwise. -/
def reserveGroup (k : Nat) (f : Frame) (s : State) (grp : Nat) : Option State :=
  let ns := needsOf s k f grp
  if ns.all fun n => n.2.1 ≤ n.2.2 then
    some (s.modClu (cluOf k) fun c => { c with reserved := c.reserved ++ ns.map fun n => (n.1, k, f.seq, n.2.1) })
  else none

/-- Reserve the entries of every group that a block still needs. -/
def reserve (s : State) (k : Nat) (f : Frame) : Option State := [0, 1, 2].foldlM (reserveGroup k f) s

/-- Whether every instruction of a group in a block has fired or been nullified, those with an LSID that its mask names having
passed their check. LCWAIT and CWAIT have none. -/
def Frame.checked (f : Frame) (grp : Nat) : Bool :=
  let inGrp := fun (w : Slot32) => if grp = 0 then 0x48 ≤ opc w && opc w ≤ 0x4A else opc w == (if grp = 1 then 0x4C else 0x4D) && xop w != 5
  (slotStarts f.words 128 0).all fun i =>
    let w := wordAt f.words i
    if !inGrp w then true
    else
      match lsidOf w (wordAt f.words (i + 1)) with
      | some (n, true) => f.ops.any fun o => o.lsid == some n && (o.nul || o.stage != 0)
      | _ => true

/-- The blocks of a cluster whose commands have passed their checks reserve the entries they wait for, where enough are free (R312,
R363, R380): threads in the order of their numbers from one that is a free choice (log 117). -/
def reserveAll (s : State) (clu : Nat) : State :=
  let ks := (s.thrs.filter fun e => cluOf e.1 == clu).map (·.1)
  let n := if ks.length < 2 then 0 else Config.freeChoice s.fresh % ks.length
  (ks.drop n ++ ks.take n).foldl (fun s k =>
    match (s.thr k).bind (·.oldest) with
    | none => s
    | some f =>
      if f.stage != 1 || f.faults != [] then s
      else [0, 1, 2].foldl (fun s g => if f.checked g then (reserveGroup k f s g).getD s else s) s) s

/-- The groups of instructions whose checks come before a reservation (R312, R363, R380). -/
def inQueueGroup (i : Instr) : Bool :=
  match i with
  | .mclaim _ | .mrel _ | .mshape _ | .mload _ | .mstore _ | .mrow _ | .mrowr _ | .mcol _ | .mcolw _ | .mzero _ | .mma _
  | .mmas _ | .mscan _ | .maccr _ | .lcload _ | .lcsel _ | .lcin _ | .lcrun _ | .lcout _ | .cpy _ | .cpys _ | .stfree _
  | .stclose _ => true
  | _ => false

/-- A nullified instruction of such a group may have been the last of its block to wait for (R312, R363, R380). -/
def nullified (i : Instr) (k : Nat) (s : State) : State := if inQueueGroup i then reserveAll s (cluOf k) else s

/-- An instruction that, once fired, waits for its turn in its block: it fires and `step` tries to complete it; fired again
while it waits, `step` tries again. -/
def fireStep (s : State) (i : Instr) (p : BitVec 2) (na nb nc : Bool) (lsid : Option Nat) (ts : List (BitVec 9))
    (step : State → Nat → Thread → Frame → Op → State) : Host.Outcome State Fault Refusal :=
  match s.current with
  | none => .fault .noSuchBlock
  | some (t, f) =>
    match f.op s.cur.2.2 with
    | some o => .next (if f.stage = 1 && o.ans.isNone && !o.nul then step s s.cur.1 t f o else s)
    | none => fireOp s i p na nb nc lsid ts (fun t f o => step (s.putFrame f) s.cur.1 t f o) (nullified i s.cur.1)

/-! ### Discarding blocks (R117, R73, R271) -/

/-- Whether a request has not yet been performed and can be withdrawn. -/
def Msg.withdrawn (m : Msg) : Bool := m.st != 2 && m.kind != .reply && m.kind != .ack

/-- Examine the requests that wait at a key. -/
def passKey (s : State) (key : Nat) : State :=
  if 9 ≤ key / 2 ^ 50 then vaultPass s (key / 2 ^ 50 - 9) else homePass s key

/-- The requests of discarded blocks leave the machine; those already being recalled for, and replies under way, become
their grid's own and are dropped when they arrive (R73, R62). -/
def dropMsgs (s : State) (mine : Src → Bool) : State :=
  let keys := ((s.net.filter fun e => mine e.2.src && e.2.withdrawn && e.2.st == 1).map fun e =>
    queueKey e.2.node (lineOf e.2.pa)).eraseDups
  let s := s.net.foldl (fun s e =>
    if !mine e.2.src then s
    else if e.2.withdrawn then
      let s := (s.unqueue (queueKey e.2.node (lineOf e.2.pa)) e.1).delMsg e.1
      if e.2.agent = 0 then s
      else (leaveReg s (e.2.agent - 1) e.1).modGrid (e.2.agent - 1) fun g => { g with fetchReg := g.fetchReg.filter (· != e.1) }
    else if e.2.agent = 0 then (if e.2.st = 2 then s else s.delMsg e.1)
    else s.setMsg e.1 { e.2 with src := .grid (e.2.agent - 1) }) s
  keys.foldl passKey s

/-- Give back what the tracked instructions of a discarded block had reserved: the grids of a COMPOSE that has been checked (R167), the slots of
an MCLAIM (R307). -/
def undoOps (s : State) (k : Nat) (f : Frame) : State :=
  f.ops.foldl (fun s o =>
    match o.i with
    | .compose _ =>
      if o.ans.isNone then s
      else (List.range 8).foldl (fun s j =>
        s.modGrid (8 * cluOf k + j) fun g => if g.held = some k then { g with held := none } else g) s
    | .mclaim c =>
      if o.stage = 0 || o.ans == some (.s 0) then s
      else s.modClu (cluOf k) fun u =>
        { u with phys := (if c.pair = 1#1 then [o.aux % 64, o.aux / 64] else [o.aux % 64]).foldl (fun p j =>
            tset p j ⟨none, false, 0⟩) u.phys }
    | _ => s) s

/-- Requests that have left the machine are forgotten at the ports that had granted them room or held them waiting: the room is granted
again, and the signature of a port that is empty now is cleared (R333, R336). -/
def forgetGone (s : State) : State :=
  let gone := fun (n : Nat) => (s.msg n).isNone
  let cs := (s.clus.filter fun e => e.2.ports.any fun p =>
    p.2.granted.any gone || p.2.kgranted.any gone || p.2.waiting.any gone).map (·.1)
  let keep := fun (l : List Nat) => l.filter (!gone ·)
  cs.foldl settleAll (cs.foldl (fun s c => s.modClu c fun c => { c with ports := c.ports.map fun p =>
    (p.1, { p.2 with granted := keep p.2.granted, kgranted := keep p.2.kgranted, waiting := keep p.2.waiting }) }) s)

/-- Discard the blocks of a thread that `dead` picks: nothing they did becomes visible (R117), and the room and the places they
held are free again (R311, R312, R333). -/
def dropBlocks (s : State) (k : Nat) (dead : Frame → Bool) : State :=
  match s.thr k with
  | none => s
  | some t =>
    let gone := t.frames.filter dead
    if gone = [] then s
    else
      let qs := gone.map (·.seq)
      let mine := fun (x : Src) => match x with
        | .acc t' q _ _ => t' == k && qs.contains q
        | .fetch _ t' q _ => t' == k && qs.contains q
        | _ => false
      let heldBy := fun (h : Hold) => match h with
        | .block t' q _ => t' == k && qs.contains q
        | .eng _ _ _ => false
      let freed := (s.holds.filter fun e => heldBy e.2).map fun e => 16 * e.1
      let ended := (s.resvs.filter fun r => r.thr == k && qs.contains r.seq).map (·.pa)
      let s := gone.foldl (fun s f => undoOps s k f) s
      let s := s.setThr k { t with frames := t.frames.filter (!dead ·) }
      let s := { s with
        holds := s.holds.filter fun e => !heldBy e.2
        resvs := s.resvs.filter fun r => !(r.thr == k && qs.contains r.seq) }
      let s := dropMsgs s mine
      let unlocked := s.clus.filter fun e => e.2.lock.any fun l => l.1 == k && qs.contains l.2
      let s := { s with clus := s.clus.map fun e => (e.1, { e.2 with
        spawns := e.2.spawns.filter fun x => !(x.2.thr == k && qs.contains x.2.seq && !x.2.firm)
        reserved := e.2.reserved.filter fun x => !(x.2.1 == k && qs.contains x.2.2.1)
        moves := e.2.moves.filter fun j => !(isRead j.i && j.cap.thr == k && qs.contains j.seq)
        lock := if e.2.lock.any fun l => l.1 == k && qs.contains l.2 then none else e.2.lock }) }
      let s := forgetGone (unlocked.foldl (fun s e => relock s e.1) s)
      reserveAll ((freed ++ ended).foldl passAt s) (cluOf k)

/-- Discard the block `q` of a thread and every younger block. -/
def dropFrom (s : State) (k q : Nat) : State := dropBlocks s k fun f => q ≤ f.seq

/-- The members of a leader's pack. -/
def members (s : State) (k : Nat) : List (Nat × Thread) :=
  s.thrs.filter fun e => match e.2.pack with
    | .following l => l == k
    | .stray l => l == k
    | .waiting l => l == k
    | _ => false

/-- Discard a thread's blocks from `q` on, and, for a leader, its members' uncommitted copies of them (R172). -/
def discardFrom (s : State) (k q : Nat) : State :=
  (members s k).foldl (fun s e => dropBlocks s e.1 fun f => f.lead.any (q ≤ ·)) (dropFrom s k q)

/-- The first of some blocks that is not where the one before it leads, when that is known. -/
def offPath : Option VAddr → List Frame → Option Nat
  | _, [] => none
  | a, f :: r => if a.any (· != f.addr) then some f.seq else offPath (f.exit.map (·.dest)) r

/-- A member's blocks no longer come from its leader: those it holds are its own, as far as they are on its path; it goes on
from its own next-block address (R175, R176). -/
def goAlone (s : State) (k : Nat) (p : Pack) : State :=
  let s := s.modThr k fun t => { t with pack := p, frames := t.frames.map fun f => { f with lead := none } }
  match (s.thr k).bind fun t => offPath (some t.pc) t.frames with
  | some q => dropFrom s k q
  | none => s

/-- A following member strays; a waiting one too (R172, R176). -/
def strayOne (s : State) (k : Nat) : State :=
  match (s.thr k).map (·.pack) with
  | some (Pack.following l) => goAlone s k (.stray l)
  | some (Pack.waiting l) => goAlone s k (.stray l)
  | _ => s

/-- Every following member of a leader strays at its next-block address (R176). -/
def strayAll (s : State) (k : Nat) : State :=
  (members s k).foldl (fun s e => match e.2.pack with
    | .following l => goAlone s e.1 (.stray l)
    | _ => s) s

/-- A pack dissolves: every member is independent at its own next-block address (R175). -/
def dissolve (s : State) (k : Nat) : State := (members s k).foldl (fun s e => goAlone s e.1 .none) s

/-- The leash of a thread in cycles: a value below 1,024 acts as 1,024 (R420). -/
def leashOf (t : Thread) : Nat := Nat.max t.spec.leash.toNat 1024

/-- The leash of a thread has run out (R181, R420). -/
def leashOut (s : State) (k : Nat) (t : Thread) : Bool := t.run && leashOf t ≤ (s.cycThr k - t.leash0).toNat

/-! ### Ending a thread and killing a context -/

/-- Remove a thread: its blocks are discarded, its pack dissolves and its context and grids are free again (R176), those that it
had given up once they have drained (R168). -/
def endThread (s : State) (k : Nat) : State :=
  let s := dropBlocks s k fun _ => true
  let s := dissolve s k
  let s := { s with grids := s.grids.map fun (e : Nat × Grid) => (e.1, { e.2 with
    held := if e.2.held = some k then none else e.2.held }) }
  { s with thrs := tdel s.thrs k }

/-- A handler ends: it lowers the running count of the pattern entry that fired it, if that entry still stands (R344). -/
def endHandler (s : State) (k : Nat) : State :=
  match (s.thr k).bind (·.pat) with
  | none => s
  | some (p, ser) => s.modClu (cluOf k) fun c =>
    { c with pats := c.pats.map fun e =>
        if e.1 = p && e.2.serial = ser then (e.1, { e.2 with running := e.2.running - 1 }) else e }

/-- Engine ownership and holds of an aborted command end without effect (R87). -/
def releaseOwned (s : State) (owned : List Nat) : State :=
  owned.foldl (fun s l =>
    homePass ((List.range 9).foldl (fun s n =>
      if (s.dir n l).st = .eo then s.setDir n l { Dir.none with up := (s.dir n l).up } else s) s) (nodeKey 0 l)) s

/-- The lines that a command owns still: not those whose write has landed, though its acknowledgement is not collected (R85). -/
def ownedStill (s : State) (x : Src) (e : Eng) : List Nat :=
  let has := fun (kind : MKind) (l : Nat) => s.net.any fun m => m.2.src == x && m.2.kind == kind && lineOf m.2.pa == l
  e.owned.filter fun l => has .engWrite l || !has .ack l

/-- The engine holds of one command end (R87). -/
def releaseHolds (s : State) (clu unit cmd : Nat) : State :=
  let mine := fun (h : Hold) => match h with | .eng c u n => c == clu && u == unit && n == cmd | _ => false
  let cs := ((s.holds.filter fun e => mine e.2).map fun e => vaultClu (16 * e.1)).eraseDups
  cs.foldl vaultPass { s with holds := s.holds.filter fun e => !mine e.2 }

/-- Abort every queued and running engine command of a context in a cluster (R87, R325, R375, R393). -/
def abortEngines (s : State) (ctx clu : Nat) : State :=
  let c := s.clu clu
  let jobs := (c.jobs ++ c.moves).filter (·.cap.ctx == ctx)
  let fabs := c.fab.q.filter (·.cap.ctx == ctx)
  let cps := (c.copyQ ++ c.streams.map (·.cmd)).filter (·.cap.ctx == ctx)
  let owned := jobs.flatMap (fun j => ownedStill s (.eng clu 1 j.place) j.eng) ++
    fabs.flatMap (fun j => ownedStill s (.eng clu 2 j.place) j.eng) ++ cps.flatMap fun j => ownedStill s (.eng clu 0 j.place) j.eng
  let s := s.modClu clu fun c => { c with
    jobs := c.jobs.filter (·.cap.ctx != ctx)
    moves := c.moves.filter (·.cap.ctx != ctx)
    pipeC := c.pipeC.filter fun p => !(jobs.any (·.place == p))
    pipeT := c.pipeT.filter fun p => !(jobs.any (·.place == p))
    copyQ := c.copyQ.filter (·.cap.ctx != ctx)
    streams := c.streams.filter (·.cmd.cap.ctx != ctx)
    stab := c.stab.filter (·.2.ctx != ctx)
    phys := c.phys.map fun e => if e.2.owner.any (·.1 == ctx) then (e.1, ⟨none, false, 0⟩) else e
    fab := if c.fab.owner = ctx then { Fabric.reset with epoch := s.fresh } else { c.fab with q := c.fab.q.filter (·.cap.ctx != ctx) } }
  let mine := fun (x : Src) => match x with
    | .eng u 0 n => u == clu && cps.any (·.place == n)
    | .eng u 1 n => u == clu && jobs.any (·.place == n)
    | .eng u 2 n => u == clu && fabs.any (·.place == n)
    | _ => false
  let granted := (s.net.filter fun e => mine e.2.src && e.2.kind == .reply && e.2.data == [] && paKind e.2.pa != 2).map
    fun e => lineOf e.2.pa
  let s := forgetGone (dropMsgs s mine)
  let s := releaseOwned s (granted ++ owned)
  let s := jobs.foldl (fun s j => releaseHolds s clu 1 j.place) s
  let s := fabs.foldl (fun s j => releaseHolds s clu 2 j.place) s
  reserveAll (cps.foldl (fun s j => releaseHolds s clu 0 j.place) s) clu

/-- Ports and patterns of a context in a cluster are unallotted: their messages are discarded, those on their way with room granted too,
and their waiting requests are answered 3 (R345, R333). -/
def killPorts (s : State) (ctx clu : Nat) : State :=
  let c := s.clu clu
  let waits := (c.ports.filter (·.2.owner == ctx)).flatMap (·.2.waiting)
  let s := waits.foldl (fun s n =>
    match s.msg n with
    | some m => s.setMsg n { m with kind := .grantStatus, st := 0, sub := 3 }
    | none => s) s
  let s := s.modMod fun m => { m with postq := m.postq.filter (!waits.contains ·) }
  let coming := (c.ports.filter (·.2.owner == ctx)).flatMap fun e => e.2.granted ++ e.2.kgranted
  let s := coming.foldl (fun s n =>
    match s.msg n with
    | some m => s.setMsg n { m with sub := if m.kind = .grantStatus && m.st = 0 then 3 else 4 }
    | none => s) s
  let s := s.modClu clu fun c => { c with
    ports := c.ports.map fun e => if e.2.owner = ctx then (e.1, Port.reset) else e
    pats := c.pats.map fun e => if e.2.owner = ctx then (e.1, { Pat.reset with serial := e.2.serial + 1 }) else e
    kennel := c.kennel.keep fun e => !((tget c.ports e.2.1).any (·.owner == ctx)) }
  settleAll s clu

/-- Every cached translation of a context, and every walk for it, is removed from the module (R32). -/
def dropTranslations (s : State) (ctx : Nat) (hit : Trans → Bool) (all : Bool) : State :=
  let keep := fun (l : List Trans) => l.filter fun e => !(e.ctx == ctx && hit e)
  { s with
    grids := s.grids.map fun e => (e.1, { e.2 with utlb := keep e.2.utlb })
    clus := s.clus.map fun e => (e.1, { e.2 with
      tlb := keep e.2.tlb, misses := if all then e.2.misses.filter (·.ctx != ctx) else e.2.misses })
    dies := s.dies.map fun e => (e.1, { e.2 with
      stlb := keep e.2.stlb
      wcache := if all then e.2.wcache.filter (·.1.1 != ctx) else e.2.wcache
      walks := if all then e.2.walks.filter (·.2.ctx != ctx) else e.2.walks }) }

/-- The kill of a context whose threads have ended (R428, R21): everything of R428's table ends, its generation rises. -/
def killNow (s : State) (ctx reason : Nat) : State :=
  let x := s.ctx ctx
  let cs := s.clus.map (·.1)
  let s := cs.foldl (fun s c => abortEngines s ctx c) s
  let s := cs.foldl (fun s c => killPorts s ctx c) s
  let s := dropTranslations s ctx (fun _ => true) true
  let s := { s with
    clus := s.clus.map fun (e : Nat × Clu) => (e.1, { e.2 with
      mapc := e.2.mapc.filter (·.1 != ctx)
      spawns := e.2.spawns.filter (·.2.ctx != ctx) })
    bars := s.bars.filter fun e => e.1 / 2 ^ 32 != ctx }
  s.modCtx ctx fun _ =>
    { x with alive := false, dying := none, gen := (x.gen + 1) % 2 ^ 20, killReason := some (reason, x.gen), names := [], saved := [],
             fabs := [], parked := [], stopped := [] }

/-- A thread of a context that is killed ends, but that of a block which the arbiter has granted once the block is done: the kill falls at
a block boundary (R117, R146). -/
def killThread (s : State) (k : Nat) : State :=
  match (s.thr k).bind fun t => t.frames.find? (·.stage == 2) with
  | none => endThread (s.modClu (cluOf k) fun c => { c with handlers := c.handlers.filter (·.thr != k) }) k
  | some f => (discardFrom s k (f.seq + 1)).modThr k fun t => { t with stop := true }

/-- Kill a context with a reason (R428): its threads end, and with the last of them the context. -/
def killCtx (s : State) (ctx reason : Nat) : State :=
  let ks := (s.thrs.filter (·.2.ctx == ctx)).map (·.1)
  let s := ks.foldl killThread s
  if s.thrs.any (·.2.ctx == ctx) then s.modCtx ctx fun x => { x with dying := x.dying <|> some reason }
  else killNow s ctx reason

/-! ### Traps (R413 to R418, R431) -/

/-- The trap entry block of a context (R413, R419). -/
def trapVec (c : Ctx) : VAddr := BitVec.ofNat 80 (c.pre * 2 ^ 64 + field (c.word 9) 63 7 * 128)

/-- Step 2 to 4 of R413 on a thread: `epc`, `ecause`, `efault` and `tstat` written, the next block at the trap entry, the
leash count restarted. -/
def Thread.trap (t : Thread) (c : Ctx) (cyc : Word) (cls : Nat) (efault : Word) (ret : VAddr) : Thread :=
  { t with
    spec := { t.spec with
      epc := ret.setWidth 64
      ecause := BitVec.ofNat 64 cls
      efault := efault
      tstat := (t.spec.tstat &&& 0x0000000000000001#64) <<< 1 ||| 0x5#64 ||| ((ret >>> 64).setWidth 64 <<< 16) }
    pc := trapVec c
    leash0 := cyc
    lockNext := false
    rejoin := none }

/-- Taking a trap: the ONE operation every fault, system call and Leash trap goes through (R413). With EXL = 1 it is a
double fault instead, and the context is killed with reason 0xFE (R418). What the thread has in flight is discarded, also the copies that
a following member had received of its leader's blocks (R172). -/
def takeTrap (s : State) (k : Nat) (cls : Nat) (efault : Word) (ret : VAddr) : State :=
  match s.thr k with
  | none => s
  | some t =>
    if t.spec.tstat.getLsbD 2 then killCtx s t.ctx 0xFE
    else
      let s := dropBlocks (if t.pack = .leader then strayAll s k else strayOne s k) k fun _ => true
      s.modThr k fun t => t.trap (s.ctx t.ctx) (s.cycThr k) cls efault ret

/-- A fault of the oldest block: the block and every younger one are discarded, `epc` names the block (R413). -/
def trapBlock (s : State) (k : Nat) (f : Frame) (cls : Nat) (efault : Word) : State :=
  match s.thr k with
  | none => s
  | some t =>
    if t.spec.tstat.getLsbD 2 then killCtx s t.ctx 0xFE
    else takeTrap (discardFrom s k f.seq) k cls efault f.addr

/-- Returning from a trap (R431): the next block address from EPCHI and `epc`, SUP from PSUP, EXL cleared. -/
def Thread.eret (t : Thread) (tstat epc : Word) : Thread :=
  { t with
    pc := ((tstat >>> 16).setWidth 80 &&& 0xFFFF#80) <<< 64 ||| epc.setWidth 80
    spec := { t.spec with
      tstat := (t.spec.tstat &&& ~~~5#64) ||| (if tstat.getLsbD 1 then 1#64 else 0#64) } }

end Sys2Proof.Machine
end

