-- ==== Sys2Proof/Machine/Control.lean ====
section
/-! DEFINITION. Exits: firing one (R197, R199), what it does to younger blocks (R166) and to a pack (R171, R172), and the
branch instructions (R249 to R256). -/

namespace Sys2Proof.Machine

/-- Add to a counter of PERFR, modulo 2^64 (R435). -/
def Thread.count (t : Thread) (sel n : Nat) : Thread :=
  { t with perf := tset t.perf sel ((tget t.perf sel).getD 0 + BitVec.ofNat 64 n) }

/-- The place of a block among all blocks of its thread (R172): those committed and those in flight before it. -/
def Thread.place (t : Thread) (q : Nat) : Nat := t.pos + (t.older q).length

/-- Discard the blocks younger than block `q`, counting them as discarded by misprediction (R166, R435). -/
def dropYounger (s : State) (k q : Nat) : State :=
  match s.thr k with
  | none => s
  | some t =>
    let ys := t.frames.filter fun f => q < f.seq
    match ys with
    | [] => s
    | y :: _ => discardFrom (s.modThr k (·.count 3 ys.length)) k y.seq

/-- Where a leader goes after the block at place `p`, if it is known (R172): the exit of its copy, or its next-block
address. A leader that has committed further has delivered its next block to the member: `nx`. -/
def leaderNext (l : Thread) (p : Nat) (nx : Option VAddr) : Option (VAddr × Nat) :=
  if l.pos ≤ p then (l.frames[p - l.pos]?).bind fun f => f.exit.map fun x => (x.dest, x.kind)
  else if l.pos = p + 1 then some (l.pc, 0)
  else nx.map fun a => (a, 0)

/-- A following member strays at its block `q`: it discards its copies of every younger block (R172). -/
def strayAt (s : State) (k q : Nat) : State := strayOne (dropBlocks s k fun f => q < f.seq) k

/-- A following member compares its exit with its leader's (R172). -/
def memberExit (s : State) (k q : Nat) (x : Exit) : State :=
  match s.thr k with
  | none => s
  | some t =>
    match t.pack with
    | .following l =>
      match (s.thr l).bind fun u => leaderNext u (t.place q) ((t.frames.find? fun f => q < f.seq).map (·.addr)) with
      | some d => if d.1 = x.dest && (d.2 = x.kind || d.2 < 3 && x.kind < 3) then s else strayAt s k q
      | none => s
    | _ => s

/-- A leader's exit fires: members whose copy left elsewhere stray, also when they have committed it already (R172). -/
def leaderExit (s : State) (k q : Nat) (x : Exit) : State :=
  let p := (s.thr k).elim 0 (·.place q)
  (members s k).foldl (fun s e =>
    match e.2.pack, e.2.frames.find? (·.lead == some q) with
    | .following _, some f =>
      match f.exit with
      | some y => if y.dest = x.dest && (y.kind = x.kind || y.kind < 3 && x.kind < 3) then s else strayAt s e.1 f.seq
      | none => s
    | .following _, none => if e.2.pos = p + 1 && e.2.pc != x.dest then strayOne s e.1 else s
    | _, _ => s) s

/-- Remember an exit in the next-block predictor of grid 0 of the core (R257). -/
def learn (s : State) (k : Nat) (f : Frame) (x : Exit) : State :=
  s.modGrid (coreGrid0 (gridOfThr k) f.width) fun g =>
    { g with tbuf := (g.tbuf.filter fun e => !(e.1 == f.addr && e.2.1 == x.num)) ++ [(f.addr, x.num, x.dest, x.kind)] }

/-- Fire an exit of block `q` from a slot (R197, R199): a second one is a collision; younger blocks on another path are
discarded (R166, R256, R431). -/
def fireExit (s : State) (k q slot : Nat) (x : Exit) : State :=
  match s.thr k, s.frame k q with
  | some t, some f =>
    if f.exit.isSome then s.modFrame k q fun f => { f with colls := f.colls ++ [(0x23, slot)] }
    else
      let s := learn (s.modFrame k q fun f => { f with exit := some x }) k f x
      let s := match t.frames.find? fun y => q < y.seq with
        | some y =>
          if x.kind < 3 && y.addr = x.dest then s
          else match t.pack with
            | .following _ => s
            | _ => dropYounger s k q
        | none => s
      match t.pack with
      | .following _ => memberExit s k q x
      | .leader => leaderExit s k q x
      | _ => s
  | _, _ => s

/-- The instruction of the current slot fires an exit. -/
def fireBranch (s : State) (f : Frame) (x : Exit) : State :=
  fireExit (s.putFrame (f.fireAt s.cur.2.2)) s.cur.1 s.cur.2.1 s.cur.2.2 x

/-- The destination of BR and CALL (R249). -/
def relDest (f : Frame) (off : BitVec 20) : VAddr := f.addr + 128#80 * off.signExtend 80
/-- The destination of BRI and RET (R249). -/
def regDest (f : Frame) (a : Word) : VAddr := (f.addr >>> 64) <<< 64 ||| a.setWidth 80

/-- A branch that takes no operand fires when its block is mapped or its predicate matches (R249). -/
def branch0 (s : State) (p : BitVec 2) (x : Frame → Exit) : Host.Outcome State Fault Refusal :=
  fireWith s p false false false (fun _ f => s.putFrame (f.skipAt s.cur.2.2)) (fun _ f _ _ _ => fireBranch s f (x f))

/-- A branch on operand a: with a null a it does not fire (R196). -/
def branch1 (s : State) (p : BitVec 2) (x : Frame → Word → Exit) : Host.Outcome State Fault Refusal :=
  fireWith s p true false false (fun _ f => s.putFrame (f.skipAt s.cur.2.2))
    (fun _ f a _ _ => fireBranch s f (x f a.word))

/-- BR (R249). -/
def execBr (f : BF) (s : State) : Host.Outcome State Fault Refusal :=
  branch0 s f.p fun b => ⟨f.ex.toNat, relDest b f.off, 0, 0⟩

/-- CALL (R249); link and kill at commit (R250, R251). -/
def execCall (f : BF) (s : State) : Host.Outcome State Fault Refusal :=
  branch0 s f.p fun b => ⟨f.ex.toNat, relDest b f.off, 1, 0⟩

/-- BRI (R249). -/
def execBri (f : BrF) (s : State) : Host.Outcome State Fault Refusal :=
  branch1 s f.p fun b a => ⟨f.ex.toNat, regDest b a, 0, 0⟩

/-- RET (R249); kill at commit (R251). -/
def execRet (f : BrF) (s : State) : Host.Outcome State Fault Refusal :=
  branch1 s f.p fun b a => ⟨f.ex.toNat, regDest b a, 2, 0⟩

/-- SCALL fires an exit; the trap is taken after its block commits (R256). -/
def execScall (f : BF) (s : State) : Host.Outcome State Fault Refusal :=
  branch0 s f.p fun b => ⟨f.ex.toNat, b.retAddr, 3, f.off.toNat⟩

/-- A supervisor-only form in a block fetched with SUP = 0 performs nothing and is held as class 0x12, code 0x16 (R429). -/
def Frame.privileged (f : Frame) (slot : Nat) (lsid : Option Nat) : Option Frame :=
  if f.sup then none else some (f.hold 0x12 (efaultOf slot 0x16 lsid) lsid slot)

/-- ERET fires its exit; what it restores is taken at commit (R431). -/
def execEret (f : EretF) (s : State) : Host.Outcome State Fault Refusal :=
  fireWith s f.p false false false (fun _ b => s.putFrame (b.skipAt s.cur.2.2))
    (fun _ b _ _ _ =>
      match (b.fireAt s.cur.2.2).privileged s.cur.2.2 none with
      | some b' => s.putFrame b'
      | none => fireBranch s b ⟨f.ex.toNat, b.retAddr, 4, 0⟩)

/-- TRAP marks its block (R430). -/
def execTrap (f : TrapF) (s : State) : Host.Outcome State Fault Refusal :=
  fireWith s f.p false false false (fun _ b => s.putFrame (b.skipAt s.cur.2.2))
    (fun _ b _ _ _ =>
      let i := s.cur.2.2
      s.putFrame ((b.fireAt i).hold 0x11 (f.code.toNat + 65536 * i) none i))

/-- A waiting PERFR produces its counter once every older block of its thread has committed (R435). -/
def stepPerfr (g : PerfrF) (s : State) (k : Nat) (t : Thread) (f : Frame) (o : Op) : State :=
  if t.isOldest f.seq then stepDone s k f o (.s ((tget t.perf g.sel.toNat).getD 0)) else s

/-- PERFR (R435): it fires when its block is mapped and waits. -/
def execPerfr (f : PerfrF) (s : State) : Host.Outcome State Fault Refusal :=
  fireStep s (.perfr f) f.p false false false none [f.t0, f.t1] (stepPerfr f)

end Sys2Proof.Machine
end

