-- ==== Sys2Proof/Machine/Access.lean ====
section
/-! DEFINITION. The memory pipeline of a grid: what an access names (R258, R263), store-to-load forwarding and violations
(R279, R280), the order rules of an access (R70, R130, R133, R276), the L1 (R45 to R47), the requests it makes (R62), and
what a reply delivers (R101, R103, R104). -/

namespace Sys2Proof.Machine

/-! ### What an instruction accesses -/

/-- The operation code of an atomic for its home (R270). -/
def atomicOp (i : Instr) : Nat :=
  match i with
  | .aadd _ => 0
  | .aand _ => 1
  | .aor _ => 2
  | .axor _ => 3
  | .amin _ => 4
  | .amax _ => 5
  | .aminz _ => 6
  | .amaxz _ => 7
  | .axchg _ => 8
  | .acas _ => 9
  | .afaddF32 _ => 10
  | _ => 11

/-- What an access needs of its page (R24): W for stores, scatters, atomics and LINV. -/
def needOf (i : Instr) (a : Acc) : Need :=
  match i with
  | .linv _ => 1
  | _ => if a.kind = 1 || a.kind = 2 || a.kind = 5 then 1 else 0

/-- The part of an access from virtual address `va`, before it is translated. -/
def Part.mk0 (va off len : Nat) (data : List (Option Byte)) (st : PartSt) : Part :=
  { va := va, off := off, len := len, data := data, pa := none, cls := 0, kind := 0, st := st, sig := Sig.empty }

/-- The one or two line requests of `n` bytes from effective address `e` (R44), or a failure of R16; that its record names the
page of the first byte is the model's choice (log 113), and that cause 0x7 comes before the checks of the window (log 128). -/
def partsAt (pre : Nat) (e : Word) (off n : Nat) (data : List (Option Byte)) : List Part :=
  let va := expand pre e
  if !oneRegion e n then [Part.mk0 va off n data (.fail 7 0)]
  else
    let n1 := Nat.min n (64 - va % 64)
    let p1 := Part.mk0 va off n1 (data.take n1) .want
    if n1 = n then [p1] else [p1, Part.mk0 (va + n1) (off + n1) (n - n1) (data.drop n1) .want]

/-- Bytes of which none is known yet. -/
def noBytes (n : Nat) : List (Option Byte) := List.replicate n none

/-- The index of a GATHER or SCATTER lane, sign-extended (R267). -/
def laneIndex (b : Vec) (n i : Nat) : Word :=
  if n = 4 then (bits b (32 * i) 32).signExtend 64 else bits b (64 * i) 64

/-- The parts of a GATHER or SCATTER (R267). -/
def laneParts (pre : Nat) (f : MemF) (a : Word) (b : Vec) (data : Nat → List (Option Byte)) : List Part :=
  let n := memSize f.size
  (List.range (64 / n)).flatMap fun i =>
    partsAt pre (a + (laneIndex b n i <<< (bits f.off 0 3).toNat)) (n * i) n (data i)

/-- The low `n` bytes of a token. -/
def tokBytes (x : Tok) (n : Nat) : List (Option Byte) := (leBytes n x.vec.toNat).map some

/-- The effective address of an access: operand a plus the sign-extended offset (R258, R263). -/
def effAddr (i : Instr) (a : Word) : Word :=
  match i with
  | .ldb f => a + f.imm.signExtend 64
  | .ldh f => a + f.imm.signExtend 64
  | .ldw f => a + f.imm.signExtend 64
  | .ldd f => a + f.imm.signExtend 64
  | .ldbs f => a + f.imm.signExtend 64
  | .ldhs f => a + f.imm.signExtend 64
  | .ldws f => a + f.imm.signExtend 64
  | .ldv f => a + f.imm.signExtend 64
  | .stb f => a + f.imm.signExtend 64
  | .sth f => a + f.imm.signExtend 64
  | .stw f => a + f.imm.signExtend 64
  | .std f => a + f.imm.signExtend 64
  | .stv f => a + f.imm.signExtend 64
  | .ld f => a + f.off.signExtend 64
  | .st f => a + f.off.signExtend 64
  | .pref f => a + f.off.signExtend 64
  | .lflush f => a + f.off.signExtend 64
  | .linv f => a + f.off.signExtend 64
  | .aadd f => a + f.off.signExtend 64
  | .aand f => a + f.off.signExtend 64
  | .aor f => a + f.off.signExtend 64
  | .axor f => a + f.off.signExtend 64
  | .amin f => a + f.off.signExtend 64
  | .amax f => a + f.off.signExtend 64
  | .aminz f => a + f.off.signExtend 64
  | .amaxz f => a + f.off.signExtend 64
  | .axchg f => a + f.off.signExtend 64
  | .acas f => a + f.off.signExtend 64
  | .afaddF32 f => a + f.off.signExtend 64
  | .afaddBf16x2 f => a + f.off.signExtend 64
  | _ => a

/-- The parts of an access (R44, R258, R267). -/
def mkParts (pre : Nat) (i : Instr) (x : Acc) (a b c : Tok) : List Part :=
  match i with
  | .gather f => laneParts pre f a.word b.vec fun _ => noBytes x.size
  | .scatter f => laneParts pre f a.word b.vec fun j => tokBytes (.v (c.vec >>> (8 * x.size * j))) x.size
  | _ => partsAt pre (effAddr i a.word) 0 x.size (if x.kind = 1 then tokBytes b x.size else noBytes x.size)

/-! ### Program order within a thread (R116, R279) -/

/-- The tracked instructions of a block that carry an LSID, in LSID order. -/
def Frame.inOrder (f : Frame) : List Op := (List.range 32).filterMap fun l => f.ops.find? (·.lsid == some l)

/-- The tracked instructions of a thread before LSID `l` of block `f`, oldest first. -/
def opsBefore (t : Thread) (f : Frame) (l : Nat) : List Op :=
  (t.older f.seq).flatMap (·.inOrder) ++ f.inOrder.filter fun o => o.lsid.any (· < l)

/-- Whether `(q', l')` comes after `(q, l)` in program order. -/
def afterIn (q l q' l' : Nat) : Bool := q < q' || (q == q' && l < l')

/-- The byte that parts hold for a virtual address, the last one standing. -/
def byteIn (ps : List Part) (va : Nat) : Option Byte :=
  ps.foldl (fun acc p => if p.va ≤ va && va < p.va + p.len then (p.data.getD (va - p.va) none) <|> acc else acc) none

/-- The bytes that earlier stores of the thread give a load's part, laid over what it has received already (R279). -/
def forwarded (ops : List Op) (p : Part) : List (Option Byte) :=
  let ps := ops.flatMap (·.stored)
  (List.range p.len).map fun i => byteIn ps (p.va + i) <|> (p.data.getD i none)

/-- Whether an instruction's parts meet a range of virtual addresses. -/
def Op.meetsVa (o : Op) (va n : Nat) : Bool := o.parts.any fun p => meets p.va p.len va n

/-- Whether an earlier atomic that has not replied overlaps a load's part (R279). -/
def atomicPending (ops : List Op) (p : Part) : Bool :=
  ops.any fun o => o.ans.isNone && o.acc.any (·.kind == 2) && o.meetsVa p.va p.len

/-! ### Which instructions of a block are acquires, loads or qualified accesses -/

/-- An acquire as R276 names them: an `.acq`, `.fe` or `.fec` load, an acquiring atomic, FENCE.acq, FENCE.ar, BARW. -/
def acquireWord (w0 w1 : Slot32) : Bool :=
  (opc w0 == 0x40 && (xop w0 == 0 || 8 ≤ xop w0) && (bits w1 14 1 == 1#1 || (xop w0 == 0 && bits w1 16 2 != 0#2))) ||
  (opc w0 == 0x41 && (xop w0 == 2 || (xop w0 == 0 && bits w1 14 1 == 1#1)))

/-- A fence that is an acquire. -/
def fenceWord (w0 : Slot32) : Bool := opc w0 == 0x41 && xop w0 == 0

/-- MWAIT, MPOLL, LCWAIT and CWAIT, whose token is an acquire once the command has completed (R115). -/
def waitWord (w0 : Slot32) : Bool :=
  opc w0 == 0x4B || (opc w0 == 0x4C && xop w0 == 5) || (opc w0 == 0x4D && xop w0 == 5)

/-- A load or atomic, as R276 waits for them. -/
def loadWord (w0 : Slot32) : Bool :=
  (0x20 ≤ opc w0 && opc w0 ≤ 0x27) || (opc w0 == 0x40 && (xop w0 == 0 || xop w0 == 2 || 8 ≤ xop w0)) ||
  (opc w0 == 0x51 && xop w0 == 0) || (opc w0 == 0x50 && xop w0 == 2)

/-- An atomic. -/
def atomicWord (w0 : Slot32) : Bool := opc w0 == 0x40 && 8 ≤ xop w0

/-- A `.fe` or `.fec` load or a `.fe` store (R69, R70). -/
def qualWord (w0 w1 : Slot32) : Bool :=
  opc w0 == 0x40 && ((xop w0 == 0 && bits w1 16 2 != 0#2) || (xop w0 == 1 && bits w1 16 2 == 1#2))

/-- The first slots of a block's instructions, with their words. -/
def Frame.slots (f : Frame) : List (Nat × Slot32 × Slot32) :=
  let ws := f.words
  ((slotStarts ws 128 0).filter fun i => wordAt ws i != 0#32).map fun i => (i, wordAt ws i, wordAt ws (i + 1))

/-- The slots of a block below an LSID whose words satisfy a test. -/
def Frame.below (f : Frame) (l : Nat) (p : Slot32 → Slot32 → Bool) : List (Nat × Slot32) :=
  (f.slots.filter fun x => p x.2.1 x.2.2 && (lsidOf x.2.1 x.2.2).any (·.1 < l)).map fun x => (x.1, x.2.1)

/-- Whether an instruction has returned its value, or was resolved without firing (R276). -/
def Frame.returned (f : Frame) (i : Nat) : Bool := f.skipped.contains i || (f.op i).any fun o => o.nul || o.ans.isSome

/-- Whether every load and atomic of a block has returned or was resolved without firing. -/
def Frame.loadsBack (f : Frame) : Bool := f.stage != 0 && f.slots.all fun x => !loadWord x.2.1 || f.returned x.1

/-- R276: whether nothing holds a load or atomic at LSID `l` back: acquires of lower LSIDs in its block, and with them every load
and atomic before them, those of older blocks included (R126, R127). -/
def acquireOk (t : Thread) (f : Frame) (l : Nat) : Bool :=
  let acqs := (f.below l acquireWord).filter fun x => !f.skipped.contains x.1
  acqs.all (fun x => f.fired.contains x.1 && (fenceWord x.2 || f.returned x.1)) &&
    (acqs = [] || ((f.below l fun w _ => loadWord w).all fun x => f.returned x.1) && (t.older f.seq).all Frame.loadsBack)

/-- The acquiring fences below an LSID that have not yet applied the arrived signature (R276). -/
def fencesDue (f : Frame) (l : Nat) : List Op :=
  f.ops.filter fun o => !o.nul && o.stage == 0 && o.lsid.any (· < l) &&
    match o.i with
    | .fence x => x.ord.getLsbD 0 && x.scope != 0#3
    | _ => false

/-- Whether an older block, or a wait for a command below LSID `l` of the block itself, may still hold an acquire that has
not returned; an access that leaves no copy at its grid waits for it (R126 to R128, R276). -/
def olderAcquire (t : Thread) (f : Frame) (l : Nat) : Bool :=
  ((t.older f.seq).any fun f => f.stage == 0 || f.slots.any fun x => (acquireWord x.2.1 x.2.2 || waitWord x.2.1) &&
    (if fenceWord x.2.1 then !f.skipped.contains x.1 else !f.returned x.1)) ||
  (f.below l fun w _ => waitWord w).any fun x => !f.returned x.1

/-- Whether a block has fired a device access, or a system register access (R25, R432). -/
def Frame.hasDevice (f : Frame) : Bool :=
  f.ops.any fun o => !o.nul && (o.parts.any (fun p => p.kind == 2 || p.kind == 4) ||
    match o.i with
    | .srr _ => true
    | .srw _ => true
    | _ => false)

/-- The grids in which an acquire of a block applies its signature: those of the block's core and of its thread's (R104, R145). -/
def acqGrids (k : Nat) (t : Thread) (f : Frame) : List Nat :=
  (coreGrids (gridOfThr k) f.width ++ coreGrids (gridOfThr k) t.width).eraseDups

/-! ### The L1 and lines in flight -/

/-- A line of an L1. -/
def Grid.line (x : Grid) (line : Nat) : Option L1Line := x.l1.find? (·.line == line)
/-- Put a line into an L1, as the one used last. -/
def Grid.putLine (x : Grid) (l : L1Line) : Grid := { x with l1 := x.l1.filter (·.line != l.line) ++ [l] }
/-- Change a line of an L1 where it stands. -/
def Grid.setLine (x : Grid) (l : L1Line) : Grid := { x with l1 := x.l1.map fun y => if y.line = l.line then l else y }
/-- An access uses a line of an L1 (R45). -/
def Grid.useLine (x : Grid) (line : Nat) : Grid :=
  match x.line line with
  | some l => x.putLine l
  | none => x
/-- Remove a line from an L1. -/
def Grid.dropLine (x : Grid) (line : Nat) : Grid := { x with l1 := x.l1.filter (·.line != line) }

/-- The first grid of a core whose L1 holds a line: for an `.own` access (R120) only an `.own` copy serves. -/
def coreLine (s : State) (gs : List Nat) (line : Nat) (own : Bool) : Option (Nat × L1Line) :=
  gs.findSome? fun g => ((s.grid g).line line).bind fun l => if own && l.cls != 1 then none else some (g, l)

/-- The bytes of the granules of a line that are dirty. -/
def dirtyBytes (l : L1Line) : List (Option Byte) :=
  l.data.zipIdx.map fun x => if l.dirty.getLsbD (x.2 / 16) then some x.1 else none

/-- Send a write-back of a line's dirty granules (R46, R93). A line held in E is written back as its owner's (`keep`
leaves a shared copy with the grid); others replace their granules at the home. -/
def writeBack (s : State) (g : Nat) (l : L1Line) (keep evict : Bool) : State :=
  let m := { Msg.mk0 (if l.excl then .ownWb else .siWb) (.grid g) with
    pa := 64 * l.line, len := 64, data := dirtyBytes l, wr := true, agent := g + 1, sub := if keep then 1 else 0,
    poison := l.poison &&& l.dirty }
  let n := s.fresh
  let s := s.send m
  if evict then s.modGrid g fun x => { x with wb := x.wb ++ [n] } else s

/-! ### Squashing -/

/-- Discard block `q` and every younger block, to be replayed from fetch; a member strays there (R172, R280). -/
def squashAt (s : State) (k q : Nat) : State :=
  match (s.thr k).map (·.pack) with
  | some (Pack.following _) => strayOne (dropFrom s k q) k
  | _ => discardFrom s k q

/-- The oldest block of a thread that holds a tracked instruction after `(q, l)` satisfying a test. -/
def victim (t : Thread) (q l : Nat) (hit : Op → Bool) : Option Nat :=
  (t.frames.find? fun f => f.ops.any fun o => o.lsid.any (fun l' => afterIn q l f.seq l') && hit o).map (·.seq)

/-- Whether a load has a performed part that satisfies a test. -/
def Op.performed (o : Op) (hit : Part → List Byte → Bool) : Bool :=
  o.acc.any (fun x => x.kind == 0 || x.kind == 4) && o.parts.any fun p =>
    match p.st with
    | .got bs _ => hit p bs
    | _ => false

/-- Whether a load or atomic has read a place that satisfies a test. -/
def Op.hasRead (o : Op) (hit : Part → Bool) : Bool :=
  o.acc.any (fun x => x.kind == 0 || x.kind == 2 || x.kind == 4) && o.parts.any fun p =>
    match p.st with
    | .got _ _ => hit p
    | _ => false

/-- The line leaves a grid while an acquire of one of its threads has not returned: later loads of it are replayed
(R276, R128). -/
def lineLeaves (s : State) (g line : Nat) : State :=
  s.thrs.foldl (fun s e =>
    if cluOf e.1 != cluOfGrid g then s
    else
      match s.thr e.1 with
      | none => s
      | some t =>
        if !(coreGrids (gridOfThr e.1) t.width).contains g && !(t.frames.any fun f => (coreGrids (gridOfThr e.1) f.width).contains g) then s
        else
          match t.frames.find? fun f => f.ops.any fun o => olderAcquire t f (o.lsid.getD 0) &&
              o.performed fun p _ => p.kind == 0 && p.pa.any fun pa => lineOf pa == line with
          | some f => squashAt s e.1 f.seq
          | none => s) s

/-! ### Copies of a core -/

/-- Write back and drop the `.wt` and `.si` copies of a line in a core (R120). -/
def dropSelf (s : State) (gs : List Nat) (line : Nat) : State :=
  gs.foldl (fun s g =>
    match (s.grid g).line line with
    | some l =>
      if l.cls = 1 then s
      else
        let s := if l.dirty = 0#4 then s else writeBack s g l false false
        lineLeaves (s.modGrid g (·.dropLine line)) g line
    | none => s) s

/-- Whether a message is a line request of a grid, or its reply. -/
def Msg.lineReq (m : Msg) : Bool :=
  match m.kind with
  | .ownLoad | .ownership | .wtSiLoad => true
  | .reply => m.sub != 0
  | _ => false

/-- Stop the lines in flight to a core for one line from being installed or joined: a copy they brought could be older
than a store, a load or an acquire of the core (R105, R120). -/
def noInstall (s : State) (gs : List Nat) (hit : Msg → Bool) : State :=
  { s with net := s.net.map fun (e : Nat × Msg) =>
      if e.2.agent != 0 && gs.contains (e.2.agent - 1) && e.2.lineReq && hit e.2 then (e.1, { e.2 with takes := 1 }) else e }

/-- A request for a line that an access of class `cls` can join (R62): what the access needs must be what it asks. -/
def joinable (s : State) (g line : Nat) (cls : Nat) (excl : Bool) (ctx gen : Nat) : Option Nat :=
  (s.net.find? fun e =>
    let m := e.2
    m.agent == g + 1 && lineOf m.pa == line && m.takes == 0 && m.ctx == ctx && m.gen == gen &&
    (match m.src with | .fetch _ _ _ _ => false | _ => true) &&
    match m.kind with
    | .ownership => true
    | .ownLoad => !excl
    | .wtSiLoad => !excl && cls != 1
    | .reply => if m.sub = 1 then true else m.sub = 2 && !excl && (m.cls == 1 || cls != 1)
    | _ => false).map (·.1)

/-- The node a line request of a grid goes to first: the proxy of the grid's die for a line of another die (R94, R95). -/
def lineNode (g pa : Nat) : Nat :=
  if homeDie pa != g / 640 then g / 640 + 1 else 0

/-- Whether a committed store of a thread to a line is still on its way; the thread's loads of the line wait for it (R120). -/
def storeInFlight (s : State) (k line : Nat) : Bool :=
  s.net.any fun e => lineOf e.2.pa == line && e.2.isStore && match e.2.src with
    | .store _ t => t == k
    | _ => false

/-- Whether the thread still has a device store on its way (R133). -/
def deviceStore (s : State) (k : Nat) : Bool :=
  s.net.any fun e => e.2.cls == 5 && e.2.wr && match e.2.src with | .store _ t => t == k && e.2.kind != .ack | _ => false

/-- Whether a miss register is free for a request of a block: the requests of older blocks that wait take theirs first, and one is left
for the stores of an older block that is being committed (R62). -/
def regFree (s : State) (g : Nat) (t : Thread) (q : Nat) : Bool :=
  (s.grid g).mshr.length < 32 &&
  !((t.older q).any fun f => f.ops.any fun o => o.parts.any fun p => p.st == .want && p.pa.isSome) &&
  ((s.grid g).mshr.length < 31 || !(t.older q).any fun f => f.stage == 2 && f.ops.any fun o => o.stored.any (·.st != .got [] true))

/-- A part in flight whose request satisfies a test waits again. -/
def Part.again (hit : Part → Nat → Bool) (p : Part) : Part :=
  match p.st with
  | .sent n => if hit p n then { p with st := .want } else p
  | _ => p

/-- The parts of a load after `(q, l)` in block `q'` that are in flight and satisfy a test wait again. -/
def Op.again (q l q' : Nat) (hit : Part → Nat → Bool) (o : Op) : Op :=
  if o.lsid.any (fun l' => afterIn q l q' l') && o.acc.any (fun x => (x.kind == 0 && x.fe == 0) || x.kind == 4) then
    { o with parts := o.parts.map (Part.again hit) }
  else o

/-- Reset the parts of later loads of a thread that are in flight and satisfy a test: they are sent again. -/
def resend (t : Thread) (q l : Nat) (hit : Part → Nat → Bool) : Thread :=
  { t with frames := t.frames.map fun f => { f with ops := f.ops.map (Op.again q l f.seq hit) } }

/-- Applying a signature at the grids of a core (R104, R145): matching `.wt` and `.si` lines are invalidated, dirty granules
written back first; the signature joins the pending signatures; later loads that had read a matching line are
replayed. -/
def applySig (s : State) (k q l : Nat) (gs : List Nat) (x : Sig) : State :=
  let s := gs.foldl (fun s g =>
    let gone := (s.grid g).l1.filter fun (y : L1Line) => y.cls != 1 && x.has y.line
    let s := (gone.filter fun y => y.dirty != 0#4).foldl (fun s y => writeBack s g y false false) s
    let s := s.modGrid g fun z => { z with l1 := z.l1.filter fun y => !gone.contains y, pend := z.pend.or x }
    gone.foldl (fun s y => lineLeaves s g y.line) s) s
  let s := noInstall s gs fun m => m.kind != .ownLoad && m.kind != .ownership && m.cls != 1 && x.has (lineOf m.pa)
  let inLine := fun (p : Part) => p.pa.any fun pa => x.has (lineOf pa)
  let s := s.modThr k fun t => resend t q l fun p _ => inLine p
  match (s.thr k).bind fun t => victim t q l fun o => o.performed fun p _ => inLine p with
  | some v => squashAt s k v
  | none => s

/-! ### Accesses of the Sheepdog and the trap hardware -/

/-- The holders of a line beyond the package give it back at once to an access of the Sheepdog or of the trap hardware; the bytes of
an exclusive holder are a free value (R112, log 13). -/
def filterBack (s : State) (line : Nat) : State :=
  let d := homeDie (64 * line)
  match tget (s.die d).filter line with
  | none => s
  | some (_, ex) =>
    let s := s.modDie d fun y => { y with filter := tdel y.filter line }
    if !ex then s
    else { s with fresh := s.fresh + 1 }.merge (64 * line)
      ((List.range 64).map fun i => some (Config.remoteByte s.fresh (64 * line + i))) 0

/-- Whether an engine's ownership or a block's reservation on a line keeps an access of the Sheepdog or the trap hardware waiting at its
home (R85, R271). -/
def hwBlocked (s : State) (pa n : Nat) : Bool :=
  let inside := fun (l : Nat) => lineOf pa ≤ l && l < (pa + n + 63) / 64
  s.dirs.any (fun e => e.2.st == .eo && inside e.1) || s.resvs.any fun r => inside (lineOf r.pa)

/-- The home takes a line back from every copy, as a host write does (R91, R113): dirty granules are merged, block-cache copies
and the holders beyond the package give it up, write-backs on their way are taken in, copies in flight are not
installed. Without `self` the self-managed copies stay, as for an ownership request. -/
def hwRecall (s : State) (line : Nat) (self : Bool) : State :=
  let gs := s.grids.map (·.1)
  let s := s.net.foldl (fun s (e : Nat × Msg) =>
    if lineOf e.2.pa = line && e.2.st ≤ 1 && (e.2.kind = .ownWb || (self && e.2.kind = .siWb)) then
      (s.merge e.2.pa e.2.data e.2.poison).answer e.1 { e.2 with kind := .ack, st := 0 }
    else s) s
  let s := gs.foldl (fun s g =>
    let s := s.modGrid g fun x => { x with bc := tdel x.bc line }
    match (s.grid g).line line with
    | some l => if l.cls != 1 && !self then s
      else lineLeaves ((s.merge (64 * line) (dirtyBytes l) l.poison).modGrid g (·.dropLine line)) g line
    | none => lineLeaves s g line) s
  let s := noInstall (filterBack s line) gs fun m => (self || m.cls == 1 || m.kind != .wtSiLoad) && lineOf m.pa == line
  (List.range 9).foldl (fun s n =>
    let d := s.dir n line
    if d.st = .eo then s
    else s.setDir n line (if self then Dir.none else dirSettle { d with st := if d.st = .i then .i else .s, own := .empty, up := .i } 0 false)) s

/-- The Sheepdog or the trap hardware writes at a home, where `data` has bytes: every copy of their lines is recalled, and a granule
written whole is no longer poisoned (R65). -/
def hwPut (s : State) (pa : Nat) (data : List (Option Byte)) : State :=
  let n := (pa + data.length + 63) / 64 - pa / 64
  let s := (List.range n).foldl (fun s i => hwRecall s (pa / 64 + i) true) s
  if !s.holdsLine (lineOf pa) then s
  else { s with
    mem := mwriteOpt s.mem pa data
    poison := (List.range n).foldl (fun p i =>
      let a := Nat.max pa (64 * (pa / 64 + i))
      mergePoison p a (data.drop (a - pa)) 0) s.poison }

/-- Store bytes at their home as the Sheepdog or the trap hardware does. -/
def hwStore (s : State) (pa : Nat) (bs : List Byte) : State := hwPut s pa (bs.map some)

/-- Read bytes at their home, dirty copies merged first. -/
def hwRead (s : State) (pa n : Nat) : State × List Byte :=
  let s := (List.range ((pa + n + 63) / 64 - pa / 64)).foldl (fun s i => hwRecall s (pa / 64 + i) true) s
  (s, s.readHome pa n)

/-! ### Performing -/

/-- Whether an access of a class at a place is tracked (R129). -/
def tracked (cls kind : Nat) : Bool := kind == 2 || kind == 3 || cls == 1 || cls == 4

/-- Enter the line of a performed access into the block's signatures (R108, R72). -/
def enter (s : State) (k q pa : Nat) (rd wr : Bool) : State :=
  s.modFrame k q fun f => { f with
    rsig := if rd then f.rsig.insert (lineOf pa) else f.rsig
    wsig := if wr then f.wsig.insert (lineOf pa) else f.wsig }

/-- Update part `j` of the tracked instruction of a slot. -/
def Frame.modPart (f : Frame) (i j : Nat) (g : Part → Part) : Frame :=
  f.modOp i fun o => { o with parts := o.parts.zipIdx.map fun x => if x.2 = j then g x.1 else x.1 }

/-- Update a part of a tracked instruction. -/
def State.modPart (s : State) (k q i j : Nat) (g : Part → Part) : State := s.modFrame k q (·.modPart i j g)

/-- The bytes of an access, from its performed parts. -/
def accBytes (o : Op) (n : Nat) : List Byte :=
  (List.range n).map fun i =>
    (o.parts.findSome? fun p =>
      match p.st with
      | .got bs _ => if p.off ≤ i && i < p.off + p.len then bs[i - p.off]? else none
      | _ => none).getD 0

/-- A loaded number as a token (R260, R263). -/
def loadTok (n : Nat) (sx : Bool) (bs : List Byte) : Tok :=
  if n = 64 then .v (BitVec.ofNat 512 (leNat bs))
  else
    let x := BitVec.ofNat (8 * n) (leNat bs)
    .s (if sx then x.signExtend 64 else x.setWidth 64)

/-- The token an atomic sends for its old value (R270). -/
def atomicTok (i : Instr) (n v : Nat) : Tok :=
  match i with
  | .afaddF32 _ => .s (BitVec.ofNat 64 (v % 2 ^ 32))
  | .afaddBf16x2 _ => .s (BitVec.ofNat 64 (v % 2 ^ 32))
  | _ => .s (if n = 4 then (BitVec.ofNat 32 v).signExtend 64 else BitVec.ofNat 64 v)

/-- What a CALLI does with the function-table entry it read (R253, R255). -/
def calliEntry (s : State) (k q : Nat) (o : Op) (x : CalliF) : State :=
  let bs := accBytes o 16
  let tgt := leNat (bs.take 10)
  let sig := leNat ((bs.drop 10).take 2)
  let fl := leNat (bs.drop 12)
  let s := s.modFrame k q (·.modOp o.slot fun o => { o with ans := some .null })
  if fl != 0 || sig != x.sig.toNat then
    s.modFrame k q (·.hold 0x05
      (x.sig.toNat + 65536 * sig + (if fl != 0 then 2 ^ 33 else 0) + 2 ^ 34 * o.slot) o.lsid o.slot)
  else fireExit s k q o.slot ⟨x.ex.toNat, BitVec.ofNat 80 tgt, 1, 0⟩

/-- The targets of an instruction's result. -/
def resTargets (i : Instr) : List (BitVec 9) := i.targets

/-- Give an instruction its result and send it (R163). -/
def answerOp (s : State) (k q slot : Nat) (i : Instr) (x : Tok) : State :=
  s.modFrame k q fun f => (f.modOp slot fun o => { o with ans := some x }).send (resTargets i) x

/-- Every part of a load or atomic has been performed: it produces its value; an acquire applies the signature its reply
carried (R103). -/
def finishLoad (s : State) (k q slot : Nat) : State :=
  match s.thr k, s.frame k q with
  | some t, some f =>
    match f.op slot with
    | none => s
    | some o =>
      match o.acc with
      | none => s
      | some x =>
        if o.ans.isSome || !(o.parts.all fun p => match p.st with | .got _ _ => true | _ => false) then s
        else
          let pz := o.parts.any fun p => match p.st with | .got _ z => z | _ => false
          let s := if pz then s.modFrame k q (·.hold 0x08 (efaultOf slot 0x14 o.lsid) o.lsid slot) else s
          let s := match o.i with
            | .calli y => calliEntry s k q o y
            | i =>
              if x.kind = 2 then
                let v := leNat (accBytes o x.size)
                let nv := (atomicNew (atomicOp i) x.size v o.b.word.toNat o.c.word.toNat).getD v
                let s := s.modFrame k q (·.modOp slot fun o =>
                  { o with parts := o.parts.map fun p => { p with data := (leBytes x.size nv).map some } })
                answerOp s k q slot i (atomicTok i x.size v)
              else answerOp s k q slot i (loadTok (if x.kind = 4 then 64 else x.size) x.sx (accBytes o (if x.kind = 4 then 64 else x.size)))
          if (x.ord % 2 = 1 || (x.kind = 0 && x.fe != 0)) && x.scope != 0 then
            applySig s k q (o.lsid.getD 0) (acqGrids k t f) (Sig.ors (o.parts.map (·.sig)))
          else s
  | _, _ => s

/-- A later block of a thread that has performed a load satisfying a test runs again, and its loads in flight that do are sent
again (R121, R269). -/
def rereadAfter (s : State) (k q : Nat) (hit : Part → Bool) : State :=
  let later := fun (f : Frame) => q < f.seq
  let s := s.modThr k fun t => { t with frames := t.frames.map fun f => if !later f then f else { f with
    ops := f.ops.map fun o => if o.acc.any (fun x => (x.kind == 0 && x.fe == 0) || x.kind == 4) then
      { o with parts := o.parts.map (Part.again fun p _ => hit p) } else o } }
  match (s.thr k).bind fun t => t.frames.find? fun f => later f && f.ops.any fun o => o.performed fun p _ => hit p with
  | some f => squashAt s k f.seq
  | none => s

/-- The tracked instructions of a thread after `(q, l)` and before `(q', l')` in program order. -/
def opsBetween (t : Thread) (q l q' l' : Nat) : List Op :=
  t.frames.flatMap fun f => f.inOrder.filter fun o => o.lsid.any fun m => afterIn q l f.seq m && afterIn f.seq m q' l'

/-- The oldest block that holds a later load performed with another value than an earlier load, now performed, has
received for a byte that no store between them gives (R120). -/
def disagrees (t : Thread) (q l : Nat) (p : Part) (bs : List Byte) : Option Nat :=
  (t.frames.find? fun f => f.ops.any fun o => o.lsid.any fun l' => afterIn q l f.seq l' &&
    o.performed fun p' bs' => meets p'.va p'.len p.va p.len && (List.range p.len).any fun i =>
      let va := p.va + i
      p'.va ≤ va && va < p'.va + p'.len && bs'[va - p'.va]? != bs[i]? &&
      (byteIn ((opsBetween t q l f.seq l').flatMap (·.stored)) va).isNone).map (·.seq)

/-- A part of a load or atomic is performed: a load takes its bytes under what was forwarded to it (R279); later loads of
the same bytes that were performed with another value are replayed, and those in flight are sent again (R120). -/
def gotLoad (s : State) (k q slot j : Nat) (bs : List Byte) (pz : Bool) (sig : Sig) : State :=
  match s.frame k q with
  | none => s
  | some f =>
    match f.op slot with
    | none => s
    | some o =>
      match o.parts[j]?, o.acc with
      | some p, some x =>
        let bytes := if p.kind = 3 && inKennel s (p.pa.getD 0) then bs.map fun _ => 0#8
          else bs.zipIdx.map fun b => (p.data.getD b.2 none).getD b.1
        let s := touch s k q
        let s := s.modPart k q slot j fun p => { p with
          st := .got bytes pz, sig := if x.scope = 0 then Sig.empty else sig }
        let s := enter s k q (p.pa.getD 0) (tracked p.cls p.kind && x.kind != 2) (x.kind = 2 || x.fe = 2)
        let g := slotGrid (gridOfThr k) f.width slot
        let s := if x.scope != 0 && x.ord % 2 = 0 && x.fe = 0 then
            s.modGrid g fun y => { y with arrived := y.arrived.or sig }
          else s
        let l := o.lsid.getD 0
        let me := match p.st with
          | .sent n => some n
          | _ => none
        let s := s.modThr k fun t => resend t q l fun p' n => meets p'.va p'.len p.va p.len && some n != me
        let s := match (s.thr k).bind fun t => if x.kind = 2 then none else disagrees t q l p bytes with
          | some v => squashAt s k v
          | none => s
        finishLoad s k q slot
      | _, _ => s

end Sys2Proof.Machine
end

