-- ==== Sys2Proof/Machine/Pipe.lean ====
section
/-! DEFINITION. An access makes its way: it is translated (R24, R30, R33), waits for its turn (R70, R130, R133, R276), hits
the L1 or takes a miss register (R46, R62), and its reply comes back (R62, R101). -/

namespace Sys2Proof.Machine

/-! ### Misses of the TLBs -/

/-- A cluster TLB sends one miss for each key; a later one joins it, adding what it needs (R28, R34). -/
def addMiss (s : State) (clu ctx page : Nat) (setD pref : Bool) : State :=
  let gen := (s.ctx ctx).gen
  let key := fun (m : Miss) => m.ctx == ctx && m.page == page && m.gen == gen
  let s := s.modDie (dieOf clu) fun d => { d with walks := d.walks.map fun (e : Nat × Walk) =>
    if e.2.ctx = ctx && e.2.page = page && e.2.gen = gen && e.2.clus.contains clu then
      (e.1, { e.2 with setD := e.2.setD || setD, real := if pref then e.2.real else addOnce e.2.real clu })
    else e }
  s.modClu clu fun c =>
    if c.misses.any key then
      { c with misses := c.misses.map fun m =>
          if key m then { m with setD := m.setD || setD, pref := m.pref && pref } else m }
    else { c with misses := c.misses ++ [⟨ctx, gen, page, setD, pref, 0⟩] }

/-- Look an access up, with a translation that a walk has just given (R28). -/
def lookup (s : State) (ctx : Nat) (sup : Bool) (g : Option Nat) (clu : Nat) (need : Need) (va : Nat) (ex : Option Trans) : Tr :=
  match ex with
  | some e =>
    if e.covers ctx (pageOf va) && field va 79 72 < 0xF0 then transApply s e sup need va
    else translate s ctx sup g clu need va
  | none => translate s ctx sup g clu need va

/-- A hit at a deeper level fills the levels above it (R30). -/
def fillMicro (s : State) (g clu ctx va : Nat) : State :=
  if 0xF0 ≤ field va 79 72 then s
  else
    match tlbGet s none clu ctx (pageOf va) with
    | some e =>
      if (s.grid g).utlb.any fun x => x.covers ctx (pageOf va) && (x.d || !e.d) then s else tlbFill s (some g) clu e
    | none => s

/-! ### Loads -/

/-- The granules of a line that the access's own block holds under the same name (R70), as bits by granule. -/
def ownHolds (f : Frame) (l : Nat) (p : Part) : Nat :=
  let held := fun (va : Nat) => f.ops.any fun o => o.lsid.any (· < l) && o.acc.any (fun x =>
      (x.kind == 1 && x.fe == 1) || (x.kind == 0 && x.fe == 2)) &&
    o.parts.any fun p' => p'.va / 16 ≤ va / 16 && va / 16 ≤ (p'.va + p'.len - 1) / 16 &&
      match p'.st with
      | .got _ _ => true
      | _ => false
  ((List.range 4).map fun i =>
    let va := p.va / 64 * 64 + 16 * i
    if p.va / 16 ≤ va / 16 && va / 16 ≤ (p.va + p.len - 1) / 16 && held va then 2 ^ i else 0).foldl (· + ·) 0

/-- Whether an instruction is a `.fe` or `.fec` load or a `.fe` store. -/
def Op.qualified (o : Op) : Bool := o.acc.any fun x => (x.kind == 0 && x.fe != 0) || (x.kind == 1 && x.fe == 1)

/-- Whether an access names a granule that a part names, under the same name. -/
def Op.sameGran (o : Op) (p : Part) : Bool :=
  o.parts.any fun y => y.va / 16 ≤ (p.va + p.len - 1) / 16 && p.va / 16 ≤ (y.va + y.len - 1) / 16

/-- Whether a qualified access has its turn among those of its block (R70): those of lower LSIDs that name a granule of it have been
performed. Of those that have not fired it waits where the dependence predictor has recorded it (R280; log 125). -/
def qualOk (s : State) (g : Nat) (f : Frame) (slot l : Nat) (p : Part) : Bool :=
  (f.ops.all fun o => !(o.qualified && o.lsid.any (· < l) && o.sameGran p) || o.parts.all fun y =>
    match y.st with
    | .got _ _ => true
    | .fail _ _ => true
    | _ => false) &&
  (!(s.grid g).dep.contains (f.addr, slot) || (f.below l qualWord).all fun x => f.skipped.contains x.1 || f.fired.contains x.1)

/-- A request of a part of an access. -/
def partMsg (s : State) (k q slot j : Nat) (t : Thread) (p : Part) (pa cls : Nat) (x : Acc) (kind : MKind) : Msg :=
  { Msg.mk0 kind (.acc k q slot j) with
    ctx := t.ctx, gen := (s.ctx t.ctx).gen, pa := pa, len := p.len, cls := cls, scope := x.scope,
    node := homeNode pa, noAlloc := p.kind = 1, via := if p.kind = 3 then field p.va 79 72 else 0 }

/-- Send a part's request on the miss register of its line or on a free one, or let it wait for one (R62). -/
def sendPart (s : State) (k q slot j g : Nat) (t : Thread) (m : Msg) : State :=
  if (regOf s g (lineOf m.pa)).isSome || regFree s g t q then
    let n := s.fresh
    (sendReg s g m).modPart k q slot j fun p => { p with st := .sent n }
  else s

/-- Count an L1 miss of a block, once for each part (R435). -/
def countMiss (s : State) (k q : Nat) (p : Part) : State :=
  if p.pa.isNone then s.modFrame k q fun f => { f with l1miss := f.l1miss + 1 } else s

/-- A load or a store's part takes the line it needs (R46, R62): it joins a request of its core for the line or sends one. -/
def fetchLine (s : State) (k q slot j g : Nat) (t : Thread) (gs : List Nat) (p : Part) (pa cls : Nat) (x : Acc) (excl : Bool) :
    State :=
  let line := lineOf pa
  let gen := (s.ctx t.ctx).gen
  let s := countMiss s k q p
  match gs.findSome? fun h => joinable s h line cls excl t.ctx gen with
  | some n =>
    let s := s.modPart k q slot j fun p => { p with st := .sent n }
    if (s.msg n).any (·.kind == .reply) then touch s k q else s
  | none =>
    let s := if cls = 1 then dropSelf s gs line else s
    let m := partMsg s k q slot j t p pa cls x (if excl then .ownership else if cls = 1 then .ownLoad else .wtSiLoad)
    sendPart s k q slot j g t { m with pa := 64 * line, len := 64, wr := excl, node := lineNode g pa }

/-- A load that leaves no copy at its grid: its bytes come from the home (R46, R47, R103, R120). A copy that is here or on its way
could be older. -/
def readBytes (s : State) (k q slot j g : Nat) (t : Thread) (gs : List Nat) (p : Part) (pa cls : Nat) (x : Acc) : State :=
  let s := noInstall (dropSelf s gs (lineOf pa)) gs fun m => m.cls != 1 && lineOf m.pa == lineOf pa
  let s := countMiss s k q p
  sendPart s k q slot j g t { partMsg s k q slot j t p pa cls x .ucLoad with
    node := if cls = 5 then 0 else lineNode g pa }

/-- An `.acq` load at `.quad` scope or wider asks the home for its line though its core has a copy, for it applies the signature that its
own reply carries (R46, R103; log 114): dirty granules go first, and the copy stays, to be refreshed. -/
def acquireLine (s : State) (k q slot j g : Nat) (t : Thread) (gs : List Nat) (p : Part) (pa cls : Nat) (x : Acc) : State :=
  let line := lineOf pa
  match coreLine s gs line (cls = 1) with
  | none => fetchLine s k q slot j g t gs p pa cls x false
  | some (h, y) =>
    let s := countMiss (dropSelf s (gs.filter (· != h)) line) k q p
    let s := if y.dirty = 0#4 || y.excl then s
      else (writeBack s h y false false).modGrid h (·.setLine { y with dirty := 0#4 })
    match joinable s h line cls false t.ctx (s.ctx t.ctx).gen with
    | some n =>
      let s := s.modPart k q slot j fun p => { p with st := .sent n }
      if (s.msg n).any (·.kind == .reply) then touch s k q else s
    | none => sendPart s k q slot j h t { partMsg s k q slot j t p pa cls x (if cls = 1 then .ownLoad else .wtSiLoad) with
        pa := 64 * line, len := 64, node := lineNode h pa }

/-- Whether another access of the thread or cluster holds a load of a line back (R120, R130, R131, R133). -/
def lineHeld (s : State) (k : Nat) (t : Thread) (q : Nat) (line : Nat) (isTracked : Bool) : Bool :=
  storeInFlight s k line || (isTracked && clusterStore s k (cluOf k) line) ||
  deviceStore s k || (t.older q).any (·.hasDevice)

/-- An acquiring fence applies the arrived signature before the first load or atomic above it is performed (R276). -/
def applyArrived (s : State) (k q l : Nat) (gs : List Nat) : State :=
  gs.foldl (fun s g =>
    let a := (s.grid g).arrived
    applySig (s.modGrid g fun y => { y with arrived := Sig.empty }) k q l gs a) s

/-- The acquiring fences below an LSID apply the arrived signature (R276). -/
def applyFences (s : State) (k q l : Nat) : State :=
  match s.thr k, s.frame k q with
  | some t, some f => (fencesDue f l).foldl (fun s o =>
      applyArrived (s.modFrame k q (·.modOp o.slot fun o => { o with stage := 1 })) k q (o.lsid.getD 0) (acqGrids k t f)) s
  | _, _ => s

/-- Whether a load waits because the dependence predictor has recorded it: a store LSID of its thread before it is not resolved
(R280). -/
def depWaits (s : State) (g : Nat) (t : Thread) (f : Frame) (slot l : Nat) : Bool :=
  (s.grid g).dep.contains (f.addr, slot) &&
    !(f.below_ l && (t.older f.seq).all fun y => y.stage != 0 && y.below_ 32)

/-- Try to perform part `j` of a load at a slot of block `q` (R260, R265, R267, R276, R279). One whose
bytes its thread's stores on their way give, and no copy here would be recalled for, waits for older acquires (R127, R128). -/
def tryLoad (s : State) (k q slot j : Nat) (ex : Option Trans) : State :=
  match s.thr k, s.frame k q with
  | some t, some f =>
    match f.op slot with
    | none => s
    | some o =>
      match o.parts[j]?, o.acc with
      | some p, some x =>
        let l := o.lsid.getD 0
        let before := opsBefore t f l
        let gs := coreGrids (gridOfThr k) f.width
        let g := slotGrid (gridOfThr k) f.width slot
        if p.st != .want || !acquireOk t f l || atomicPending before p || depWaits s g t f slot l then s
        else
          match lookup s t.ctx f.sup (some g) (cluOf k) 0 p.va ex with
          | .miss => addMiss s (cluOf k) t.ctx (pageOf p.va) false false
          | .fail c lv => s.modPart k q slot j fun p => { p with st := .fail c lv }
          | .ok pa cls0 kind _ =>
            let s := fillMicro s g (cluOf k) t.ctx p.va
            let cls := if kind = 2 || kind = 4 then 4 else if x.cls = 0 then cls0 else x.cls
            let line := lineOf pa
            let s := applyFences s k q l
            let fwd := if kind = 3 && inKennel s pa then noBytes p.len else forwarded before p
            if lineHeld s k t q line (tracked cls kind) then s
            else
            let s := s.modPart k q slot j fun p => { p with
              pa := some pa, cls := cls, kind := kind, data := fwd }
            if kind = 2 || kind = 4 then s
            else if fwd.all (·.isSome) && x.fe = 0 then
              if (kind = 3 || kind = 1 || cls = 4) && olderAcquire t f l then s
              else gotLoad s k q slot j (List.replicate p.len 0) false Sig.empty
            else if kind = 3 then
              if x.fe != 0 && inKennel s pa then
                (s.modPart k q slot j fun p => { p with st := .got [] false }).modFrame k q fun f =>
                  f.hold 0x07 (efaultOf slot 0x3A o.lsid) o.lsid slot
              else if olderAcquire t f l || (x.fe != 0 && !qualOk s g f slot l p) || (x.fe = 2 && !t.isOldest q) then s
              else sendPart s k q slot j g t { partMsg s k q slot j t p pa cls x .vault with
                sub := x.fe, arg := ownHolds f l p }
            else if cls = 4 || kind = 1 then
              if olderAcquire t f l then s else readBytes s k q slot j g t gs p pa cls x
            else if x.ord % 2 = 1 && x.scope != 0 then acquireLine s k q slot j g t gs p pa cls x
            else
              match coreLine s gs line (cls = 1) with
              | some (h, y) =>
                let s := s.modGrid h (·.useLine line)
                let bs := (y.data.drop (pa % 64)).take p.len
                let pz := (gransOf pa p.len).any fun r => y.poison.getLsbD (r % 4)
                gotLoad s k q slot j bs pz Sig.empty
              | none => fetchLine s k q slot j g t gs p pa cls x false
      | _, _ => s
  | _, _ => s

/-! ### Stores and line operations -/

/-- Whether a store of a class at a place has the line it needs in an L1 of its core: `.own` in E, `.si` a copy
that a dirty granule may stand in: a self-managed one, or an `.own` one in E (R46, R120). -/
def lineReady (s : State) (gs : List Nat) (pa cls kind : Nat) : Bool :=
  if kind != 0 then true
  else if cls = 1 then gs.any fun g => ((s.grid g).line (lineOf pa)).any fun l => l.cls == 1 && l.excl
  else if cls = 3 then gs.any fun g => ((s.grid g).line (lineOf pa)).any fun l => l.cls != 1 || l.excl
  else true

/-- A store's part may commit: its line enters the write signature, and that of a device access the read signature too (R72,
R108, R109). -/
def gotStore (s : State) (k q slot j pa cls kind : Nat) : State :=
  let s := touch s k q
  let s := s.modPart k q slot j fun p => { p with st := .got [] false }
  if tracked cls kind then enter s k q pa (kind = 2 || kind = 4) true else s

/-- Whether a store acts as a release at `.quad` scope or wider by its own words (R99, R115). -/
def Acc.release (x : Acc) : Bool := 2 ≤ x.ord && x.scope != 0

/-- Try to make part `j` of a store, scatter, line operation or prefetch ready for commit (R28, R46, R69, R268, R269). -/
def tryStore (s : State) (k q slot j : Nat) (ex : Option Trans) : State :=
  match s.thr k, s.frame k q with
  | some t, some f =>
    match f.op slot with
    | none => s
    | some o =>
      match o.parts[j]?, o.acc with
      | some p, some x =>
        let l := o.lsid.getD 0
        let gs := coreGrids (gridOfThr k) f.width
        let g := slotGrid (gridOfThr k) f.width slot
        let stale := match p.st with
          | .got _ done => !done && (x.kind = 1 || x.kind = 5) && o.stage < 9 && !x.release && t.fence.isNone &&
              !lineReady s gs (p.pa.getD 0) p.cls p.kind
          | _ => false
        if p.st != .want && !stale then s
        else
          let isStore := x.kind = 1 || x.kind = 5
          match lookup s t.ctx f.sup (some g) (cluOf k) (needOf o.i x) p.va ex with
          | .miss => addMiss s (cluOf k) t.ctx (pageOf p.va) isStore (x.kind = 7)
          | .fail c lv =>
            if x.kind = 7 then s.modPart k q slot j fun p => { p with st := .got [] false }
            else s.modPart k q slot j fun p => { p with st := .fail c lv }
          | .ok pa cls0 kind d =>
            let s := if x.kind = 7 then s else fillMicro s g (cluOf k) t.ctx p.va
            let cls := if kind = 2 || kind = 4 then 4 else if x.cls = 0 then cls0 else x.cls
            if isStore && !d then addMiss s (cluOf k) t.ctx (pageOf p.va) true false
            else
              let s := s.modPart k q slot j fun p => { p with st := .want, pa := some pa, cls := cls, kind := kind }
              if x.kind = 6 then s.modPart k q slot j fun p => { p with st := .got [] false }
              else if x.kind = 7 then
                prefetch s k q slot j g t gs p pa cls kind x (lookup s t.ctx f.sup (some g) (cluOf k) 1 p.va ex)
              else if kind = 3 then
                if (x.fe != 0) && inKennel s pa then
                  (s.modPart k q slot j fun p => { p with st := .got [] false }).modFrame k q fun f =>
                    f.hold 0x07 (efaultOf slot 0x3A o.lsid) o.lsid slot
                else if x.fe = 1 then
                  if !t.isOldest q || !qualOk s g f slot l p || lineHeld s k t q (lineOf pa) true then s
                  else sendPart s k q slot j g t { partMsg s k q slot j t p pa cls x .vault with
                    sub := 1, wr := true, arg := ownHolds f l p }
                else gotStore s k q slot j pa cls kind
              else if x.release || lineReady s gs pa cls kind then gotStore s k q slot j pa cls kind
              else fetchLine s k q slot j g t gs p pa cls x (cls = 1)
      | _, _ => s
  | _, _ => s
where
  /-- PREF: the line is asked for, or the request is dropped (R63, R268). -/
  prefetch (s : State) (k q slot j g : Nat) (t : Thread) (gs : List Nat) (p : Part) (pa cls kind : Nat) (x : Acc) (w : Tr) :
      State :=
    let s := s.modPart k q slot j fun p => { p with st := .got [] false }
    let excl := match (s.frame k q).bind (·.op slot) with
      | some o => match o.i with
        | .pref f => f.fe.getLsbD 0
        | _ => false
      | none => false
    let line := lineOf pa
    let writable := match w with
      | .fail _ _ => false
      | _ => true
    if kind != 0 || cls = 4 || 29 ≤ (s.grid g).mshr.length || (excl && (cls != 1 || !writable)) ||
        (coreLine s gs line (cls = 1)).any (fun y => !excl || y.2.excl) ||
        (gs.any fun h => (joinable s h line cls excl t.ctx (s.ctx t.ctx).gen).isSome) then s
    else
      let s := if cls = 1 then dropSelf s gs line else s
      sendReg s g { partMsg s k q slot j t p pa cls x
          (if excl then .ownership else if cls = 1 then .ownLoad else .wtSiLoad) with
        src := .grid g, pa := 64 * line, len := 64, wr := excl, node := lineNode g pa }

/-! ### Atomics (R271) -/

/-- Translate an atomic; its page needs W and D (R24, R28). A device page is the memory-operand fault (R273). -/
def tryAtomic (s : State) (k q slot : Nat) (ex : Option Trans) : State :=
  match s.thr k, s.frame k q with
  | some t, some f =>
    match f.op slot with
    | none => s
    | some o =>
      match o.parts[0]? with
      | none => s
      | some p =>
        let g := slotGrid (gridOfThr k) f.width slot
        if p.st != .want then s
        else
          match lookup s t.ctx f.sup (some g) (cluOf k) 1 p.va ex with
          | .miss => addMiss s (cluOf k) t.ctx (pageOf p.va) true false
          | .fail c lv => s.modPart k q slot 0 fun p => { p with st := .fail c lv }
          | .ok pa cls kind d =>
            let s := fillMicro s g (cluOf k) t.ctx p.va
            if kind = 2 || kind = 4 then
              (s.modPart k q slot 0 fun p => { p with st := .got [] false }).modFrame k q fun f =>
                (f.modOp slot fun o => { o with ans := some .null }).hold 0x06 (efaultOf slot 0x31 o.lsid) o.lsid slot
            else if !d then addMiss s (cluOf k) t.ctx (pageOf p.va) true false
            else s.modPart k q slot 0 fun p => { p with pa := some pa, cls := cls, kind := kind }
  | _, _ => s

/-- Send an atomic to its home: its block is the oldest, every atomic of a lower LSID has replied, and nothing of R276 holds
it (R271); a `.wt` or `.si` copy of the grid is written back and invalidated first (R120). -/
def sendAtomic (s : State) (k q slot : Nat) : State :=
  match s.thr k, s.frame k q with
  | some t, some f =>
    match f.op slot with
    | none => s
    | some o =>
      match o.parts[0]?, o.acc with
      | some p, some x =>
        let l := o.lsid.getD 0
        match p.pa with
        | none => s
        | some pa =>
          let gs := coreGrids (gridOfThr k) f.width
          let g := slotGrid (gridOfThr k) f.width slot
          if x.kind != 2 || p.st != .want || !t.isOldest q || !acquireOk t f l || olderAcquire t f l ||
              !((f.below l fun w _ => atomicWord w).all fun y => f.returned y.1) ||
              lineHeld s k t q (lineOf pa) true then s
          else
            let s := dropSelf s gs (lineOf pa)
            let s := applyFences s k q l
            let s := s.modPart k q slot 0 fun p => { p with data := forwarded (opsBefore t f l) p }
            sendPart s k q slot 0 g t { partMsg s k q slot 0 t p pa p.cls x .atomic with
              wr := true, data := tokBytes o.b x.size, arg := o.c.word.toNat % 2 ^ (8 * x.size), sub := atomicOp o.i }
      | _, _ => s
  | _, _ => s

/-! ### Moving an access on -/

/-- Try every part of a tracked access. -/
def advance (s : State) (k q slot : Nat) (ex : Option Trans) : State :=
  let st := (s.frame k q).elim 0 (·.stage)
  match (s.frame k q).bind (·.op slot) with
  | none => s
  | some o =>
    match o.acc with
    | none => s
    | some x =>
      if st = 0 || (st = 2 && (o.stage = 9 || !(x.kind = 1 || x.kind = 5))) then s
      else if x.kind = 2 then tryAtomic s k q slot ex
      else (List.range o.parts.length).foldl (fun s j =>
        if x.kind = 0 || x.kind = 4 then tryLoad s k q slot j ex else tryStore s k q slot j ex) s

/-- Every access of a cluster that waits is tried again (R33, R36); with `pref`, the prefetches only (R28). -/
def wake (s : State) (clu ctx : Nat) (ex : Option Trans) (pref : Bool) : State :=
  (s.thrs.filter fun e => cluOf e.1 == clu && e.2.ctx == ctx).foldl (fun s e =>
    e.2.frames.foldl (fun s f => f.ops.foldl (fun s o =>
      if o.parts.any (·.st == .want) && (!pref || o.acc.any (·.kind == 7)) then advance s e.1 f.seq o.slot ex else s) s) s) s

/-- The accesses of a cluster that wait for a page receive a failure of its walk (R36); prefetches are dropped (R42). -/
def failPage (s : State) (clu ctx page cause lvl : Nat) : State :=
  { s with thrs := s.thrs.map fun (e : Nat × Thread) =>
      if cluOf e.1 = clu && e.2.ctx = ctx then
        (e.1, { e.2 with frames := e.2.frames.map fun f => { f with ops := f.ops.map (failOp page cause lvl) } })
      else e }
where
  failPart (pref : Bool) (page cause lvl : Nat) (p : Part) : Part :=
    if p.st = .want && pageOf p.va = page && field p.va 79 72 < 0xF0 then
      { p with st := if pref then .got [] false else .fail cause lvl }
    else p
  failOp (page cause lvl : Nat) (o : Op) : Op :=
    { o with parts := o.parts.map (failPart (o.acc.any (·.kind == 7)) page cause lvl) }

/-! ### Replies (R62, R101) -/

/-- Whether a reply's context generation is still current (R21). -/
def fresh (s : State) (m : Msg) : Bool := (s.ctx m.ctx).gen == m.gen

/-- The lines of the L1 set of a line (R45: bank PA[6], set PA[12:7]). -/
def Grid.setOf (x : Grid) (line : Nat) : List L1Line := x.l1.filter fun l => l.line % 128 == line % 128

/-- Make room for a line: with 8 lines in its set, a victim leaves, a dirty one through the write-back buffer of 8
(R45, R64), a clean one in E with a notice that it is given up. Pseudo-least-recently-used: any line of the set but the one used last, `victim` says which (log 106). None
when the buffer is full. -/
def makeRoom (s : State) (g line victim : Nat) : Option State :=
  let set := (s.grid g).setOf line
  if set.length < 8 then some s
  else
    match set[victim % 7]? with
    | none => some s
    | some v =>
      if v.dirty != 0#4 then
        if 8 ≤ (s.grid g).wb.length then none
        else some (lineLeaves ((writeBack s g v false true).modGrid g (·.dropLine v.line)) g v.line)
      else if v.excl then some (lineLeaves ((writeBack s g v false false).modGrid g (·.dropLine v.line)) g v.line)
      else some (lineLeaves (s.modGrid g (·.dropLine v.line)) g v.line)

/-- Install the line of a reply in an L1 (R46). A copy that is there keeps its dirty granules; neither a tracked
copy nor one with dirty granules is replaced by a shared one, but a tracked copy in S by the one that a `.si` store asked for. -/
def install (s : State) (g : Nat) (m : Msg) : State :=
  let line := lineOf m.pa
  let data := m.data.map (·.getD 0)
  let new : L1Line := ⟨line, if m.sub = 1 then 1 else m.cls, m.sub = 1, 0#4, data, m.poison⟩
  match (s.grid g).line line with
  | none => s.modGrid g (·.putLine new)
  | some old =>
    if old.cls = 1 && m.sub != 1 && (old.excl || m.cls != 3) then s
    else
      let keep := fun (i : Nat) => old.dirty.getLsbD (i / 16)
      let merged := data.zipIdx.map fun b => if keep b.2 then old.data.getD b.2 0 else b.1
      let pz := (m.poison &&& ~~~old.dirty) ||| (old.poison &&& old.dirty)
      if old.cls != 1 && new.cls = 1 && old.dirty != 0#4 && !new.excl then s
      else s.modGrid g (·.putLine { new with data := merged, dirty := old.dirty, poison := pz })

/-- Give a reply to one part that waits for it (R62, R72, R103); a line that was not installed is asked for again while an
older acquire has not returned (R276). -/
def deliverPart (s : State) (m : Msg) (inst : Bool) (k q slot j : Nat) : State :=
  match (s.frame k q).bind (·.op slot) with
  | none => s
  | some o =>
    match o.parts[j]?, o.acc with
    | some p, some x =>
      let pa := p.pa.getD 0
      if x.kind = 1 || x.kind = 5 then
        let gs := match s.frame k q with
          | some f => coreGrids (gridOfThr k) f.width
          | none => []
        if p.kind = 3 || lineReady s gs pa p.cls p.kind then
          gotStore s k q slot j pa p.cls p.kind
        else s.modPart k q slot j fun p => { p with st := .want }
      else if !inst && x.kind != 2 && p.kind = 0 && (s.thr k).any (fun t => (s.frame k q).any fun f => olderAcquire t f (o.lsid.getD 0)) then
        s.modPart k q slot j fun p => { p with st := .want }
      else
        let off := pa - m.pa
        let bs := ((m.data.drop off).take p.len).map (·.getD 0)
        let pz := (gransOf pa p.len).any fun r => m.poison.getLsbD (r % 4)
        let sig := Sig.ors ((gransOf pa p.len).map fun r => m.sigs.getD (r % 4) Sig.empty)
        gotLoad s k q slot j bs pz sig
    | _, _ => s

/-- Free the miss or fetch register of a message (R48, R62). -/
def freeReg (s : State) (n : Nat) (m : Msg) : State :=
  if m.agent = 0 then s
  else (leaveReg s (m.agent - 1) n).modGrid (m.agent - 1) fun x => { x with fetchReg := x.fetchReg.filter (· != n) }

/-- A reply reaches its miss register (R62, R21): its line is installed unless a store or acquire of the core overtook it, and every
access that waits for it is served. -/
def takeReply (s : State) (n victim : Nat) : State :=
  match s.msg n with
  | none => s
  | some m =>
    if m.kind = .reply && m.src.outside then s.delMsg n
    else if m.kind != .reply || m.agent = 0 then s
    else
      match m.src with
      | .fetch _ _ _ _ => s
      | .eng _ _ _ => s
      | _ =>
        let g := m.agent - 1
        if !fresh s m then
          (freeReg s n m).delMsg n
        else
          let inst := m.sub != 0 && m.takes = 0
          match (if inst then makeRoom s g (lineOf m.pa) victim else some s) with
          | none => s
          | some s =>
            let s := if inst then install s g m else s
            let ws := waitersOf s n
            let s := ((freeReg s n m).delMsg n)
            ws.foldl (fun s w => deliverPart s m inst w.1 w.2.1 w.2.2.1 w.2.2.2) s

end Sys2Proof.Machine
end

