-- ==== Sys2Proof/Machine/Mem.lean ====
section
/-! DEFINITION. The memory, atomic and barrier instructions as they fire (R258 to R277), and CALLI's table read (R253,
R254). -/

namespace Sys2Proof.Machine

/-- Whether a qualified access breaks R67: 0x38 outside the vault regions, 0x39 by size or alignment. -/
def misuse (x : Acc) (ps : List Part) : Option Nat :=
  if x.fe = 0 || (x.kind != 0 && x.kind != 1) then none
  else
    let va := (ps.head?.map (·.va)).getD 0
    let r := field va 79 72
    if r != 0xF0 && r != 0xF1 then some 0x38
    else if (va / 16 = (va + x.size - 1) / 16) || (x.size = 64 && va % 64 = 0) then none
    else some 0x39

/-- A part of a later load or atomic in flight takes the bytes of a store that has just fired (R279). -/
def refresh (t : Thread) (q l : Nat) : Thread :=
  { t with frames := t.frames.map fun f => { f with ops := f.ops.map (upd t q l f) } }
where
  updPart (ops : List Op) (p : Part) : Part :=
    match p.st with
    | .sent _ => { p with data := forwarded ops p }
    | _ => p
  upd (t : Thread) (q l : Nat) (f : Frame) (o : Op) : Op :=
    if o.lsid.any (fun l' => afterIn q l f.seq l') && o.acc.any (fun x => x.kind == 0 || x.kind == 2 || x.kind == 4) then
      { o with parts := o.parts.map (updPart (opsBefore t f (o.lsid.getD 0))) }
    else o

/-- The qualified accesses that `mine` picks whose request to their vault meets a part that `hit` picks: those that have not been
performed there are withdrawn and wait again (R70, R279). -/
def withdrawQual (s : State) (k : Nat) (mine : Frame → Op → Bool) (hit : Part → Bool) : State :=
  let gone := fun (p : Part) => match p.st with
    | .sent n => if hit p && (s.msg n).any (·.kind == .vault) then some n else none
    | _ => none
  let ns := (s.thr k).elim [] fun t => t.frames.flatMap fun f => (f.ops.filter (mine f)).flatMap fun o' => o'.parts.filterMap gone
  let back := fun (p : Part) => if (gone p).isSome then { p with st := .want } else p
  let upd := fun (f : Frame) (o' : Op) => if mine f o' then { o' with parts := o'.parts.map back } else o'
  let s := s.modThr k fun t => { t with frames := t.frames.map fun f => { f with ops := f.ops.map (upd f) } }
  ns.foldl (fun s n => match s.msg n with
    | some m => freeReg ((s.unqueue (queueKey m.node (lineOf m.pa)) n).delMsg n) n m
    | none => s) s

/-- Whether a load has read a place, or a qualified one has been performed at its vault and its reply is on the way (R280). -/
def Op.tooEarly (s : State) (o : Op) (hit : Part → Bool) : Bool :=
  o.hasRead hit || (o.acc.any fun x => x.kind == 0 && x.fe != 0) && o.parts.any fun p => match p.st with
    | .sent n => hit p && (s.msg n).any (·.kind == .reply)
    | _ => false

/-- The dependence predictor records the loads of a block that were performed too early (R280). -/
def recordDep (s : State) (k v : Nat) (hit : Op → Bool) : State :=
  match s.frame k v with
  | none => s
  | some f => (f.ops.filter hit).foldl (fun s o => s.modGrid (slotGrid (gridOfThr k) f.width o.slot) fun g =>
      { g with dep := if g.dep.contains (f.addr, o.slot) then g.dep else g.dep ++ [(f.addr, o.slot)] }) s

/-- A store or atomic fires, and so produces its address: later loads and atomics performed on its bytes are squashed and recorded
(R280), those in flight receive its data, or wait for an atomic (R279). -/
def storeFired (s : State) (k q : Nat) (o : Op) (x : Acc) : State :=
  let l := o.lsid.getD 0
  let s := s.modThr k fun t =>
    if x.kind = 2 then resend t q l fun p _ => o.meetsVa p.va p.len else refresh t q l
  let s := if x.kind = 2 then
      withdrawQual s k (fun f o' => o'.lsid.any (fun l' => afterIn q l f.seq l') && o'.acc.any fun x => x.kind == 0 && x.fe != 0)
        fun p => o.meetsVa p.va p.len
    else s
  let hit := fun (o' : Op) => o'.tooEarly s fun p => o.meetsVa p.va p.len
  match (s.thr k).bind fun t => victim t q l hit with
  | some v =>
    let n := ((s.thr k).elim [] fun t => t.frames.filter fun f => v ≤ f.seq).length
    squashAt (recordDep (s.modThr k (·.count 2 n)) k v fun o' => o'.lsid.any (fun l' => afterIn q l v l') && hit o') k v
  | none => s

/-- A qualified access fires: those of its block with a higher LSID that name a granule of it come after it (R70). Those on their way
wait again; when one has been performed, the block is replayed and the predictor records it (R280). -/
def qualFired (s : State) (k q : Nat) (o : Op) : State :=
  let mine := fun (f : Frame) (o' : Op) => f.seq == q && o'.qualified && o'.lsid.any fun l' => o.lsid.any (· < l')
  let s := withdrawQual s k mine o.sameGran
  let hit := fun (o' : Op) => o'.parts.any fun p => o.sameGran p && match p.st with
    | .got _ _ => true
    | .sent n => (s.msg n).any (·.kind == .reply)
    | _ => false
  match s.frame k q with
  | some f => if f.ops.any fun o' => mine f o' && hit o' then squashAt (recordDep s k q fun o' => mine f o' && hit o') k q else s
  | none => s

/-- A memory instruction fires: its parts are formed, it is checked (R67, R273), and it starts on its way. -/
def fireAccess (s : State) (i : Instr) (p : BitVec 2) (nb nc : Bool) (lsid : BitVec 5) (ts : List (BitVec 9)) :
    Host.Outcome State Fault Refusal :=
  fireOp s i p true nb nc (some lsid.toNat) ts fun t f o =>
    match accOf i with
    | none => s
    | some x =>
      let k := s.cur.1
      let q := s.cur.2.1
      let slot := s.cur.2.2
      let ps := mkParts (s.ctx t.ctx).pre i x o.a o.b o.c
      let dead := fun (cls code : Nat) =>
        s.putFrame ((f.modOp slot fun o => { o with ans := some .null }).hold cls (efaultOf slot code o.lsid) o.lsid slot)
      match misuse x ps with
      | some c => dead 0x07 c
      | none =>
        if x.kind = 2 && (effAddr i o.a.word).toNat % x.size != 0 then dead 0x06 0x30
        else
          let o := { o with parts := ps }
          let s := s.putFrame (f.modOp slot fun _ => o)
          let s := if x.kind = 1 || x.kind = 2 || x.kind = 5 then storeFired s k q o x else s
          let s := if o.qualified then qualFired s k q o else s
          advance s k q slot none

/-- LDB (R260): loads one byte, zero-extended. -/
def execLdb (f : LF) (s : State) : Host.Outcome State Fault Refusal :=
  fireAccess s (.ldb f) f.p false false f.lsid [f.t0]

/-- LDH (R260): loads two bytes, zero-extended. -/
def execLdh (f : LF) (s : State) : Host.Outcome State Fault Refusal :=
  fireAccess s (.ldh f) f.p false false f.lsid [f.t0]

/-- LDW (R260): loads four bytes, zero-extended. -/
def execLdw (f : LF) (s : State) : Host.Outcome State Fault Refusal :=
  fireAccess s (.ldw f) f.p false false f.lsid [f.t0]

/-- LDD (R260): loads eight bytes. -/
def execLdd (f : LF) (s : State) : Host.Outcome State Fault Refusal :=
  fireAccess s (.ldd f) f.p false false f.lsid [f.t0]

/-- LDBS (R260): loads one byte, sign-extended. -/
def execLdbs (f : LF) (s : State) : Host.Outcome State Fault Refusal :=
  fireAccess s (.ldbs f) f.p false false f.lsid [f.t0]

/-- LDHS (R260): loads two bytes, sign-extended. -/
def execLdhs (f : LF) (s : State) : Host.Outcome State Fault Refusal :=
  fireAccess s (.ldhs f) f.p false false f.lsid [f.t0]

/-- LDWS (R260): loads four bytes, sign-extended. -/
def execLdws (f : LF) (s : State) : Host.Outcome State Fault Refusal :=
  fireAccess s (.ldws f) f.p false false f.lsid [f.t0]

/-- LDV (R260): loads 64 bytes. -/
def execLdv (f : LF) (s : State) : Host.Outcome State Fault Refusal :=
  fireAccess s (.ldv f) f.p false false f.lsid [f.t0]

/-- STB (R261): stores one byte at commit. -/
def execStb (f : SF) (s : State) : Host.Outcome State Fault Refusal :=
  fireAccess s (.stb f) f.p true false f.lsid []

/-- STH (R261): stores two bytes at commit. -/
def execSth (f : SF) (s : State) : Host.Outcome State Fault Refusal :=
  fireAccess s (.sth f) f.p true false f.lsid []

/-- STW (R261): stores four bytes at commit. -/
def execStw (f : SF) (s : State) : Host.Outcome State Fault Refusal :=
  fireAccess s (.stw f) f.p true false f.lsid []

/-- STD (R261): stores eight bytes at commit. -/
def execStd (f : SF) (s : State) : Host.Outcome State Fault Refusal :=
  fireAccess s (.std f) f.p true false f.lsid []

/-- STV (R261): stores 64 bytes at commit. -/
def execStv (f : SF) (s : State) : Host.Outcome State Fault Refusal :=
  fireAccess s (.stv f) f.p true false f.lsid []

/-- LD (R265). -/
def execLd (f : MemF) (s : State) : Host.Outcome State Fault Refusal :=
  fireAccess s (.ld f) f.p false false f.lsid [f.t0, f.t1]

/-- ST (R265): performed at commit. -/
def execSt (f : MemF) (s : State) : Host.Outcome State Fault Refusal :=
  fireAccess s (.st f) f.p true false f.lsid []

/-- GATHER (R267). -/
def execGather (f : MemF) (s : State) : Host.Outcome State Fault Refusal :=
  fireAccess s (.gather f) f.p true false f.lsid [f.t0, f.t1]

/-- SCATTER (R267): performed at commit; never predicated. -/
def execScatter (f : MemF) (s : State) : Host.Outcome State Fault Refusal :=
  fireAccess s (.scatter f) 0#2 true true f.lsid []

/-- PREF (R268). -/
def execPref (f : MemF) (s : State) : Host.Outcome State Fault Refusal :=
  fireAccess s (.pref f) f.p false false f.lsid []

/-- LFLUSH (R269): performed at commit. -/
def execLflush (f : MemF) (s : State) : Host.Outcome State Fault Refusal :=
  fireAccess s (.lflush f) f.p false false f.lsid []

/-- LINV (R269): performed at commit. -/
def execLinv (f : MemF) (s : State) : Host.Outcome State Fault Refusal :=
  fireAccess s (.linv f) f.p false false f.lsid []

/-- AADD (R270, R271). -/
def execAadd (f : MemF) (s : State) : Host.Outcome State Fault Refusal :=
  fireAccess s (.aadd f) f.p true false f.lsid [f.t0, f.t1]

/-- AAND (R270, R271). -/
def execAand (f : MemF) (s : State) : Host.Outcome State Fault Refusal :=
  fireAccess s (.aand f) f.p true false f.lsid [f.t0, f.t1]

/-- AOR (R270, R271). -/
def execAor (f : MemF) (s : State) : Host.Outcome State Fault Refusal :=
  fireAccess s (.aor f) f.p true false f.lsid [f.t0, f.t1]

/-- AXOR (R270, R271). -/
def execAxor (f : MemF) (s : State) : Host.Outcome State Fault Refusal :=
  fireAccess s (.axor f) f.p true false f.lsid [f.t0, f.t1]

/-- AMIN (R270, R271). -/
def execAmin (f : MemF) (s : State) : Host.Outcome State Fault Refusal :=
  fireAccess s (.amin f) f.p true false f.lsid [f.t0, f.t1]

/-- AMAX (R270, R271). -/
def execAmax (f : MemF) (s : State) : Host.Outcome State Fault Refusal :=
  fireAccess s (.amax f) f.p true false f.lsid [f.t0, f.t1]

/-- AMINZ (R270, R271). -/
def execAminz (f : MemF) (s : State) : Host.Outcome State Fault Refusal :=
  fireAccess s (.aminz f) f.p true false f.lsid [f.t0, f.t1]

/-- AMAXZ (R270, R271). -/
def execAmaxz (f : MemF) (s : State) : Host.Outcome State Fault Refusal :=
  fireAccess s (.amaxz f) f.p true false f.lsid [f.t0, f.t1]

/-- AXCHG (R270, R271). -/
def execAxchg (f : MemF) (s : State) : Host.Outcome State Fault Refusal :=
  fireAccess s (.axchg f) f.p true false f.lsid [f.t0, f.t1]

/-- AFADD.f32 (R270, R271). -/
def execAfaddF32 (f : MemF) (s : State) : Host.Outcome State Fault Refusal :=
  fireAccess s (.afaddF32 f) f.p true false f.lsid [f.t0, f.t1]

/-- AFADD.bf16x2 (R270, R271). -/
def execAfaddBf16x2 (f : MemF) (s : State) : Host.Outcome State Fault Refusal :=
  fireAccess s (.afaddBf16x2 f) f.p true false f.lsid [f.t0, f.t1]

/-- ACAS (R270, R271): never predicated. -/
def execAcas (f : MemF) (s : State) : Host.Outcome State Fault Refusal :=
  fireAccess s (.acas f) 0#2 true true f.lsid [f.t0, f.t1]

/-- CALLI (R253): an index at or beyond `ftlen` is a SigFault without an access; otherwise the table entry is loaded
(R254). A null index fires nothing (R196). -/
def execCalli (f : CalliF) (s : State) : Host.Outcome State Fault Refusal :=
  fireWith s f.p true false false (fun _ b => s.putFrame (b.skipAt s.cur.2.2))
    (fun t b a _ _ =>
      let slot := s.cur.2.2
      let l := f.lsid.toNat
      match b.lsidClash l slot with
      | some b' => s.putFrame b'
      | none =>
        match t.regFor b.cyc b.seq 195, t.regFor b.cyc b.seq 196 with
        | some ft, some len =>
          let o := Op.mk0 (.calli f) slot (some l) a .null .null
          let b := b.fireAt slot
          if len.word.toNat % 2 ^ 32 ≤ a.word.toNat then
            let e := f.sig.toNat + 2 ^ 32 + 2 ^ 34 * slot
            s.putFrame { b.hold 0x05 e (some l) slot with ops := b.ops ++ [{ o with ans := some .null }] }
          else
            let va := ft.word + 16#64 * a.word
            let o := { o with parts := partsAt (s.ctx t.ctx).pre va 0 16 (noBytes 16) }
            advance (s.putFrame { b with ops := b.ops ++ [o] }) s.cur.1 s.cur.2.1 slot none
        | _, _ => s)

/-- FENCE fires when its block is mapped; it acts at commit (R275). -/
def execFence (f : SyncF) (s : State) : Host.Outcome State Fault Refusal :=
  fireOp s (.fence f) f.p false false false (some f.lsid.toNat) [] fun _ b _ => s.putFrame b

/-- BARA fires when its participant count arrives; it acts at commit (R277). -/
def execBara (f : SyncF) (s : State) : Host.Outcome State Fault Refusal :=
  fireOp s (.bara f) f.p true false false (some f.lsid.toNat) [] fun _ b _ => s.putFrame b

/-- The key of a barrier: context, scope, the scope's instance by the thread's logical placement (R278), and its number. The quad of
a thread of width 8 is its cluster (R123). -/
def barKey (s : State) (k : Nat) (t : Thread) (scope bid : Nat) : Nat :=
  let inst :=
    if scope = 1 then (if t.width = 8 then 2 ^ 18 + t.lclu else 2 * t.lclu + (gridOfThr k % 8) / 4)
    else if scope = 2 then t.lclu
    else if scope = 3 then dieOf (cluOf k)
    else if scope = 4 then s.mod.pkg
    else 0
  t.ctx * 2 ^ 32 + scope * 2 ^ 24 + 16 * inst + bid

/-- A barrier (R277): counts and episode zero when the context is created. -/
def State.bar (s : State) (key : Nat) : Bar := (tget s.bars key).getD ⟨0, 0, 0, Sig.empty, []⟩

/-- Whether a block holds an arrival of its own, at a lower LSID, on the barrier that a BARW waits for (R277). -/
def ownArrival (f : Frame) (l : Nat) (g : SyncF) : Bool :=
  (f.below l fun w w1 => opc w == 0x41 && xop w == 1 && (unSync w w1).scope == g.scope && (unSync w w1).bid == g.bid).any fun x => !f.skipped.contains x.1 && !(f.op x.1).any (·.nul)

/-- A waiting BARW (R277): once every older block has committed and the recorded episode has completed, it applies the episode's
signature and produces 1, or 0 at once without a recorded arrival. An arrival of its own block is never there. The recorded
arrival is cleared when its block commits (R117). -/
def stepBarw (g : SyncF) (s : State) (k : Nat) (t : Thread) (f : Frame) (o : Op) : State :=
  let l := o.lsid.getD 0
  let again := f.ops.any fun y => y.ans == some (.s 1) && match y.i with
    | .barw h => h.scope == g.scope && h.bid == g.bid
    | _ => false
  if !t.isOldest f.seq || ownArrival f l g then s
  else
    match (if again then none else tget t.arrive (16 * g.scope.toNat + g.bid.toNat)) with
    | none => stepDone s k f o (.s 0)
    | some e =>
      match tget (s.bar (barKey s k t g.scope.toNat g.bid.toNat)).past e with
      | none => s
      | some x => applySig (stepDone s k f o (.s 1)) k f.seq l (acqGrids k t f) x

/-- BARW (R277): it fires when its block is mapped and waits. -/
def execBarw (f : SyncF) (s : State) : Host.Outcome State Fault Refusal :=
  fireStep s (.barw f) f.p false false false (some f.lsid.toNat) [f.t0, f.t1] (stepBarw f)

end Sys2Proof.Machine
end

