-- ==== Sys2Proof/Machine/Retire.lean ====
section
/-! DEFINITION. What the memory side of a commit does: releases and their drains (R98 to R100, R461), stores, atomics and
line operations as they are performed (R46, R68, R70, R118, R269, R271), fences and barrier arrivals (R275, R277). -/

namespace Sys2Proof.Machine

/-! ### Releases -/

/-- The pending signatures of a core, and its thread's fence signature (R98, R100). -/
def releaseSig (s : State) (t : Thread) (gs : List Nat) : Sig :=
  (Sig.ors (gs.map fun g => (s.grid g).pend)).or (t.fence.getD Sig.empty)

/-- Clear the pending signatures of a core (R99 step 5). -/
def clearPend (s : State) (gs : List Nat) : State :=
  gs.foldl (fun s g => s.modGrid g fun x => { x with pend := Sig.empty }) s

/-- An explicit release ends the fence signature (R100). -/
def endFence (s : State) (k : Nat) : State := s.modThr k fun t => { t with fence := none, fenceScope := 0 }

/-- Insert a line into the pending signature of a grid (R98). -/
def pendLine (s : State) (g pa : Nat) : State := s.modGrid g fun x => { x with pend := x.pend.insert (lineOf pa) }

/-- Write back every dirty `.si` granule of a grid's L1; the copies stay, clean (R99 step 1). -/
def flushGrid (s : State) (g : Nat) : State :=
  ((s.grid g).l1.filter fun l => l.dirty != 0#4 && !l.excl).foldl (fun s l =>
    (writeBack s g l false false).modGrid g (·.setLine { l with dirty := 0#4 })) s

/-- The grids that a thread has given up and that have not drained yet (R168). -/
def leavingOf (s : State) (t : Thread) : List Nat := (s.grids.filter fun e => e.2.leaving.any (·.2 == t.ser)).map (·.1)

/-- Whether a release of a thread on a core still waits (R99 steps 1 and 2, R461): for a write-back of its grids, for their
write-through queues to be empty, for a store of its own on its way, or for the drain of a grid that it has given up (R145). -/
def drainDue (s : State) (k : Nat) (gs : List Nat) : Bool :=
  gs.any (fun g => (s.grid g).wtq != []) || (s.thr k).any (leavingOf s · != []) || s.net.any fun e =>
    match e.2.src with
    | .store _ t => t == k
    | .grid g => gs.contains g && (e.2.kind == .siWb || (e.2.kind == .ack && e.2.wr))
    | _ => false

/-- Begin steps 1 and 2 of R99 for a core. -/
def startDrain (s : State) (gs : List Nat) : State := gs.foldl flushGrid s

/-! ### Stores -/

/-- Write bytes into an L1 line; a granule overwritten whole is no longer poisoned (R65). -/
def L1Line.write (l : L1Line) (off : Nat) (data : List (Option Byte)) (mark : Bool) : L1Line :=
  let new := l.data.zipIdx.map fun b => if off ≤ b.2 then (data.getD (b.2 - off) none).getD b.1 else b.1
  let full := fun (i : Nat) => (List.range 16).all fun j =>
    off ≤ 16 * i + j && (data.getD (16 * i + j - off) none).isSome
  let some_ := fun (i : Nat) => (List.range 16).any fun j =>
    off ≤ 16 * i + j && (data.getD (16 * i + j - off) none).isSome
  let ms := fun (p : Nat → Bool) => BitVec.ofNat 4 (((List.range 4).map fun i => if p i then 2 ^ i else 0).foldl (· + ·) 0)
  { l with data := new, dirty := if mark then l.dirty ||| ms some_ else l.dirty, poison := l.poison &&& ~~~(ms full) }

/-- Write a store into the copies of its line that a core holds. -/
def writeCopies (s : State) (gs : List Nat) (pa : Nat) (data : List (Option Byte)) (mark : Bool) (which : L1Line → Bool) :
    State :=
  gs.foldl (fun s g =>
    match (s.grid g).line (lineOf pa) with
    | some l => if which l then s.modGrid g (·.putLine (l.write (pa % 64) data mark)) else s
    | none => s) s

/-- The request by which a part of a block's store waits for its turn, if one is on its way (R71, R85). -/
def waiterOf (s : State) (k q slot j : Nat) : Option (Nat × Msg) :=
  s.net.find? fun e => e.2.kind == .waiter && e.2.src == .acc k q slot j

/-- Whether a grid has a miss register for a line: one to join, or a free one (R62). -/
def regReady (s : State) (g line : Nat) : Bool := (regOf s g line).isSome || (s.grid g).mshr.length < 32

/-- Send a committed store on its way: it takes the place of the request that waited for it, or joins or takes a miss register (R62),
and a `.wt` store or one to a no-allocate page takes a place in the write-through queue (R47, R64). -/
def sendStore (s : State) (g k : Nat) (m : Msg) (wt : Bool) (w : Option (Nat × Msg)) : State :=
  let m := { m with src := .store g k, wr := true }
  let push := fun (s : State) (n : Nat) => s.modGrid g fun x => { x with wtq := if wt then x.wtq ++ [n] else x.wtq }
  match w with
  | some (n, y) =>
    let s := push (s.setMsg n { m with agent := y.agent, grp := y.grp, st := y.st, t0 := y.t0 }) n
    if y.st = 1 then homePass s (queueKey 0 (lineOf m.pa)) else s
  | none => push (sendReg s g m) s.fresh

/-- The acknowledgement of a store that its vault performed is on its way to the grid, whose miss register waits for it (R62). -/
def vaultAck (s : State) (g k : Nat) (m : Msg) (w : Option (Nat × Msg)) : State :=
  let m := { m with kind := .ack, src := .store g k, data := [], wr := true, st := 0 }
  match w with
  | some (n, y) => (s.unqueue (queueKey y.node (lineOf y.pa)) n).setMsg n { m with agent := y.agent, grp := y.grp }
  | none => sendReg s g m

/-- A write that is not the lock owner's is counted (R442, R444). -/
def ignored (m : Module) : Module := { m with ign := Nat.min (m.ign + 1) 0xFFFF }

/-- A thread's write to `n` bytes of the system registers of this package: none takes it, and one to BCTL is counted (R441, R442, R444). -/
def sysWrite (s : State) (pa n : Nat) : State :=
  if paPkg pa = s.mod.pkg && paKind pa = 3 && meets (paOff pa) n 0x200 8 then s.modMod ignored else s

/-- Take the cluster's arbiter lock for a block, if no other block holds it (R25, R110). -/
def takeLock (s : State) (k q : Nat) : Option State :=
  match (s.clu (cluOf k)).lock with
  | none => some (s.modClu (cluOf k) fun c => { c with lock := some (k, q) })
  | some l => if l = (k, q) then some s else none

/-- Younger blocks that have performed an access run again (R133). -/
def dropEager (s : State) (k q : Nat) : State :=
  match (s.thr k).bind fun t => t.frames.find? fun f => q < f.seq && f.s0.isSome with
  | some f => discardFrom s k f.seq
  | none => s

/-- Whether a committed store or line operation of the thread has not been acknowledged (R133, R461). -/
def storesDue (s : State) (k : Nat) : Bool :=
  s.net.any fun e => match e.2.src with
    | .store _ t => t == k
    | _ => false

/-- Whether a part of a later access has read bytes of a store's range under another name (R121). -/
def aliased (pa n va : Nat) (y : Part) : Bool :=
  y.kind != 2 && y.kind != 4 && (y.pa.any fun a => meets a y.len pa n) && !meets y.va y.len va n

/-- Make one part of a store at its block's commit (R46, R47, R99): a vault store is performed at once (R69, R118), one that
a home or device performs is sent. `sig` is the signature a release carries and `w` the request that waited for the part. No system
register takes a thread's store (R441). After a device store the younger blocks that performed an access run again (R133). -/
def makePart (s : State) (k q g : Nat) (gs : List Nat) (x : Acc) (sig : Option Sig) (w : Option (Nat × Msg)) (p : Part) : State :=
  let pa := p.pa.getD 0
  let m := { Msg.mk0 .wtUcStore .dog with
    pa := pa, len := p.len, data := p.data, cls := p.cls, scope := x.scope, sig := sig, noAlloc := p.kind = 1, node := homeNode pa }
  if p.kind = 3 then
    let s := if inKennel s pa then s else s.merge pa p.data 0
    let s := (if x.fe != 0 then s.setBits pa p.len true else s).installSig pa p.len sig
    passAt (vaultAck s g k m w) pa
  else if p.kind = 2 then sendStore (dropEager ((takeLock s k q).getD s) k q) g k { m with cls := 5 } false w
  else if p.kind = 4 then dropEager (sysWrite s pa p.len) k q
  else
    let here := fun (y : Msg) => lineOf y.pa == lineOf pa
    if p.cls = 4 then sendStore (noInstall (dropSelf s gs (lineOf pa)) gs here) g k m (p.kind = 1) w
    else if p.kind = 1 || sig.isSome || p.cls = 2 then
      let s := writeCopies s gs pa p.data false fun l => l.cls != 1 || !l.excl
      sendStore (noInstall s gs here) g k m (p.kind = 1 || p.cls = 2) w
    else if p.cls = 3 then
      match gs.find? fun h => ((s.grid h).line (lineOf pa)).any fun l => l.cls != 1 || l.excl with
      | some h => writeCopies (writeCopies s (gs.filter (· != h)) pa p.data false fun l => l.cls != 1) [h] pa p.data true fun _ => true
      | none => s
    else writeCopies (writeCopies s gs pa p.data false fun l => l.cls != 1) gs pa p.data true fun l => l.cls = 1

/-- Perform one part of a store at its block's commit; a later load of the thread that took the old bytes under another name runs
again (R121). -/
def storePart (s : State) (k q g : Nat) (gs : List Nat) (x : Acc) (sig : Option Sig) (w : Option (Nat × Msg)) (p : Part) : State :=
  rereadAfter (makePart s k q g gs x sig w p) k q (aliased (p.pa.getD 0) p.len p.va)

/-- Whether a store or atomic acts as a release at `.quad` scope or wider: by its words, or because its thread holds a fence
signature (R99, R266). -/
def isRelease (t : Thread) (x : Acc) : Bool :=
  t.fence.isSome || (x.scope != 0 && (2 ≤ x.ord || (x.kind = 1 && x.fe != 0)))

/-- Whether it is an explicit release (R100). -/
def explicit (x : Acc) : Bool := 2 ≤ x.ord || (x.kind = 1 && x.fe != 0)

/-- Whether a part of a store can be performed now: what leaves the core has a miss register (R62), a device store follows every store of
the thread and takes the lock (R110, R133), the write-through queue has room (R64), or the line it writes in the L1 is there
(R46) with no earlier store of the thread to it on its way (R120). -/
def partReady (s : State) (k q g : Nat) (gs : List Nat) (rel : Bool) (p : Part) : Bool :=
  let pa := p.pa.getD 0
  let reg := regReady s g (lineOf pa)
  if p.kind = 3 then reg
  else if p.kind = 2 then reg && !storesDue s k && (takeLock s k q).isSome
  else if p.kind = 4 then !storesDue s k && (takeLock s k q).isSome
  else if p.kind = 1 || p.cls = 2 then reg && (s.grid g).wtq.length < 16
  else if rel || p.cls = 4 then reg
  else lineReady s gs pa p.cls p.kind && !storeInFlight s k (lineOf pa)

/-- Whether a store's parts let its block ask for its commit: the lines it writes in the L1 are there (R46), and no store of another
thread of its cluster to a tracked line comes before it (R131). -/
def storeReady (s : State) (t : Thread) (k : Nat) (f : Frame) (o : Op) (x : Acc) : Bool :=
  let gs := acqGrids k t f
  o.parts.all fun p => (isRelease t x || lineReady s gs (p.pa.getD 0) p.cls p.kind) &&
    !(tracked p.cls p.kind && p.kind != 4 && clusterStore s k (cluOf k) (lineOf (p.pa.getD 0)))

/-- A store begins at its place in the commit: a release takes the signature that its parts carry, and its scope (R98 to R100). `aux`
is one more than that scope, 0 for a store that is no release. -/
def beginStore (s : State) (k q : Nat) (o : Op) (x : Acc) : State :=
  match s.thr k, s.frame k q with
  | some t, some f =>
    let gs := acqGrids k t f
    let rel := isRelease t x
    let sig := if rel then releaseSig s t gs else Sig.empty
    let aux := if rel then Nat.max x.scope t.fenceScope + 1 else 0
    let s := if rel then clearPend s gs else s
    let s := if rel && explicit x then endFence s k else s
    s.modFrame k q (·.modOp o.slot fun o =>
      { o with stage := 7, aux := aux, parts := o.parts.map fun p => { p with sig := sig } })
  | _, _ => s

/-- Perform the parts of a store that are left, in their order, as far as they can be performed now; whether all are. -/
def storeRun (k q g : Nat) (gs : List Nat) (x : Acc) (slot aux : Nat) : State → List (Part × Nat) → State × Bool
  | s, [] => (s, true)
  | s, (p, j) :: r =>
    if p.st == .got [] true then storeRun k q g gs x slot aux s r
    else if !partReady s k q g gs (aux != 0) p then (s, false)
    else
      let wide := { x with scope := if aux = 0 then x.scope else aux - 1 }
      let s := storePart s k q g gs wide (if aux = 0 then none else some p.sig) (waiterOf s k q slot j) p
      storeRun k q g gs x slot aux ((pendLine s g (p.pa.getD 0)).modPart k q slot j fun p => { p with st := .got [] true }) r

/-- A store is performed at its place in the commit (R98, R99, R118): what it leaves, and whether it is done. -/
def commitStore (s : State) (k q : Nat) (o : Op) (x : Acc) : State × Bool :=
  let s := if o.stage = 7 then s else beginStore s k q o x
  match s.thr k, (s.frame k q).bind fun f => (f.op o.slot).map fun o => (f, o) with
  | some t, some (f, o) =>
    storeRun k q (slotGrid (gridOfThr k) f.width o.slot) (acqGrids k t f) x o.slot o.aux s o.parts.zipIdx
  | _, _ => (s, true)

/-- An atomic's write is applied when its block commits, and its reservation ends (R271). One that writes nothing is no
release (R270). A later load that took the old bytes under another name runs again (R121). -/
def commitAtomic (s : State) (k q : Nat) (o : Op) (x : Acc) : State :=
  match s.thr k, s.frame k q with
  | some t, some f =>
    let gs := acqGrids k t f
    let g := slotGrid (gridOfThr k) f.width o.slot
    let mine := fun (r : Resv) => r.thr == k && r.seq == q && r.slot == o.slot
    match s.resvs.find? mine with
    | none => s
    | some r =>
      let rel := isRelease t x
      let sig := if rel then some (releaseSig s t gs) else none
      let s := { s with resvs := s.resvs.filter fun r => !mine r }
      let s := if inKennel s r.pa && paKind r.pa = 2 then s else s.merge r.pa (r.data.map some) 0
      let s := writeCopies s gs r.pa (r.data.map some) true fun l => l.cls = 1 && l.excl
      let s := writeCopies s gs r.pa (r.data.map some) false fun l => l.cls != 1
      let s := s.installSig r.pa r.data.length sig
      let s := if rel then clearPend s gs else s
      let s := if rel && explicit x then endFence s k else s
      let va := ((o.parts[0]?).map (·.va)).getD 0
      rereadAfter (passAt (pendLine s g r.pa) r.pa) k q (aliased r.pa r.data.length va)
  | _, _ => s

/-- A `.fec` load clears the bits of its granules when its block commits (R68, R69). -/
def commitClear (s : State) (o : Op) : State :=
  o.parts.foldl (fun s p => s.setBits (p.pa.getD 0) p.len false) s

/-- The grids of a core whose copy of a line an LFLUSH or LINV writes back or gives up ownership of (R269). -/
def flushes (s : State) (gs : List Nat) (line : Nat) : List Nat :=
  gs.filter fun g => ((s.grid g).line line).any fun l => l.dirty != 0#4 || l.excl

/-- Whether a line operation can be performed now: each grid that sends something has a miss register for it (R62). -/
def lineOpReady (s : State) (gs : List Nat) (o : Op) : Bool :=
  o.parts.all fun p => p.kind == 2 || p.kind == 3 || p.kind == 4 ||
    (flushes s gs (lineOf (p.pa.getD 0))).all fun g => regReady s g (lineOf (p.pa.getD 0))

/-- LFLUSH and LINV at commit (R269): dirty granules are written back, which the commit waits for; an `.own` copy in E becomes
S; LINV drops the grid's copies, and what its later blocks read of the line they read again. -/
def commitLine (s : State) (k q : Nat) (o : Op) (inv : Bool) : State :=
  match s.thr k, s.frame k q, o.parts[0]? with
  | some t, some f, some p =>
    let line := lineOf (p.pa.getD 0)
    let gs := acqGrids k t f
    if p.kind = 2 || p.kind = 3 || p.kind = 4 then s
    else
      let s := (flushes s gs line).foldl (fun s g =>
        match (s.grid g).line line with
        | none => s
        | some l => (sendReg s g { Msg.mk0 (if l.excl then .ownWb else .siWb) (.store g k) with
            pa := 64 * line, len := 64, data := dirtyBytes l, wr := true, sub := if inv then 0 else 1,
            poison := l.poison &&& l.dirty }).modGrid g (·.setLine { l with dirty := 0#4, excl := false })) s
      if !inv then s
      else
        let s := gs.foldl (fun s g => lineLeaves (s.modGrid g fun x => { x.dropLine line with bc := tdel x.bc line }) g line) s
        rereadAfter (noInstall s gs fun m => lineOf m.pa == line) k q fun p =>
          p.kind == 0 && p.pa.any fun a => lineOf a == line
  | _, _, _ => s

/-! ### Fences and barriers -/

/-- Whether a fence is a release, and whether an acquire, at `.quad` scope or wider (R275). -/
def fenceRel (f : SyncF) : Bool := f.ord.getLsbD 1 && f.scope != 0#3
/-- See `fenceRel`. -/
def fenceAcq (f : SyncF) : Bool := f.ord.getLsbD 0 && f.scope != 0#3

/-- A fence at commit, its drain done (R100, R103, R275); an acquiring one applies the arrived signature, also when a later load
made it do so before (R276). -/
def commitFence (s : State) (k q : Nat) (o : Op) (f : SyncF) : State :=
  match s.thr k, s.frame k q with
  | some t, some b =>
    let gs := acqGrids k t b
    let s := if fenceRel f then
        let x := releaseSig s t gs
        (clearPend s gs).modThr k fun t => { t with fence := some x, fenceScope := Nat.max t.fenceScope f.scope.toNat }
      else s
    if fenceAcq f then applyArrived s k q (o.lsid.getD 0) gs else s
  | _, _ => s

/-- A barrier counts an arrival with the count and the signature that it brings (R277). -/
def Bar.arrival (r : Bar) (target : Nat) (sig : Sig) : Bar :=
  let e := r.episode
  let r := if r.count = 0 then { r with target := Nat.max (target % 65536) 1, sig := Sig.empty, past := tdel r.past e } else r
  let r := { r with count := r.count + 1, sig := r.sig.or sig }
  if r.count = r.target then
    { r with count := 0, target := 0, episode := (e + 1) % 65536, past := tset r.past e r.sig, sig := Sig.empty }
  else r

/-- A barrier arrival at commit, its drain done (R277). R98 says that a release clears the grids' pending signatures and R277 lists no
clear: here they stay (log 118). -/
def commitBara (s : State) (k q : Nat) (o : Op) (f : SyncF) : State :=
  match s.thr k, s.frame k q with
  | some t, some b =>
    let gs := acqGrids k t b
    let key := barKey s k t f.scope.toNat f.bid.toNat
    let r := s.bar key
    let x := r.arrival o.a.word.toNat (releaseSig s t gs)
    let s := endFence s k
    { s with bars := tset s.bars key x }.modThr k fun t =>
      { t with arrive := tset t.arrive (16 * f.scope.toNat + f.bid.toNat) r.episode }
  | _, _ => s

end Sys2Proof.Machine
end

