-- ==== Sys2Proof/Machine/Coherence.lean ====
section
/-! DEFINITION. Requests, recalls, fills, replies and acknowledgements as they arrive (R52, R57, R62, R71, R91 to R94, R102,
R112, R271, R272). A move whose message is not there, or cannot arrive yet, changes nothing. -/

namespace Sys2Proof.Machine

/-! ### Arriving -/

/-- Whether a message is a store in its grid's write-through queue. -/
def inWtq (s : State) (n : Nat) (m : Msg) : Bool := m.agent != 0 && (s.grid (m.agent - 1)).wtq.contains n

/-- Whether two messages are stores or line operations of one thread. -/
def sameStorer (a b : Msg) : Bool :=
  match a.src, b.src with
  | .store _ t, .store _ t' => t == t'
  | _, _ => false

/-- Whether a request is kept back on its way (R92, R131): for a line, by an earlier write-back of its grid, an earlier request
of the same host or module, an earlier store of its thread, or, if it asks for the line, an earlier store of its cluster;
and a store of the write-through queue by those before it in the queue or of its thread. -/
def overtakes (s : State) (n : Nat) (m : Msg) : Bool :=
  s.net.any fun e => e.1 < n && (e.2.st == 0 || e.2.st == 3) && e.2.kind != .reply && e.2.kind != .ack &&
    (lineOf e.2.pa == lineOf m.pa && ((e.2.src == m.src && m.src.outside) ||
      (m.agent != 0 && e.2.agent == m.agent && (e.2.kind == .siWb || e.2.kind == .ownWb)) || sameStorer e.2 m ||
      (e.2.isStore && m.leavesCopy && m.agent != 0 && cluOfGrid (e.2.agent - 1) == cluOfGrid (m.agent - 1))) ||
    inWtq s e.1 e.2 && inWtq s n m && (e.2.agent == m.agent || sameStorer e.2 m))

/-- Whether a request that needs a miss or fetch register of its grid holds or shares one (R62, R48). A write-back needs none. -/
def registered (s : State) (n : Nat) (m : Msg) : Bool :=
  if m.agent = 0 || m.grp.isSome || ((m.kind = .siWb || m.kind = .ownWb) && !m.isStore) then true
  else
    let g := s.grid (m.agent - 1)
    g.mshr.contains n || g.fetchReg.contains n

/-- `cyc` where a message arrives: of the island of its home's slice, or of its vault's cluster (R451: slices 0 to 31 lie in the
first island of their die). -/
def nowAt (s : State) (m : Msg) : Word :=
  let half := if homeSlice m.pa < 32 then 0 else 40
  if 9 ≤ m.node then s.cycOf (m.node - 9)
  else if m.node = 0 then s.cycOf (80 * homeDie m.pa + half) else s.cycOf (80 * (m.node - 1) + half)

/-- Whether a message of a kind can arrive now. -/
def canArrive (s : State) (n : Nat) (m : Msg) (kind : MKind) : Bool :=
  m.kind == kind && m.st == 0 && registered s n m && !overtakes s n m

/-- A request of a kind arrives at an L2 home or proxy. -/
def arriveHome (s : State) (n : Nat) (kind : MKind) : Host.Outcome State Fault Refusal :=
  match s.msg n with
  | some m => .next (if canArrive s n m kind && m.node < 9 then homeArrive s n m (nowAt s m) else s)
  | none => .next s

/-- The filter back-invalidates the holders of an entry that must leave it (R112): one snoop at a time. -/
def filterEvict (s : State) (line : Nat) : State :=
  match (s.die (homeDie (64 * line))).filter.find? fun e => e.1 % 1024 == line % 1024 with
  | none => s
  | some e =>
    if s.net.any fun x => x.2.kind == .bisnp && lineOf x.2.pa == e.1 then s
    else s.send { Msg.mk0 .bisnp .dog with pa := 64 * e.1, len := 64, agent := 648, takes := 1, wr := true, par := s.fresh }

/-- A line request arrives; one that comes from beyond the package needs its place in the remote filter first, also when it waited
while others took the room (R112). -/
def arriveLine (s : State) (n : Nat) (kind : MKind) : Host.Outcome State Fault Refusal :=
  match s.msg n with
  | some m =>
    if m.holdsOut && m.kind = kind && m.st ≤ 1 && m.node < 9 then
      if !filterRoom s (lineOf m.pa) then .next (filterEvict s (lineOf m.pa))
      else if m.st = 1 then .next (homePass s (queueKey m.node (lineOf m.pa)))
      else arriveHome s n kind
    else arriveHome s n kind
  | none => .next s

/-- OWN_LOAD_MISS (R91). -/
def execOwnLoadMiss (n : Nat) (s : State) : Host.Outcome State Fault Refusal := arriveLine s n .ownLoad

/-- OWNERSHIP_REQUEST (R91). -/
def execOwnershipRequest (n : Nat) (s : State) : Host.Outcome State Fault Refusal := arriveLine s n .ownership

/-- WT_SI_LOAD_MISS (R91). -/
def execWtSiLoadMiss (n : Nat) (s : State) : Host.Outcome State Fault Refusal := arriveHome s n .wtSiLoad

/-- UC_LOAD (R91); also a table-entry read of the Retriever (R26) and an engine's source read (R83). -/
def execUcLoad (n : Nat) (s : State) : Host.Outcome State Fault Refusal :=
  match s.msg n with
  | some m => if m.kind = .engRead then arriveHome s n .engRead else arriveHome s n .ucLoad
  | none => .next s

/-- WT_UC_STORE (R91): a store, or a write that comes to wait for its turn (R85, R92), reaches its home. -/
def execWtUcStore (n : Nat) (s : State) : Host.Outcome State Fault Refusal :=
  match s.msg n with
  | some m => if m.kind = .waiter then arriveHome s n .waiter else arriveHome s n .wtUcStore
  | none => .next s

/-- A write-back of an owned line is taken in at once: its owner gives the line up, or keeps a shared copy (R91, R269). -/
def absorbOwn (s : State) (n : Nat) (m : Msg) : State :=
  let line := lineOf m.pa
  let g := m.agent - 1
  let node := if homeDie m.pa != g / 640 then g / 640 + 1 else 0
  let d := s.dir node line
  let s := s.merge m.pa m.data m.poison
  let s := if d.st = .e && d.owner = g % 640 then
      s.setDir node line (if m.sub = 1 then { d with st := .s, own := d.own.add (g % 640) }
        else dirSettle { d with st := .s } 0 false)
    else s
  s.setMsg n { m with kind := .ack, st := 0 }

/-- SI_WRITE_BACK (R93): dirty granules replace theirs at the home; an owned line's write-back is absorbed. -/
def execSiWriteBack (n : Nat) (s : State) : Host.Outcome State Fault Refusal :=
  match s.msg n with
  | some m =>
    if m.kind = .ownWb && m.st = 0 && !overtakes s n m then .next (absorbOwn s n m) else arriveHome s n .siWb
  | none => .next s

/-- ATOMIC_ISSUE (R271). -/
def execAtomicIssue (thr seq slot : Nat) (s : State) : Host.Outcome State Fault Refusal :=
  .next (sendAtomic s thr seq slot)

/-- ATOMIC_AT_HOME (R271): at its L2 home, behind the committed writes of its line, or at its vault. -/
def execAtomicAtHome (n : Nat) (s : State) : Host.Outcome State Fault Refusal :=
  match s.msg n with
  | some m =>
    if canArrive s n m .atomic && (9 ≤ m.node || !writeComing s (lineOf m.pa)) then
      .next (if m.node < 9 then homeArrive s n m (nowAt s m) else vaultArrive s n m (nowAt s m))
    else .next s
  | none => .next s

/-- The kinds of message that a vault serves. -/
def Msg.vaultKind (m : Msg) : Bool :=
  m.kind == .vault || m.kind == .waiter || m.kind == .wtUcStore || m.kind == .engOwn || m.kind == .engRead

/-- VAULT_ACCESS (R69, R71). -/
def execVaultAccess (n : Nat) (s : State) : Host.Outcome State Fault Refusal :=
  match s.msg n with
  | some m =>
    .next (if m.vaultKind && 9 ≤ m.node && canArrive s n m m.kind then vaultArrive s n m (nowAt s m) else s)
  | none => .next s

/-- VAULT_RETRY (R71): an access that a full wait list returned is sent again. -/
def execVaultRetry (n : Nat) (s : State) : Host.Outcome State Fault Refusal :=
  match s.msg n with
  | some m => .next (if m.st = 3 && 9 ≤ m.node then vaultArrive s n m (nowAt s m) else s)
  | none => .next s

/-- RESERVATION_BREAK (R272): a write has waited 512 cycles behind the reservation on a granule; a block that the arbiter has
granted is past squashing (R109). -/
def execReservationBreak (granule : Nat) (s : State) : Host.Outcome State Fault Refusal :=
  match s.resvs.find? fun r => (gransOf r.pa r.data.length).contains granule with
  | none => .next s
  | some r =>
    let waits := s.net.any fun e =>
      e.2.st == 1 && e.2.wr && (gransOf e.2.pa e.2.len).any (gransOf r.pa r.data.length).contains &&
      e.2.src.block != some (r.thr, r.seq) && 512 ≤ (nowAt s e.2 - e.2.t0).toNat
    .next (if waits && (s.frame r.thr r.seq).any (·.stage != 2) then squashAt s r.thr r.seq else s)

/-! ### Recalls (R91, R94, R112) -/

/-- The grid an agent id below 640 names at a node. -/
def agentGrid (node line a : Nat) : Nat := 640 * (if node = 0 then homeDie (64 * line) else node - 1) + a

/-- Whether a recall takes a line's copy in an L1. -/
def recallHits (m : Msg) (l : L1Line) : Bool := if m.wr then (if l.cls = 1 then m.takes % 2 = 1 else 2 ≤ m.takes) else l.excl

/-- A recall at a grid: its copies are dropped or downgraded, their dirty granules go with the acknowledgement, through the
write-back buffer (R64). Loads under an acquire that has not returned are replayed, though the copy may have left before
(R276). -/
def recallGrid (s : State) (n : Nat) (m : Msg) (g : Nat) : State :=
  let line := lineOf m.pa
  let none4 : List (Option Byte) := []
  let s := if m.wr && m.takes % 2 = 1 then s.modGrid g fun x => { x with bc := tdel x.bc line } else s
  match (s.grid g).line line with
  | none =>
    let s := s.setMsg n { m with kind := .recallAck, data := none4 }
    if m.wr then lineLeaves s g line else s
  | some l =>
    let hit := recallHits m l
    let dirty := hit && l.dirty != 0#4
    let s := s.setMsg n { m with kind := .recallAck, data := if dirty then dirtyBytes l else none4,
                                 poison := if hit then l.poison &&& l.dirty else 0#4 }
    let s := if dirty then s.modGrid g fun x => { x with wb := x.wb ++ [n] } else s
    if !hit then s
    else if m.wr then lineLeaves (s.modGrid g (·.dropLine line)) g line
    else s.modGrid g (·.setLine { l with excl := false, dirty := 0#4 })

/-- RECALL (R91): a recall reaches a grid, a proxy (R94) or the remote filter (R112). A grid to which the line is on its
way takes the line first; one whose dirty copy finds the write-back buffer full keeps it until there is room (R64). -/
def execRecallReach (n : Nat) (s : State) : Host.Outcome State Fault Refusal :=
  match s.msg n with
  | none => .next s
  | some m =>
    if m.kind != .recall || m.st != 0 then .next s
    else if m.agent < 640 then
      let g := agentGrid m.node (lineOf m.pa) m.agent
      let coming := s.net.any fun e =>
        e.2.kind == .reply && e.2.agent == g + 1 && lineOf e.2.pa == lineOf m.pa && e.2.sub != 0 && e.2.takes == 0
      let full := 8 ≤ (s.grid g).wb.length && ((s.grid g).line (lineOf m.pa)).any fun l => recallHits m l && l.dirty != 0#4
      .next (if coming || full then s else recallGrid s n m g)
    else if m.agent < 648 then
      let node := m.agent - 639
      .next (homeArrive s n { m with node := node } (nowAt s m))
    else .next (s.setMsg n { m with kind := .bisnp })

/-- The write-backs of an agent for a line that have not been performed take their place before its acknowledgement. -/
def absorbAll (s : State) (node line a takes : Nat) : State :=
  let g := agentGrid node line a
  s.net.foldl (fun s e =>
    if e.2.agent = g + 1 && lineOf e.2.pa = line && e.2.st ≤ 1 && a < 640 then
      if e.2.kind = .ownWb then absorbOwn s e.1 e.2
      else if e.2.kind = .siWb && 2 ≤ takes then
        (s.merge e.2.pa e.2.data e.2.poison).answer e.1 { e.2 with kind := .ack, st := 0 }
      else s
    else s) s

/-- An acknowledgement is taken in: the returned granules are merged and the agent leaves the sets. -/
def takeAck (s : State) (n : Nat) (m : Msg) : State :=
  let line := lineOf m.pa
  match s.msg m.par with
  | none => s.delMsg n
  | some p =>
    let s := if m.agent < 640 then s.modGrid (agentGrid p.node line m.agent) fun x => { x with wb := x.wb.filter (· != n) } else s
    let s := absorbAll s p.node line m.agent m.takes
    let s := s.merge (64 * line) m.data m.poison
    let s := (s.setDir p.node line (dirDrop (s.dir p.node line) m.agent m.takes m.wr)).delMsg n
    let more := s.net.any fun e => e.2.par == m.par && (e.2.kind == .recall || e.2.kind == .recallAck || e.2.kind == .bisnp)
    if more then s
    else
      let s := s.setDir p.node line (dirSettle (s.dir p.node line) m.takes m.wr)
      homePass (s.setMsg m.par { p with st := 1 }) (queueKey p.node line)

/-- RECALL_ACK (R91): with the last one the waiting request is performed. -/
def execRecallAck (n : Nat) (s : State) : Host.Outcome State Fault Refusal :=
  match s.msg n with
  | some m => .next (if m.kind = .recallAck && m.st = 0 then takeAck s n m else s)
  | none => .next s

/-- BIRSP (R112): the holders beyond the package have answered a back-invalidation; the dirty bytes they return are
merged. A downgrade leaves them as sharers. -/
def execBirsp (n : Nat) (x : LinkData) (s : State) : Host.Outcome State Fault Refusal :=
  match s.msg n with
  | none => .next s
  | some m =>
    if m.kind != .bisnp then .next s
    else
      let line := lineOf m.pa
      let data := (x.bytes.take 64).map some
      let s := s.modDie (homeDie m.pa) fun d =>
        let f := match tget d.filter line with
          | some e => if m.wr then tdel d.filter line else tset d.filter line (e.1, false)
          | none => d.filter
        { d with filter := f }
      if m.par = n then
        .next (((s.merge (64 * line) data x.pz).setDir 0 line
          (dirSettle (dirDrop (s.dir 0 line) 648 1 true) 0 true)).delMsg n)
      else .next (takeAck s n { m with kind := .recallAck, data := data, poison := x.pz })

/-- BICONFLICT (R114): the host's request is performed first, once no block's reservation stands on the line (R271): every copy that
R91 or R113 takes is recalled, and the host holds the line in E, or, where it asked for a write, its bytes are merged. The
back-invalidation goes out again. -/
def execBiconflict (n : Nat) (x : HostAnswer) (s : State) : Host.Outcome State Fault Refusal :=
  match s.msg n with
  | none => .next s
  | some m =>
    let line := lineOf m.pa
    let d := homeDie m.pa
    if m.kind != .bisnp || hwBlocked s (64 * line) 64 then .next s
    else if x.bytes = [] then
      let s := hwRecall s line false
      .next ((s.modDie d fun y => { y with filter := tset y.filter line ([x.host % 128], true) }).setDir 0 line
        { (s.dir 0 line) with st := .e, own := .empty, owner := 648 })
    else .next ((hwRecall s line true).merge (64 * line) ((x.bytes.take 64).map some) x.pz)

/-! ### Fills, replies and acknowledgements -/

/-- Whether a line of a slice can be given up now: no engine owns it, no request waits for it, none of a proxy's die is on its
way for it, and its eviction has not begun. -/
def evictable (s : State) (key : Nat) : Bool :=
  let node := key / 2 ^ 50
  let line := key % 2 ^ 50
  (s.dir node line).st != .eo && s.queue key = [] && !s.net.any fun e =>
    lineOf e.2.pa == line && ((e.2.kind == .evict && e.2.node == node) ||
      (node != 0 && e.2.leavesCopy && e.2.agent != 0 && (e.2.agent - 1) / 640 + 1 == node))

/-- MEMORY_FILL (R52, R57, R58, R94, R95): a line that a request waits for comes into its slice, at the home or for a proxy; a full
set gives up the line used least recently, whose copies are recalled first. Of another package's line, the owner grants
what the first request needs. -/
def execMemoryFill (node line : Nat) (s : State) : Host.Outcome State Fault Refusal :=
  let key := nodeKey node line
  match (s.queue key).findSome? s.msg with
  | none => .next s
  | some m =>
    if 9 ≤ node then .next s
    else if s.l2.contains key then
      match (s.queue key).findSome? fun n => (s.msg n).bind fun m => if m.st = 1 && !upOk s m then some m else none with
      | some m => .next (if node = 0 then homePass (ownerGrants s line (needsUp m = .e)) key else s)
      | none => .next s
    else
      let set := l2Set s node line
      if set.length < 16 then .next (homePass (fillL2 s node line m.noAlloc) key)
      else
        match set.find? (evictable s) with
        | none => .next s
        | some v =>
          let vn := v / 2 ^ 50
          let vl := v % 2 ^ 50
          if s.dir vn vl = Dir.none then .next (homePass (fillL2 (dropL2 s vn vl) node line m.noAlloc) key)
          else
            let n := s.fresh
            let e := { Msg.mk0 .evict .dog with pa := 64 * vl, len := 64, node := vn, wr := true }
            .next (homeArrive (s.send e) n e (nowAt s e))

/-- LOAD_REPLY (R62). -/
def execLoadReply (n victim : Nat) (s : State) : Host.Outcome State Fault Refusal := .next (takeReply s n victim)

/-- A message leaves every list that counted it. -/
def dropAck (s : State) (n : Nat) : State :=
  let out := fun (l : List Nat) => l.filter (· != n)
  let s := match s.msg n with
    | some m => if m.agent = 0 then s else (leaveReg s (m.agent - 1) n).modGrid (m.agent - 1) fun g =>
        { g with wtq := out g.wtq, wb := out g.wb }
    | none => s
  s.delMsg n

/-- STORE_ACK (R62, R64): a store, write-back or line operation is acknowledged. -/
def execStoreAck (n : Nat) (s : State) : Host.Outcome State Fault Refusal :=
  match s.msg n with
  | some m =>
    match m.src with
    | .eng _ _ _ => .next s
    | _ => .next (if m.kind = .ack && m.st = 0 then dropAck s n else s)
  | none => .next s

/-- Whether a committed store of a grid waits for a miss register. -/
def storeWaits (s : State) (g : Nat) : Option Nat :=
  (s.net.find? fun e => e.2.agent == g + 1 && e.2.st == 0 && e.2.isStore && !registered s e.1 e.2).map (·.1)

/-- MISS_REGISTER_GRANT (R62): committed stores of the grid that wait come first, then the waiting access. -/
def execMissRegisterGrant (thr seq slot : Nat) (s : State) : Host.Outcome State Fault Refusal :=
  match s.frame thr seq with
  | none =>
    let gs := (s.thr thr).elim [gridOfThr thr] fun t => coreGrids (gridOfThr thr) t.width
    .next (gs.foldl grantStore s)
  | some f =>
    let g := slotGrid (gridOfThr thr) f.width slot
    match storeWaits s g with
    | some _ => .next (grantStore s g)
    | none => .next (advance s thr seq slot none)
where
  /-- A committed store takes a free register. -/
  grantStore (s : State) (g : Nat) : State :=
    match storeWaits s g with
    | some n =>
      match (s.msg n).bind fun m => regOf s g (lineOf m.pa) with
      | some r => { s with net := s.net.map fun (e : Nat × Msg) => if e.1 = n then (e.1, { e.2 with grp := some r }) else e }
      | none => if (s.grid g).mshr.length < 32 then s.modGrid g fun x => { x with mshr := x.mshr ++ [n] } else s
    | none => s

/-! ### The purge of signatures (R102) -/

/-- A grid writes back its dirty granules and drops its self-managed lines. -/
def purgeGrid (s : State) (g : Nat) : State :=
  let gone := (s.grid g).l1.filter (·.cls != 1)
  let s := (gone.filter fun l => l.dirty != 0#4).foldl (fun s l => writeBack s g l false false) s
  let s := s.modGrid g fun x => { x with l1 := x.l1.filter (·.cls == 1) }
  gone.foldl (fun s l => lineLeaves s g l.line) s

/-- SIGNATURE_PURGE (R102): starts when an overflow signature is `all`. -/
def execSignaturePurge (unit : Nat) (s : State) : Host.Outcome State Fault Refusal :=
  if s.mod.purge.isSome || !(tget s.sigbufs unit).any (·.ovf.all) then .next s
  else
    let us := (s.sigbufs.filter (·.2.ovf.all)).map (·.1)
    let gs := s.grids.map (·.1)
    let s := noInstall (gs.foldl purgeGrid s) gs fun m => m.kind != .ownLoad && m.kind != .ownership && m.cls != 1
    let ms := (s.net.filter fun e => e.2.kind == .siWb).map (·.1)
    .next (s.modMod fun m => { m with purge := some (us, ms) })

/-- PURGE_CLEAR (R102): every grid has acknowledged. -/
def execPurgeClear (s : State) : Host.Outcome State Fault Refusal :=
  match s.mod.purge with
  | none => .next s
  | some (us, ms) =>
    if ms.any fun n => (s.msg n).any (·.kind == .siWb) then .next s
    else
      let clear := fun (e : Nat × SigBuf) =>
        if us.contains e.1 then (e.1, { e.2 with ovf := Sig.empty, absorbed := 0 }) else e
      .next ({ s with sigbufs := s.sigbufs.map clear }.modMod fun m => { m with purge := none })

end Sys2Proof.Machine
end

