-- ==== Sys2Proof/Machine/Walks.lean ====
section
/-! DEFINITION. The Retriever (R26 to R36): misses take walk slots, walks read one entry at a time through the walk caches or
the entries' homes, set A and D, and answer everything that waits for their page. -/

namespace Sys2Proof.Machine

/-- Update a walk. -/
def State.modWalk (s : State) (die idx : Nat) (f : Walk → Walk) : State :=
  s.modDie die fun d => { d with walks := match tget d.walks idx with
    | some w => tset d.walks idx (f w)
    | none => d.walks }

/-- Remove a walk and the read it has outstanding. -/
def dropWalk (s : State) (die idx : Nat) : State :=
  let n := (tget (s.die die).walks idx).bind (·.msg)
  let s := match n with
    | some n =>
      match s.msg n with
      | some m => (s.unqueue (queueKey m.node (lineOf m.pa)) n).delMsg n
      | none => s
    | none => s
  s.modDie die fun d => { d with walks := tdel d.walks idx }

/-- The walk-cache entry a walk's level would use (R35). -/
def cacheGet (d : Die) (w : Walk) : Option Nat :=
  (d.wcache.find? fun e => e.1 == (w.ctx, w.lvl, lvlTag w.page w.lvl)).map (·.2)

/-- How many entries a level shares with the levels of its walk cache (R35). -/
def cacheSize (lvl : Nat) : Nat := if lvl = 1 then 64 else if lvl = 2 then 512 else 2048

/-- Put a non-leaf entry into the walk cache of its level (R35). -/
def cacheAdd (d : Die) (w : Walk) (e : Nat) : Die :=
  let part := fun (l : Nat) => if 3 ≤ l then 3 else l
  let same := d.wcache.filter fun x => part x.1.2.1 == part w.lvl && x.1 != (w.ctx, w.lvl, lvlTag w.page w.lvl)
  let rest := d.wcache.filter fun x => part x.1.2.1 != part w.lvl
  { d with wcache := rest ++ (((w.ctx, w.lvl, lvlTag w.page w.lvl), e) :: same).take (cacheSize w.lvl) }

/-- The physical address of the entry a walk reads next (R22). -/
def Walk.entryPa (w : Walk) : Nat := w.base + 8 * lvlIndex w.page w.lvl

/-- A block's fetch waits for a page: its next chunk lies there and has neither arrived nor been asked for. -/
def Frame.wantsPage (f : Frame) (page : Nat) : Bool :=
  let has := fun (c : Nat) => (tget f.chunks c).isSome || f.missing.any (·.1 == c)
  f.stage == 0 && (List.range (if (tget f.chunks 0).isSome then hdrChunks f.hdr + 1 else 1)).any fun c =>
    !has c && pageOf (f.addr + BitVec.ofNat 80 (128 * c)).toNat == page

/-- Note a fetch failure once (R37, R38). -/
def Frame.failFetch (f : Frame) (page cause lvl : Nat) : Frame :=
  if f.fails.any (·.page == page) then f
  else { f with fails := f.fails ++ [⟨0, page, cause, 3, lvl⟩] }

/-- The blocks of a context in a cluster that wait to fetch from a page receive a failure (R36). -/
def failFetches (s : State) (clu ctx page cause lvl : Nat) : State :=
  let upd := fun (f : Frame) => if f.wantsPage page then f.failFetch page cause lvl else f
  { s with thrs := s.thrs.map fun (e : Nat × Thread) =>
      if cluOf e.1 = clu && e.2.ctx = ctx then (e.1, { e.2 with frames := e.2.frames.map upd }) else e }

/-- Update the memory side of every engine command of a cluster that a test picks. -/
def Clu.mapEng (c : Clu) (p : Capture → Bool) (f : Eng → Eng) : Clu :=
  { c with
    jobs := c.jobs.map fun j => if p j.cap then { j with eng := f j.eng } else j
    fab := { c.fab with q := c.fab.q.map fun j => if p j.cap then { j with eng := f j.eng } else j }
    copyQ := c.copyQ.map fun j => if p j.cap then { j with eng := f j.eng } else j
    streams := c.streams.map fun x => if p x.cmd.cap then { x with cmd := { x.cmd with eng := f x.cmd.eng } } else x }

/-- The commands of a context that wait for a page receive the failure of its walk (R29, R36). -/
def Clu.failEngines (c : Clu) (ctx page cause : Nat) : Clu :=
  c.mapEng (·.ctx == ctx) fun e =>
    if e.asked.contains page then { e with asked := e.asked.filter (· != page), nope := e.nope ++ [(page, cause)] } else e

/-- A walk ends with a failure: the misses of its key receive it (R36). -/
def walkFail (s : State) (die idx cause lvl : Nat) : State :=
  match tget (s.die die).walks idx with
  | none => s
  | some w =>
    let s := dropWalk s die idx
    w.clus.foldl (fun s c =>
      let mine := fun (m : Miss) => m.ctx == w.ctx && m.page == w.page && m.gen == w.gen
      let s := s.modClu c fun u => { u with misses := u.misses.filter (!mine ·) }.failEngines w.ctx w.page cause
      failFetches (failPage s c w.ctx w.page cause lvl) c w.ctx w.page cause lvl) s

/-- The walks on a die that a leaf answers (R34). -/
def answered (s : State) (die : Nat) (w : Walk) (t : Trans) : List (Nat × Walk) :=
  (s.die die).walks.filter fun e => e.2.ctx == w.ctx && e.2.gen == w.gen && t.covers w.ctx e.2.page

/-- A leaf answers every walk it covers: the TLBs of the clusters where more than prefetches asked are filled, and the waiters
go on, in the other clusters the prefetches only (R28, R30, R34). -/
def walkDone (s : State) (die : Nat) (w : Walk) (t : Trans) : State :=
  let ws := answered s die w t
  let s := ws.foldl (fun s e => dropWalk s die e.1) s
  let real := (ws.flatMap (·.2.real)).eraseDups
  let s := if real = [] then s else s.modDie die fun d => { d with stlb := tlbAdd 512 16 t d.stlb }
  let s := real.foldl (fun s c => tlbFill s none c t) s
  let cs := (ws.flatMap (·.2.clus)).eraseDups
  let s := cs.foldl (fun s c => s.modClu c fun u =>
    { u with misses := u.misses.filter fun m =>
        !(m.ctx == w.ctx && m.gen == w.gen && m.st == 2 && t.covers w.ctx m.page) }) s
  cs.foldl (fun s c => wake s c w.ctx (some t) (!real.contains c)) s

/-- Send a read or an update of a walk to its entry's home (R26, R27). -/
def walkSend (s : State) (die idx : Nat) (w : Walk) (m : Msg) : State :=
  let n := s.fresh
  (s.send { m with src := .walk die idx, ctx := w.ctx, gen := w.gen, len := 8, cls := 1, scope := 4 }).modWalk die idx
    fun w => { w with msg := some n }

/-- A walk goes on at its level: a walk-cache hit waits for its event, else the entry is read (R26, R35). A table in a vault or in system
space is none that a walk can reach (R18; log 126). -/
def walkRead (s : State) (die idx : Nat) : State :=
  match tget (s.die die).walks idx with
  | none => s
  | some w =>
    if (cacheGet (s.die die) w).isSome then s
    else if 2 ≤ paKind w.entryPa || !populated s.mod.cxl w.entryPa || !s.mod.presence.getLsbD (paPkg w.entryPa) then walkFail s die idx 5 w.lvl
    else walkSend s die idx w { Msg.mk0 .ucLoad .dog with pa := w.entryPa }

/-- A leaf was read: A and D are set where this is due, else the walk ends (R27, R28). -/
def walkLeaf (s : State) (die idx : Nat) (w : Walk) (t : Trans) (e : Nat) : State :=
  let ws := answered s die w t
  let a := ws.any fun x => x.2.real != []
  let d := t.w && ws.any (·.2.setD)
  if (a && !e.testBit 1) || (d && !e.testBit 2) then
    walkSend (s.modWalk die idx fun w => { w with leaf := some (e, if d then 1 else 0) }) die idx w
      { Msg.mk0 .dogUpdate .dog with pa := w.entryPa, wr := true, arg := e, sub := if d then 1 else 0 }
  else walkDone s die w t

/-- Apply an entry at a walk's level (R22 to R24). -/
def walkApply (s : State) (die idx : Nat) (w : Walk) (e : Nat) (cached : Bool) : State :=
  match pteCheck s w.ctx w.page w.lvl e w.w w.x w.p with
  | .fail c => walkFail s die idx c w.lvl
  | .table b pw px pp =>
    let s := if cached then s else s.modDie die fun d => cacheAdd d w e
    walkRead (s.modWalk die idx fun w => { w with base := b, w := pw, x := px, p := pp, lvl := w.lvl + 1, msg := none }) die idx
  | .leaf t => walkLeaf (s.modWalk die idx fun w => { w with msg := none }) die idx { w with msg := none } t e

/-- A walk begins at the root table of its context (R22). -/
def walkBegin (s : State) (die idx : Nat) (w : Walk) : State :=
  walkRead (s.modDie die fun d => { d with walks := tset d.walks idx { w with
    lvl := 1, base := field ((s.ctx w.ctx).word 0) 55 16 * 65536, w := true, x := true, p := false, leaf := none,
    msg := none } }) die idx

/-- The lowest free walk slot of a die (R33). -/
def freeWalk (d : Die) : Option Nat := (List.range 512).find? fun i => (tget d.walks i).isNone

/-- A miss joins a walk of its key or takes a free slot (R33, R34); else it stays. -/
def walkTake (s : State) (clu : Nat) (m : Miss) : Option State :=
  let die := dieOf clu
  let mine := fun (x : Miss) => x.ctx == m.ctx && x.page == m.page && x.gen == m.gen
  let s' := s.modClu clu fun c => { c with misses := c.misses.map fun x => if mine x then { x with st := 2 } else x }
  match (s.die die).walks.find? fun e => e.2.ctx == m.ctx && e.2.page == m.page && e.2.gen == m.gen with
  | some e => some (s'.modWalk die e.1 fun w =>
      { w with clus := addOnce w.clus clu, setD := w.setD || m.setD, real := if m.pref then w.real else addOnce w.real clu })
  | none => (freeWalk (s.die die)).map fun i => walkBegin s' die i
      { ctx := m.ctx, gen := m.gen, page := m.page, lvl := 1, base := 0, w := true, x := true, p := false, clus := [clu],
        leaf := none, msg := none, setD := m.setD, real := if m.pref then [] else [clu] }

/-- WALK_START (R33, R34): a miss that a TLB serves by now ends; else it takes a walk slot, joins a walk, or enters the miss
queue of 16. -/
def execWalkStart (clu idx : Nat) (s : State) : Host.Outcome State Fault Refusal :=
  match (s.clu clu).misses[idx]? with
  | none => .next s
  | some m =>
    let mine := fun (x : Miss) => x.ctx == m.ctx && x.page == m.page && x.gen == m.gen
    if m.st != 0 then .next s
    else if m.gen != (s.ctx m.ctx).gen then
      .next (s.modClu clu fun c => { c with misses := c.misses.filter (!mine ·) })
    else
      match tlbGet s none clu m.ctx m.page with
      | some e =>
        if m.setD && !e.d then go s clu m
        else
          let s := s.modClu clu fun c => { c with misses := c.misses.filter (!mine ·) }
          .next (wake (if m.pref then s else tlbFill s none clu e) clu m.ctx (some e) m.pref)
      | none => go s clu m
where
  /-- The miss leaves the shared TLB. -/
  go (s : State) (clu : Nat) (m : Miss) : Host.Outcome State Fault Refusal :=
    match walkTake s clu m with
    | some s' => .next s'
    | none =>
      if ((s.clu clu).misses.filter (·.st == 1)).length < 16 then
        .next (s.modClu clu fun c => { c with misses := c.misses.map fun x =>
          if x.ctx = m.ctx && x.page = m.page && x.gen = m.gen then { x with st := 1 } else x })
      else .next s

/-- WALK_SLOT_GRANT (R33): the first miss of a cluster's miss queue takes a freed slot. -/
def execWalkSlotGrant (clu : Nat) (s : State) : Host.Outcome State Fault Refusal :=
  match (s.clu clu).misses.find? (·.st == 1) with
  | some m => .next ((walkTake s clu m).getD s)
  | none => .next s

/-- WALK_CACHE_HIT (R35). -/
def execWalkCacheHit (die idx : Nat) (s : State) : Host.Outcome State Fault Refusal :=
  match tget (s.die die).walks idx with
  | none => .next s
  | some w =>
    match cacheGet (s.die die) w with
    | some e => .next (if w.msg.isNone && w.leaf.isNone then walkApply s die idx w e true else s)
    | none => .next (if w.msg.isNone && w.leaf.isNone then walkRead s die idx else s)

/-- The reply a walk waits for. -/
def walkReply (s : State) (die idx : Nat) : Option (Nat × Nat × Walk) :=
  (tget (s.die die).walks idx).bind fun w => w.msg.bind fun n => (s.msg n).bind fun m =>
    if m.kind = .reply then some (n, leNat (m.data.map (·.getD 0)), w) else none

/-- WALK_ENTRY_READ (R26, R36): the reply of a read goes to its walk; one whose walk is gone is dropped (R21, R34). -/
def execWalkEntryRead (die idx : Nat) (s : State) : Host.Outcome State Fault Refusal :=
  match walkReply s die idx with
  | some (n, e, w) => .next (if w.leaf.isNone then walkApply (s.delMsg n) die idx w e false else s)
  | none =>
    let cur := (tget (s.die die).walks idx).bind (·.msg)
    let stray := s.net.filter fun x => x.2.kind == .reply && x.2.src == .walk die idx && some x.1 != cur
    .next (stray.foldl (fun s x => s.delMsg x.1) s)

/-- ACCESSED_DIRTY_UPDATE (R27): done, or abandoned for a new walk. -/
def execAccessedDirtyUpdate (die idx : Nat) (s : State) : Host.Outcome State Fault Refusal :=
  match walkReply s die idx with
  | none =>
    -- an update that reached its home: the walk's own messages travel by this event
    match (tget (s.die die).walks idx).bind fun w => w.msg with
    | some n =>
      match s.msg n with
      | some m => .next (if m.kind = .dogUpdate && m.st = 0 then homeArrive s n m (nowAt s m) else s)
      | none => .next s
    | none => .next s
  | some (n, e, w) =>
    match w.leaf with
    | none => .next s
    | some (old, sd) =>
      let s := (s.delMsg n).modWalk die idx fun w => { w with msg := none, leaf := none }
      let w := { w with msg := none, leaf := none }
      if pteSame old e then
        match pteCheck s w.ctx w.page w.lvl (e ||| 2) w.w w.x w.p with
        | .leaf t => .next (walkLeaf s die idx w { t with d := t.d || sd = 1 } (e ||| (if sd = 1 then 6 else 2)))
        | _ => .next (walkBegin s die idx w)
      else .next (walkBegin s die idx w)

end Sys2Proof.Machine
end

