-- ==== Sys2Proof/Machine/Blocks.lean ====
section
/-! DEFINITION. Blocks come in: which block is fetched next (R166, R257), frames (R165, R171), chunks through the block cache
(R48, R49), mapping and the check (R203), and tokens on their way (R163, R164, R193, R197). -/

namespace Sys2Proof.Machine

/-! ### Frames -/

/-- Eighths of a grid's slot entries that blocks in flight take (R165). -/
def entriesOn (s : State) (g : Nat) : Nat :=
  ((s.thrs.filter fun e => cluOf e.1 == cluOfGrid g).flatMap fun e => e.2.frames.map fun f =>
    if (coreGrids (gridOfThr e.1) f.width).contains g then 8 / f.width else 0).foldl (· + ·) 0

/-- Whether a thread may take one more frame (R165). -/
def frameFree (s : State) (k : Nat) (t : Thread) : Bool :=
  let room := (coreGrids (gridOfThr k) t.width).all fun g => entriesOn s g + 8 / t.width ≤ 64
  let free := (64 - entriesOn s (gridOfThr k)) / 8
  let owed := ((s.thrs.filter fun e => gridOfThr e.1 == gridOfThr k && e.1 != k && e.2.run).map fun e =>
    2 - e.2.frames.length).foldl (· + ·) 0
  room && (t.width != 1 || t.frames = [] || owed + 1 ≤ free)

/-- A block whose fetch begins. -/
def Frame.mk0 (seq : Nat) (addr : VAddr) (sup : Bool) (width : Nat) (lead : Option Nat) : Frame :=
  { seq := seq, addr := addr, sup := sup, width := width, stage := 0, lead := lead, chunks := [], missing := [],
    poisoned := false, refused := none, unread := [], toks := [], transit := [], fired := [], skipped := [], ops := [],
    exit := none, pred := none, fails := [], faults := [], colls := [], rsig := Sig.empty, wsig := Sig.empty, s0 := none,
    flags := 0#6, nfired := 0, l1miss := 0, cyc := 0 }

/-- A misaligned block address is refused as it is fetched (R204). -/
def Frame.aligned (f : Frame) : Frame :=
  if f.addr % 128#80 = 0#80 then f else { f with refused := some (BitVec.ofNat 64 (refusal 3 0 false false)) }

/-- A thread takes a frame for a block. -/
def Thread.take (t : Thread) (addr : VAddr) (lead : Option Nat) : Thread :=
  { t with
    frames := t.frames ++ [(Frame.mk0 t.nextSeq addr (t.spec.tstat.getLsbD 0) t.width lead).aligned]
    nextSeq := t.nextSeq + 1 }

/-! ### Which block comes next (R166, R257) -/

/-- The branch with exit number `e` in the lowest slot of a mapped block. -/
def exitSlot (f : Frame) (e : Nat) : Option (Nat × Slot32 × Slot32) := f.slots.find? fun x => exitOf x.2.1 x.2.2 == some e

/-- The exit number predicted for a block: `choice` when the predictor has seen it there, else the last one seen, 0 without
a history. -/
def predictExit (g : Grid) (addr : VAddr) (choice : Nat) : Nat :=
  let h := g.tbuf.filter (·.1 == addr)
  if h.any (·.2.1 == choice) then choice else (h.getLast?.map (·.2.1)).getD 0

/-- The destination and branch kind predicted for exit `e` of a block, if a source gives one. -/
def predictDest (g : Grid) (t : Thread) (f : Frame) (e : Nat) : Option (VAddr × Nat) :=
  let buf := g.tbuf.find? fun x => x.1 == f.addr && x.2.1 == e
  if f.stage = 0 then
    match buf with
    | some b => if b.2.2.2 ≤ 1 then some (b.2.2.1, b.2.2.2) else if b.2.2.2 = 2 then t.ret.getLast?.map fun a => (a, 2) else none
    | none => none
  else
    match exitSlot f e with
    | none => none
    | some (_, w0, _) =>
      let o := opc w0
      if o = 0x30 || o = 0x31 then some (relDest f (bits w0 0 20), if o = 0x31 then 1 else 0)
      else if o = 0x33 then t.ret.getLast?.map fun a => (a, 2)
      else if o = 0x32 then buf.map fun b => (b.2.2.1, 0)
      else if o = 0x51 then (buf.bind fun b => if xop w0 = 0 then some (b.2.2.1, 1) else none)
      else none

/-- Whether exit `e` of a block is an SCALL: by its branch once mapped, by the target buffer before (R256, R257). -/
def predScall (g : Grid) (f : Frame) (e : Nat) : Bool :=
  if f.stage = 0 then (g.tbuf.find? fun x => x.1 == f.addr && x.2.1 == e).any (·.2.2.2 == 3)
  else (exitSlot f e).any fun x => opc x.2.1 == 0x34

/-- Where the fetch of a thread goes next, with the exit predicted for its youngest block and the branch kind: none while
fetch waits. Behind a block whose predicted exit is an SCALL nothing is fetched (R256). -/
def nextFetch (s : State) (k : Nat) (t : Thread) (choice : Nat) : Option (VAddr × Option Nat × Nat) :=
  match t.frames.getLast? with
  | none => some (t.pc, none, 0)
  | some f =>
    let g := s.grid (coreGrid0 (gridOfThr k) t.width)
    match f.exit with
    | some x => if 3 ≤ x.kind || f.pred.any (predScall g f) then none else some (x.dest, none, x.kind)
    | none =>
      if f.refused.isSome || f.pred.any (predScall g f) then none
      else
        let e := predictExit g f.addr choice
        (predictDest g t f e).map fun d => (d.1, some e, d.2)

/-- Whether a block in flight keeps younger ones from being fetched: NOSPEC (R184), TLBINV (R433), REJOIN of a leader (R174),
HEND and TEND (R352, R410). -/
def Frame.gates (f : Frame) (leader : Bool) : Bool :=
  f.hdr = [] || hdrNospec f.hdr ||
  (f.stage != 0 && f.slots.any fun x => opc x.2.1 == 0x50 && xop x.2.1 == 4 && !f.skipped.contains x.1) ||
  f.ops.any fun o => !o.nul && match o.i with
    | .rejoin _ => leader
    | .hend _ => true
    | .tend _ => true
    | _ => false

/-- Whether a thread may begin a fetch of its own, frames aside. -/
def mayFetch (t : Thread) : Bool :=
  t.run && !t.stop && t.rejoin.isNone && t.post != .preempt &&
  (match t.pack with | .following _ => false | .waiting _ => false | _ => true) &&
  t.frames.all fun f => !f.gates (t.pack == .leader)

/-- The following members that receive a leader's block at place `p` (R171, R172). -/
def receivers (s : State) (k p : Nat) : List (Nat × Thread) :=
  (members s k).filter fun e => (match e.2.pack with | .following _ => true | _ => false) && e.2.pos + e.2.frames.length == p

/-- The return stack after a predicted or followed branch (R257). -/
def pushRet (t : Thread) (kind : Nat) (f : Option Frame) : List VAddr :=
  match f with
  | none => t.ret
  | some f =>
    if kind = 1 && f.hdr != [] then
      let l := t.ret ++ [f.retAddr]
      l.drop (l.length - 16)
    else if kind = 2 then t.ret.dropLast
    else t.ret

/-! ### Chunks (R48) -/

/-- The 32-bit words of bytes. -/
def wordsOf (bs : List Byte) : List Slot32 :=
  (List.range 32).map fun i => BitVec.ofNat 32 (leNat ((bs.drop (4 * i)).take 4))

/-- The chunks a block still needs (R183): its header first. -/
def Frame.needed (f : Frame) : List Nat :=
  let has := fun (c : Nat) => (tget f.chunks c).isSome || f.missing.any (·.1 == c)
  if f.refused.isSome || f.stage != 0 || f.lead.isSome then []
  else ((List.range (if f.hdr = [] then 1 else hdrChunks f.hdr + 1)).filter (!has ·)).filter fun c =>
    !(f.fails.any (·.page == pageOf (f.addr + BitVec.ofNat 80 (128 * c)).toNat))

/-- Fetch one chunk of a block: from the block cache, or with two line requests on a fetch register (R47, R48). -/
def fetchChunk (s : State) (k q c : Nat) : State :=
  match s.thr k, s.frame k q with
  | some t, some f =>
    let g := coreGrid0 (gridOfThr k) f.width
    let va := (f.addr + BitVec.ofNat 80 (128 * c)).toNat
    match translate s t.ctx f.sup (some g) (cluOf k) 2 va with
    | .miss => addMiss s (cluOf k) t.ctx (pageOf va) false false
    | .fail cause lv => s.modFrame k q (·.failFetch (pageOf va) cause lv)
    | .ok pa _ kind _ =>
      let s := fillMicro s g (cluOf k) t.ctx va
      let l := lineOf pa
      match tget (s.grid g).bc l, tget (s.grid g).bc (l + 1) with
      | some a, some b => s.modFrame k q fun f => { f with chunks := tset f.chunks c (wordsOf (a ++ b)) }
      | _, _ =>
        if 8 ≤ (s.grid g).fetchReg.length + 1 then s
        else
          let m := { Msg.mk0 .ownLoad (.fetch g k q c) with
            ctx := t.ctx, gen := (s.ctx t.ctx).gen, pa := 64 * l, len := 64, cls := 1, scope := 4, agent := g + 1,
            node := lineNode g pa, noAlloc := kind = 1 }
          let n := s.fresh
          let s := (s.send m).send { m with pa := 64 * (l + 1) }
          let s := s.modGrid g fun x => { x with fetchReg := x.fetchReg ++ [n, n + 1] }
          s.modFrame k q fun f => { f with missing := f.missing ++ [(c, [n, n + 1])] }
  | _, _ => s

/-- The first block of a thread that still needs a chunk. -/
def chunkDue (t : Thread) : Option (Nat × Nat) :=
  t.frames.findSome? fun f => f.needed.head?.map fun c => (f.seq, c)

/-- The exit predicted for a thread's youngest block is an SCALL: it is noted, and fetch waits for that block (R256). -/
def noteScall (s : State) (k : Nat) (t : Thread) (choice : Nat) : State :=
  match t.frames.getLast? with
  | none => s
  | some f =>
    let g := s.grid (coreGrid0 (gridOfThr k) t.width)
    let e := predictExit g f.addr choice
    if f.exit.isNone && f.pred.isNone && predScall g f e then s.modFrame k f.seq fun f => { f with pred := some e } else s

/-- BLOCK_FETCH (R48, R165, R166, R171, R257): the next chunk of a block that is being fetched, else the next block of the
thread, predicted with exit `exitNum` where the predictor has a choice. -/
def execBlockFetch (thr exitNum : Nat) (s : State) : Host.Outcome State Fault Refusal :=
  match s.thr thr with
  | none => .next s
  | some t =>
    match chunkDue t with
    | some (q, c) => .next (fetchChunk s thr q c)
    | none =>
      if !mayFetch t then .next s
      else
        match nextFetch s thr t exitNum with
        | none => .next (noteScall s thr t exitNum)
        | some (addr, pred, kind) =>
          let p := t.pos + t.frames.length
          let rs := if t.pack = .leader then receivers s thr p else []
          if !frameFree s thr t || !rs.all (fun e => frameFree s e.1 e.2) then
            let n := Config.freeCycles (islandOf (cluOf thr)) s.fresh
            .next ({ s with fresh := s.fresh + 1 }.modThr thr (·.count 6 n))
          else
            let last := t.frames.getLast?
            let t' := match last with
              | some f => if pred.isSome then t.modFrame f.seq fun f => { f with pred := pred } else t
              | none => t
            let s := s.setThr thr (({ t' with ret := pushRet t kind last }).take addr none)
            .next (rs.foldl (fun s e => s.modThr e.1 fun m => m.take addr (some t.nextSeq)) s)

/-- Put a line into a block cache: 8 chunks in each of 64 sets (R43, R48). The set is the chunk's number modulo 64, and a full set
gives up its chunk of the lowest address: the manual gives neither, and both are the model's choice (logs 39, 106). -/
def Grid.putBlock (g : Grid) (l : Nat) (bs : List Byte) : Grid :=
  let chunks := (((g.bc.map (·.1 / 2)).eraseDups).filter fun c => c % 64 == l / 2 % 64 && c != l / 2)
  let bc := if chunks.length < 8 then g.bc
    else match chunks.head? with
      | some c => g.bc.filter (·.1 / 2 != c)
      | none => g.bc
  { g with bc := tset bc l bs }

/-- BLOCK_CHUNK_ARRIVAL (R48): both lines of a chunk have come; a stale reply is dropped (R21), poison marks the block
(R65). -/
def execBlockChunkArrival (thr seq chunk : Nat) (s : State) : Host.Outcome State Fault Refusal :=
  match (s.frame thr seq).bind fun f => (f.missing.find? (·.1 == chunk)).map fun e => (f, e.2) with
  | none => .next s
  | some (f, ns) =>
    let ms := ns.filterMap fun n => (s.msg n).map fun m => (n, m)
    let g := coreGrid0 (gridOfThr thr) f.width
    if ms.length != 2 || ms.any fun e => e.2.kind != .reply then .next s
    else
      let ok := ms.all fun e => fresh s e.2
      let pz := ms.any fun e => e.2.poison != 0#4
      let bytes := ms.flatMap fun e => e.2.data.map (·.getD 0)
      let s := ms.foldl (fun s e =>
        let s := if ok && e.2.poison = 0#4 && e.2.sub != 0 && e.2.takes = 0 then
            s.modGrid g (·.putBlock (lineOf e.2.pa) (e.2.data.map (·.getD 0)))
          else s
        (freeReg s e.1 e.2).delMsg e.1) s
      .next (s.modFrame thr seq fun f =>
        let f := { f with missing := f.missing.filter (·.1 != chunk) }
        if ok then { f with chunks := tset f.chunks chunk (wordsOf bytes), poisoned := f.poisoned || pz } else f)

/-! ### Mapping (R162, R203) -/

/-- Every chunk of a block is there. -/
def Frame.complete (f : Frame) : Bool :=
  f.stage == 0 && f.refused.isNone && f.hdr != [] && f.fails = [] &&
  (List.range (hdrChunks f.hdr + 1)).all fun c => (tget f.chunks c).isSome

/-- A complete block is mapped: its read entries wait to be sent, or it is refused. -/
def Frame.map (f : Frame) (cyc : Word) : Frame :=
  { f with
    stage := 1
    unread := (rdEntries f.hdr).map (·.1)
    refused := (mapCheck f.addr f.sup f.hdr f.words isReserved).map (BitVec.ofNat 64)
    faults := if f.poisoned then f.faults ++ [⟨0x08, BitVec.ofNat 64 (512 * 0x15), none, 0⟩] else f.faults
    cyc := cyc }

/-- BLOCK_MAP (R203): the block, and the copies that the members of its thread's pack receive (R171). -/
def execBlockMap (thr seq : Nat) (s : State) : Host.Outcome State Fault Refusal :=
  match s.thr thr, s.frame thr seq with
  | some _, some f =>
    if !f.complete then .next s
    else
      let s1 := s.modFrame thr seq (·.map (s.cycThr thr))
      .next ((members s thr).foldl (fun s e =>
        match e.2.frames.find? (·.lead == some seq) with
        | some g => s.modFrame e.1 g.seq fun g => { g with chunks := f.chunks, poisoned := f.poisoned }.map (s.cycThr e.1)
        | none => s) s1)
  | _, _ => .next s

/-! ### Tokens on their way (R163, R164, R193) -/

/-- A token reaches its target; a second one is a collision and has no effect (R197, R205). -/
def Frame.deliver (f : Frame) (x : Nat × Tok) : Frame :=
  if (tget f.toks x.1).isSome then
    { f with colls := f.colls ++ [if 384 ≤ x.1 then (0x21, x.1 % 128 + 384) else (0x20, x.1 % 128)] }
  else { f with toks := tset f.toks x.1 x.2 }

/-- TOKEN_ARRIVAL (R163, R164): the token at place `idx` among those on their way reaches its target; counted on from there,
a read entry whose value is known sends it. A read of `fcr` has its flags once every older block has committed (R222). -/
def execTokenArrival (thr seq idx : Nat) (s : State) : Host.Outcome State Fault Refusal :=
  match s.thr thr, s.frame thr seq with
  | some t, some f =>
    match f.transit[idx]? with
    | some x => .next (s.modFrame thr seq fun f => { f with transit := f.transit.eraseIdx idx }.deliver x)
    | none =>
      if f.stage != 1 || f.refused.isSome then .next s
      else
        match f.unread[idx - f.transit.length]? with
        | none => .next s
        | some j =>
          match (rdEntries f.hdr).find? (·.1 == j) with
          | none => .next s
          | some (_, r, t0, t1) =>
            if r = 192 && !t.isOldest seq then .next s
            else
              match t.regFor f.cyc seq r with
              | none => .next s
              | some x => .next (s.modFrame thr seq fun f =>
                  { f with unread := f.unread.filter (· != j) }.send [BitVec.ofNat 9 t0, BitVec.ofNat 9 t1] x)
  | _, _ => .next s

end Sys2Proof.Machine
end

