-- ==== Sys2Proof/Machine/Engine.lean ====
section
/-! DEFINITION. The memory side of the engines' commands (R29, R83 to R87): translation, ownership and holds, reads, writes
that land, and completion; the status a completed command leaves with its thread (R324). -/

namespace Sys2Proof.Machine

/-- The engine numbers of the three kinds of command: 0 copy, 1 matrix, 2 fabric; the agent ids of R90. -/
def engAgent (clu unit : Nat) : Nat := (if unit = 0 then 649 else if unit = 1 then 729 else 809) + clu % 80

/-! ### Translation (R29, R319) -/

/-- The lines that `n` bytes from an effective address touch: effective address, place in the access, length. -/
def linesAt (e : Word) (n : Nat) : List (Word × Nat × Nat) :=
  let o := e.toNat % 64
  (List.range ((o + n + 63) / 64)).map fun i =>
    let lo := Nat.max o (64 * i)
    let hi := Nat.min (o + n) (64 * i + 64)
    (e + BitVec.ofNat 64 (lo - o), lo - o, hi - lo)

/-- What the translation of a range gives: pages still to be walked (page, and whether D is wanted), a cause of R40, or the
pieces. -/
inductive RowTr where
  | wait (asks : List (Nat × Bool))
  | fail (cause : Nat)
  | ok (segs : List Seg)
  deriving DecidableEq, Repr

/-- How a command makes an access: its context and mode, its cluster, whether it writes, the class it names (0 the leaf's), and
the failures of walks it has been given (R31). -/
structure EngAcc where
  ctx : Nat
  sup : Bool
  clu : Nat
  dst : Bool
  cls : Nat
  nope : List (Nat × Nat)
  deriving DecidableEq, Repr

/-- The access of a command with a capture and its progress. -/
def engAcc (c : Capture) (e : Eng) (clu : Nat) (dst : Bool) (cls : Nat) : EngAcc := ⟨c.ctx, c.sup, clu, dst, cls, e.nope⟩

/-- The translation of one line of an engine's access. -/
def engLine (s : State) (a : EngAcc) (base : Nat) (x : Word × Nat × Nat) : RowTr :=
  let va := expand (s.ctx a.ctx).pre x.1
  let page := pageOf va
  if field va 79 72 = 0xF2 || field va 79 72 = 0xFF then .fail 7
  else
  match translate s a.ctx a.sup none a.clu (if a.dst then 1 else 0) va with
  | .ok pa cls kind d =>
    if a.dst && !d then .wait [(page, true)]
    else .ok [{ pa := pa, off := base + x.2.1, len := x.2.2, kind := kind,
                cls := if kind = 2 then 5 else if a.cls = 0 then cls else a.cls,
                dst := a.dst, st := 0, data := [], poison := 0 }]
  | .fail c _ => .fail c
  | .miss =>
    match a.nope.find? fun e => e.1 == page with
    | some e => .fail e.2
    | none => .wait [(page, a.dst)]

/-- Two translations of parts of one range: what must be walked first, then the first failure. -/
def RowTr.and (a b : RowTr) : RowTr :=
  match a, b with
  | .wait x, .wait y => .wait (x ++ y)
  | .wait x, _ => .wait x
  | _, .wait y => .wait y
  | .fail c, _ => .fail c
  | _, .fail c => .fail c
  | .ok x, .ok y => .ok (x ++ y)

/-- The translation of `n` bytes from an effective address; those of one access lie in one region (R16, R473). `base` is the
range's place in the command's data. -/
def engRange (s : State) (a : EngAcc) (base : Nat) (e : Word) (n : Nat) : RowTr :=
  if n = 0 then .ok []
  else if !oneRegion e n then .fail 7
  else ((linesAt e n).map (engLine s a base)).foldl RowTr.and (.ok [])

/-- How many of the elements of a run lie in one region each, up to the first that does not (R16). -/
def wholeElems (e : Word) (n es : Nat) : Nat :=
  if oneRegion e n then n / es
  else ((List.range (n / es)).takeWhile fun i => oneRegion (e + BitVec.ofNat 64 (i * es)) es).length

/-- The translation of a run of elements of `es` bytes, each an access of its own (R16): one that breaks a region rule fails after
those before it (R383). -/
def engRun (s : State) (a : EngAcc) (base : Nat) (e : Word) (n es : Nat) : RowTr :=
  let k := wholeElems e n es
  let before := ((linesAt e (if k = n / es then n else k * es)).map (engLine s a base)).foldl RowTr.and (.ok [])
  if k = n / es then before else before.and (.fail 7)

/-- The rows of a command: what must be walked, else the pieces of the rows that translate and the first failure in row
order. -/
def engRows (rows : List RowTr) : List (Nat × Bool) × List Seg × Option Nat :=
  rows.foldl (fun acc r =>
    match r with
    | .wait a => (acc.1 ++ a, acc.2)
    | .fail c => (acc.1, acc.2.1, acc.2.2 <|> some c)
    | .ok x => (acc.1, acc.2.1 ++ x, acc.2.2)) ([], [], none)

/-- Ask for the walks an engine's command waits for (R29, R34); a failure of one goes to this command alone (R31). -/
def engAsk (s : State) (clu ctx : Nat) (e : Eng) (asks : List (Nat × Bool)) : State × Eng :=
  (asks.foldl (fun s a => addMiss s clu ctx a.1 a.2 false) s, { e with asked := asks.map (·.1) })

/-! ### Ownership, reads and writes (R83 to R86) -/

/-- A message of an engine's command. -/
def engMsg (clu unit id ctx gen : Nat) (kind : MKind) (pa len : Nat) : Msg :=
  { Msg.mk0 kind (.eng clu unit id) with
    ctx := ctx, gen := gen, pa := pa, len := len, cls := 1, arg := engAgent clu unit, node := homeNode pa }

/-- Send messages for a command. -/
def engSend (s : State) (e : Eng) (ms : List Msg) : State × Eng :=
  ms.foldl (fun x m => (x.1.send m, { x.2 with out := x.2.out ++ [x.1.fresh] })) (s, e)

/-- A line request of a command that the pieces of the line ask for: with their class, and filling no more than their page allows
(R25, R47). -/
def forLine (ds : List Seg) (line : Nat) (m : Msg) : Msg :=
  match ds.find? fun d => lineOf d.pa == line with
  | some d => { m with cls := d.cls, noAlloc := d.kind == 1 }
  | none => m

/-- Ask for the ownership of the destination lines and for the holds of the destination granules (R83). -/
def engOwn (s : State) (clu unit id ctx gen : Nat) (e : Eng) : State × Eng :=
  let ds := e.segs.filter (·.dst)
  let lines := ((ds.filter (·.kind != 3)).map fun d => lineOf d.pa).eraseDups
  engSend s e
    ((lines.map fun l => forLine ds l { engMsg clu unit id ctx gen .engOwn (64 * l) 64 with wr := true }) ++
      (ds.filter (·.kind == 3)).map fun d => { engMsg clu unit id ctx gen .engOwn d.pa d.len with wr := true, cls := d.cls })

/-- The tile tags of a copy engine that are free (R64); a read that holds one has 1 in `port`. -/
def tagsFree (s : State) (clu : Nat) : Nat :=
  256 - (s.net.filter fun e => match e.2.src with
    | .eng c _ _ => c == clu && e.2.port == 1 && (e.2.kind == .engRead || (e.2.kind == .reply && e.2.data != []))
    | _ => false).length

/-- Read source pieces that have not been asked for (R85, R86); the reads that the copy engine makes, for itself or for LCLOAD (R365), hold
its tile tags (R64). -/
def engReadBy (tags : Bool) (s : State) (clu unit id ctx gen : Nat) (e : Eng) (pick : Seg → Bool) : State × Eng :=
  let room := if tags then tagsFree s clu else e.segs.length
  let now := (e.segs.zipIdx.filter fun d => !d.1.dst && d.1.st == 0 && pick d.1).take room
  let x := engSend s e (now.map fun d =>
    { engMsg clu unit id ctx gen .engRead d.1.pa d.1.len with
      cls := d.1.cls, noAlloc := d.1.kind == 1, takes := if e.owned.contains (lineOf d.1.pa) then 1 else 0
      port := if tags then 1 else 0 })
  (x.1, { x.2 with segs := x.2.segs.zipIdx.map fun d => if now.any (·.2 == d.2) then { d.1 with st := 2 } else d.1 })

/-- The reads of a command of a unit: 0 is the copy engine. -/
def engRead (s : State) (clu unit id ctx gen : Nat) (e : Eng) (pick : Seg → Bool) : State × Eng :=
  engReadBy (unit == 0) s clu unit id ctx gen e pick

/-- The bytes of a piece in granule `i` of its line: from and how many. -/
def Seg.gran (d : Seg) (i : Nat) : Nat × Nat :=
  let g := 64 * lineOf d.pa + 16 * i
  let lo := Nat.max d.pa g
  let hi := Nat.min (d.pa + d.len) (g + 16)
  (lo - d.pa, hi - lo)

/-- The poison bits of a piece whose bytes at a place are bad by a test. -/
def Seg.marks (d : Seg) (bad : Nat → Nat → Bool) : BitVec 4 :=
  BitVec.ofNat 4 (((List.range 4).map fun i =>
    let r := d.gran i
    if 0 < r.2 && bad (d.off + r.1) r.2 then 2 ^ i else 0).foldl (· + ·) 0)

/-- Whether bytes that a command has read are poisoned, by their place. -/
def Eng.badAt (e : Eng) (off n : Nat) : Bool :=
  e.segs.any fun d => !d.dst && (List.range 4).any fun i =>
    let r := d.gran i
    d.poison.getLsbD i && 0 < r.2 && meets (d.off + r.1) r.2 off n

/-- The bytes of the pieces of one line, later pieces over earlier ones. -/
def lineBytes (ds : List Seg) (line : Nat) : List (Option Byte) :=
  (List.range 64).map fun i =>
    let a := 64 * line + i
    ds.foldl (fun acc d => if d.pa ≤ a && a < d.pa + d.len then d.data[a - d.pa]? <|> acc else acc) none

/-- The poison of the pieces of one line, by granule. -/
def linePz (ds : List Seg) (line : Nat) : BitVec 4 :=
  BitVec.ofNat 4 (((List.range 4).map fun i =>
    if ds.any fun d => lineOf d.pa == line && d.poison.getLsbD i then 2 ^ i else 0).foldl (· + ·) 0)

/-- Write the destination pieces (R85): one write for each line, but on a device page, where each access is made as it stands (R25), one
for each piece. -/
def engWrite (s : State) (clu unit id ctx gen : Nat) (e : Eng) (pick : Seg → Bool) : State × Eng :=
  let ds := e.segs.filter fun d => d.dst && pick d
  let whole := ds.filter (·.cls != 5)
  let lines := (whole.map fun d => lineOf d.pa).eraseDups
  let msg := fun (pa n : Nat) => { engMsg clu unit id ctx gen .engWrite pa n with wr := true }
  engSend s e
    ((lines.map fun l => forLine whole l { msg (64 * l) 64 with data := lineBytes whole l, poison := linePz whole l }) ++
      (ds.filter (·.cls == 5)).map fun d => { msg d.pa d.len with cls := 5, data := d.data.map some, poison := d.poison })

/-- Take in what has come back: grants, source bytes and acknowledgements of landed writes. -/
def engCollect (s : State) (e : Eng) : State × Eng :=
  e.out.foldl (fun x n =>
    let done := { x.2 with out := x.2.out.filter (· != n) }
    match x.1.msg n with
    | none => (x.1, done)
    | some m =>
      if m.kind = .ack then (x.1.delMsg n, { done with owned := done.owned.filter (· != lineOf m.pa) })
      else if m.kind != .reply then x
      else if m.data = [] then
        (x.1.delMsg n, if paKind m.pa = 2 then done else { done with owned := addOnce done.owned (lineOf m.pa) })
      else
        let mine := fun (d : Seg) => !d.dst && d.pa = m.pa && d.len = m.len && d.st = 2
        let upd := fun (d : Seg) => if mine d then
          { d with st := 1, data := m.data.map (·.getD 0), poison := d.marks (fun o _ => m.poison.getLsbD (((d.pa + (o - d.off)) / 16) % 4)) }
          else d
        let segs := done.segs.map upd
        (x.1.delMsg n, { done with segs := segs, pz := done.pz || segs.any fun d => !d.dst && d.poison != 0#4 })) (s, e)

/-- ENGINE_OWNERSHIP (R84): a request for ownership or a hold reaches its home, behind the committed writes of its line, or its vault;
one from beyond the package needs its place in the remote filter (R112). -/
def execEngineOwnership (n : Nat) (s : State) : Host.Outcome State Fault Refusal :=
  match s.msg n with
  | some m =>
    if m.kind != .engOwn then .next s
    else if 9 ≤ m.node then .next (if m.st = 0 then vaultArrive s n m (nowAt s m) else s)
    else if m.st = 1 then arriveLine s n .engOwn
    else .next (if m.st = 0 && !overtakes s n m && !writeComing s (lineOf m.pa) then homeArrive s n m (nowAt s m) else s)
  | none => .next s

/-- ENGINE_WRITE_LANDS (R85): the bytes are merged; with the command's last write of a line its ownership ends and the requests it held are
performed; a write of a killed context is dropped (R21), and so are the bytes of one to a Kennel (R332). -/
def execEngineWriteLands (n : Nat) (s : State) : Host.Outcome State Fault Refusal :=
  match s.msg n with
  | some m =>
    if m.kind != .engWrite then .next s
    else
      let line := lineOf m.pa
      let own := m.src.outside || fresh s m
      let lost := !own || (9 ≤ m.node && inKennel s m.pa)
      let s := if lost then s else s.merge m.pa m.data m.poison
      let s := s.setMsg n { m with kind := .ack }
      if 9 ≤ m.node || s.net.any fun e => e.2.kind == .engWrite && e.2.src == m.src && lineOf e.2.pa == line then .next s
      else
        let free := fun (s : State) (node : Nat) =>
          if (s.dir node line).st = .eo then s.setDir node line { Dir.none with up := (s.dir node line).up } else s
        let s := (List.range 9).foldl free s
        let s := if m.src.outside then s.modDie (homeDie m.pa) fun d => { d with filter := tdel d.filter line } else s
        .next ((List.range 9).foldl (fun s i => homePass s (nodeKey (8 - i) line)) s)
  | none => .next s

/-- The last steps of a completion (R87): full bits set, holds released. -/
def engFinish (s : State) (clu unit id : Nat) (e : Eng) : State :=
  let s := (e.segs.filter fun d => d.dst && d.kind == 3).foldl (fun s d => s.setBits d.pa d.len true) s
  releaseHolds s clu unit id

/-! ### Captures and statuses (R223, R313, R324) -/

/-- The address of a context's thread save record (R424). -/
def recordAt (c : Ctx) (n : Nat) : Nat := field (c.word 11) 55 14 * 2 ^ 14 + 2 ^ 14 * n

/-- A command completes: its status goes to its thread, or to its thread's save record (R324, R325). `unit` is 0 copy, 1
matrix, 2 fabric. -/
def setStatus (s : State) (c : Capture) (unit : Nat) (w : Word) : State :=
  match s.thrs.find? fun e => e.2.ser == c.uid with
  | some e => s.setThr e.1 { e.2 with status := tset e.2.status (256 * unit + c.id) w }
  | none =>
    match (s.ctx c.ctx).saved.find? fun e => e.2.ser == c.uid with
    | some e =>
      let off := if unit = 1 then 0x2000 else if unit = 2 then 0x2800 else 0x3000
      hwStore s (recordAt (s.ctx c.ctx) e.1 + off + 8 * c.id) (leBytes 8 w.toNat)
    | none => s

/-- Whether a status waits: its thread is saved, and an engine owns the line of its save record, or a reservation stands there (R85, R271). -/
def statusWaits (s : State) (c : Capture) : Bool :=
  (s.thrs.all fun e => e.2.ser != c.uid) && (s.ctx c.ctx).saved.any fun e =>
    e.2.ser == c.uid && hwBlocked s (recordAt (s.ctx c.ctx) e.1 + 0x2000) 0x1800

/-- Every capture of a command that has not completed. -/
def allCaps (s : State) (unit : Nat) : List Capture :=
  s.clus.flatMap fun e =>
    if unit = 1 then e.2.jobs.map (·.cap)
    else if unit = 2 then e.2.fab.q.map (·.cap)
    else e.2.copyQ.map (·.cap) ++ e.2.streams.map (·.cmd.cap)

/-- Whether a thread has a command of an id that has not completed. -/
def running (s : State) (t : Thread) (unit id : Nat) : Bool :=
  (allCaps s unit).any fun c => c.uid == t.ser && c.id == id

/-- MWAIT, LCWAIT and CWAIT (R324, R371, R392): with every older block committed, the status of the most recent command of
the id; 0 when there is none. `wait` keeps waiting while it runs, else 0 is produced. -/
def stepWait (unit : Nat) (wait : Bool) (s : State) (k : Nat) (t : Thread) (f : Frame) (o : Op) : State :=
  let id := o.a.word.toNat % 256
  if !t.isOldest f.seq then s
  else if running s t unit id then (if wait then s else stepDone s k f o (.s 0))
  else stepDone s k f o (.s ((tget t.status (256 * unit + id)).getD 0))

/-- What a command captures when its block commits (R223): of a block that also writes `srkey` or `jseed`, the key from before
that write, as its own conversions use it (log 115). -/
def captureOf (s : State) (k : Nat) (t : Thread) (f : Frame) (o : Op) (id : Nat) : Capture :=
  { thr := k, uid := t.ser, ctx := t.ctx, gen := (s.ctx t.ctx).gen, lclu := t.lclu, id := id,
    fcr := (t.regFor f.cyc f.seq 192).elim t.spec.fcr (·.word), key := (t.regFor f.cyc f.seq 197).elim t.spec.srkey (·.word),
    ord := (t.ordFor f.seq).getD t.ord, slot := o.slot, sup := f.sup }

/-- The id of a block's command at LSID `l` (R313, R363, R380). -/
def cmdId (n : Nat) (f : Frame) (l : Nat) (job : Instr → Bool) : Nat := (n + issuedBelow f l job) % 256

/-- The commit arbiter squashes block `q` (R109, R110): counted, replayed from fetch, locked from the third time on. -/
def arbSquash (s : State) (k q : Nat) : State :=
  let n := ((s.thr k).elim [] fun t => t.frames.filter fun f => q ≤ f.seq).length
  squashAt (s.modThr k fun t => { t.count 1 n with arbSq := t.arbSq + 1, lockNext := t.lockNext || t.arbSq == 2 }) k q

/-- The environment of an engine command's roundings: FTZ and DAZ do not act (R219, R223, R233). -/
def Capture.env (c : Capture) : FEnv := ⟨c.fcr &&& ~~~0x18#64, c.key, c.ord, c.slot⟩

end Sys2Proof.Machine
end

