-- ==== Sys2Proof/Machine/Lanes.lean ====
section
/-! DEFINITION. The results of the vector instructions as functions of their operands (R281 to R297). Lane results are
lists, lane 0 first. -/

namespace Sys2Proof.Machine

/-- Lane i of a vector, w bits wide (R281). -/
def lane (x : Vec) (w i : Nat) : Nat := (x.toNat >>> (w * i)) % 2 ^ w
/-- The lanes of a vector (R281). -/
def lanes (x : Vec) (w : Nat) : List Nat := (List.range (512 / w)).map (lane x w)
/-- A number from its w-bit digits, lowest first. -/
def packBits (w : Nat) : List Nat → Nat
  | [] => 0
  | l :: ls => l % 2 ^ w + 2 ^ w * packBits w ls
/-- A vector from its lanes. -/
def ofLanes (w : Nat) (ls : List Nat) : Vec := BitVec.ofNat 512 (packBits w ls)
/-- The OR of the flags of lane results. -/
def orFlags (rs : List (Nat × Flags)) : Flags := rs.foldl (fun a r => a ||| r.2) 0#6
/-- A vector and its flags from lane results. -/
def gather (w : Nat) (rs : List (Nat × Flags)) : Vec × Flags := (ofLanes w (rs.map (·.1)), orFlags rs)

/-- VIntStore (R286). -/
def vintStore (ty : Nat) (sat : Bool) (z : Int) : Nat × Flags :=
  let z' := if sat then satInt z (tyMin ty) (tyMax ty) else z
  (intBits (laneWidth ty) z', flagIf (z' ≠ z) flagIS)

/-- A VINT form whose lane result is an integer function of the two lane values (R285, R286). -/
def vintOp (f : VecF) (op : Int → Int → Int) (a b : Vec) : Vec × Flags :=
  let ty := f.ty.toNat
  let w := laneWidth ty
  gather w ((List.range (512 / w)).map fun i =>
    vintStore ty (f.sat == 1#1) (op (tyVal ty (lane a w i)) (tyVal ty (lane b w i))))

/-- A VINT shift: the count is lane i of b modulo w (R285). -/
def vshiftOp (f : VecF) (op : Nat → Nat → Nat → Nat) (a b : Vec) : Vec × Flags :=
  let w := laneWidth f.ty.toNat
  (ofLanes w ((List.range (512 / w)).map fun i => op w (lane a w i) (lane b w i % w)), 0#6)
/-- Shift left in w bits. -/
def shlLane (w x n : Nat) : Nat := (x <<< n) % 2 ^ w
/-- Shift right with zero fill. -/
def shrLane (_w x n : Nat) : Nat := x >>> n
/-- Shift right with sign fill. -/
def sarLane (w x n : Nat) : Nat :=
  if 2 ^ (w - 1) ≤ x then (x >>> n) + (2 ^ w - 2 ^ (w - n)) else x >>> n

/-- The relation of VCMP (R287). -/
def relOf (imm8 : BitVec 8) : Rel :=
  match (bits imm8 0 3).toNat with
  | 0 => .eq | 1 => .ne | 2 => .lt | 3 => .le | 4 => .gt | 5 => .ge | _ => .un
/-- An integer relation (R287); `un` is reserved in VINT and never holds. -/
def relInt (r : Rel) (x y : Int) : Bool :=
  match r with
  | .eq => x = y | .ne => x ≠ y | .lt => x < y | .le => x ≤ y | .gt => y < x | .ge => y ≤ x | .un => false
/-- A lane mask: all ones where the relation holds (R287). -/
def maskLane (w : Nat) (c : Bool) : Nat := if c then 2 ^ w - 1 else 0
/-- VCMP on integer lanes (R285, R287). -/
def vcmpIntOp (f : VecF) (a b : Vec) : Vec × Flags :=
  let ty := f.ty.toNat
  let w := laneWidth ty
  (ofLanes w ((List.range (512 / w)).map fun i =>
    maskLane w (relInt (relOf f.imm8) (tyVal ty (lane a w i)) (tyVal ty (lane b w i)))), 0#6)
/-- VSEL (R285). -/
def vselOp (a b c : Vec) : Vec := (b &&& a) ||| (c &&& ~~~a)

/-- A VFP form: the operation on each lane, element i (R288). -/
def vfpOp (f : VecF) (op : FOp) (v : FEnv) (a b c : Vec) : Vec × Flags :=
  let ty := f.ty.toNat
  let w := laneWidth ty
  gather w ((List.range (512 / w)).map fun i =>
    fop op (fmtOf ty) (rmOf f.rnd v.fcr) v i (lane a w i) (lane b w i) (lane c w i))
/-- VCMP on floating-point lanes (R287, R288). -/
def vcmpFpOp (f : VecF) (v : FEnv) (a b : Vec) : Vec × Flags :=
  let ty := f.ty.toNat
  let w := laneWidth ty
  gather w ((List.range (512 / w)).map fun i =>
    let r := fcmp (relOf f.imm8) (fmtOf ty) v (lane a w i) (lane b w i)
    (maskLane w r.1, r.2))

/-- VCVT (R290). -/
def vcvtOp (f : VecF) (v : FEnv) (a : Vec) : Vec × Flags :=
  let d := f.ty.toNat
  let s := f.ty2.toNat
  let wd := laneWidth d
  let ws := laneWidth s
  let h := (bits f.imm8 0 3).toNat
  let conv := fun e c => convElem s d (f.sat == 1#1) (rmOf f.rnd v.fcr) v e c
  if wd ≤ ws then
    let n := 512 / ws
    let r := gather wd ((List.range n).map fun i => conv (h * n + i) (lane a ws i))
    (r.1 <<< (wd * h * n), r.2)
  else
    let n := 512 / wd
    gather wd ((List.range n).map fun i => conv i (lane a ws (h * n + i)))

/-- VSHUF (R291). -/
def vshufOp (f : VecF) (a b : Vec) : Vec :=
  let w := laneWidth f.ty.toNat
  ofLanes w ((List.range (512 / w)).map fun i =>
    let k := lane b w i
    if k < 512 / w then lane a w k else 0)
/-- VBCAST (R291). -/
def vbcastOp (f : VecF) (a : Word) : Vec :=
  let w := laneWidth f.ty.toNat
  ofLanes w (List.replicate (512 / w) (a.toNat % 2 ^ w))
/-- VINS (R291). -/
def vinsOp (f : VecF) (a : Vec) (b : Word) : Vec :=
  let w := laneWidth f.ty.toNat
  ofLanes w ((lanes a w).set f.imm8.toNat (b.toNat % 2 ^ w))
/-- The scalar that holds an element: sign-extended for `.i` types, zero-extended otherwise (R291, R293). -/
def scalarOf (ty c : Nat) : Word := if ty < 8 then BitVec.ofInt 64 (tyVal ty c) else BitVec.ofNat 64 c
/-- VEXT (R291). -/
def vextOp (f : VecF) (a : Vec) : Word :=
  scalarOf f.ty.toNat (lane a (laneWidth f.ty.toNat) f.imm8.toNat)

/-- The operation of VRED and VSCAN on floating-point codes (R292, R293). DAZ and FTZ act at every step, on the running value and
the partial results too (R219 does not say; log 122), and a minimum or maximum of `.e5m2` converts an infinity as an arithmetic result
(log 100). -/
def redF (f : VecF) (v : FEnv) (e : Nat) (x y : Nat) : Nat × Flags :=
  let F := fmtOf f.ty.toNat
  match f.imm8.toNat with
  | 0 => fop .add F (rmOf f.rnd v.fcr) v e x y 0
  | 1 => fop .min F (rmOf f.rnd v.fcr) v e x y 0
  | _ => fop .max F (rmOf f.rnd v.fcr) v e x y 0
/-- The operation of VRED and VSCAN on integers (R292, R293). -/
def redI (f : VecF) (x y : Int) : Int :=
  match f.imm8.toNat with
  | 0 => x + y
  | 1 => min x y
  | _ => max x y

/-- One level of the VRED tree: neighbours combined, `i` counting the results (R293). -/
def redLevel (f : VecF) (v : FEnv) (j : Nat) : Nat → List Nat → List (Nat × Flags)
  | i, x :: y :: rest => redF f v (64 * (j - 1) + i) x y :: redLevel f v j (i + 1) rest
  | _, [x] => [(x, 0#6)]
  | _, [] => []
/-- The VRED tree from level `j`, with `fuel` levels at most (R293). -/
def redTree (f : VecF) (v : FEnv) : Nat → Nat → List Nat → Flags → Nat × Flags
  | 0, _, xs, fl => (xs.headD 0, fl)
  | fuel + 1, j, xs, fl =>
    match xs with
    | [] => (0, fl)
    | [x] => (x, fl)
    | _ =>
      let rs := redLevel f v j 0 xs
      redTree f v fuel (j + 1) (rs.map (·.1)) (fl ||| orFlags rs)

/-- VRED (R292, R293). -/
def vredOp (f : VecF) (v : FEnv) (a : Vec) : Word × Flags :=
  let ty := f.ty.toNat
  let xs := lanes a (laneWidth ty)
  if ty < 8 then
    match xs.map (tyVal ty) with
    | [] => (0#64, 0#6)
    | x :: rest =>
      let r := vintStore ty (f.sat == 1#1) (rest.foldl (redI f) x)
      (scalarOf ty r.1, r.2)
  else
    let r := redTree f v 7 1 xs 0#6
    (scalarOf ty r.1, r.2)

/-- VSCAN on integer lanes: the exact running value, stored per lane (R293). -/
def scanI (f : VecF) : Int → List Nat → List (Nat × Flags)
  | _, [] => []
  | s, x :: rest =>
    let s' := redI f s (tyVal f.ty.toNat x)
    vintStore f.ty.toNat (f.sat == 1#1) s' :: scanI f s' rest
/-- VSCAN on floating-point lanes, strictly in lane order (R293). -/
def scanF (f : VecF) (v : FEnv) : Nat → Nat → List Nat → List (Nat × Flags)
  | _, _, [] => []
  | i, s, x :: rest =>
    let r := redF f v i s x
    r :: scanF f v (i + 1) r.1 rest
/-- VSCAN (R292, R293). -/
def vscanOp (f : VecF) (v : FEnv) (a : Vec) (b : Word) : Vec × Flags :=
  let ty := f.ty.toNat
  let w := laneWidth ty
  if ty < 8 then gather w (scanI f (tyVal ty b.toNat) (lanes a w))
  else gather w (scanF f v 0 (b.toNat % 2 ^ w) (lanes a w))

/-- The products of VDOT for one accumulator lane (R294). -/
def dotProducts (ty g : Nat) (daz : Bool) (a b : Vec) (j : Nat) : List (XVal × Flags) :=
  let w := laneWidth ty
  (List.range g).map fun k =>
    mulX (decodeF (fmtOf ty) daz (lane a w (g * j + k))) (decodeF (fmtOf ty) daz (lane b w (g * j + k)))
/-- VDOT (R294). A product of infinity and zero raises NV whatever the addend is (log 12). -/
def vdotOp (f : VecF) (v : FEnv) (a b c : Vec) : Vec × Flags :=
  let ty := f.ty.toNat
  let at_ := f.ty2.toNat
  let w := laneWidth ty
  let g := 32 / w
  gather 32 ((List.range 16).map fun j =>
    if ty < 8 then
      let ps := (List.range g).map fun k => tyVal ty (lane a w (g * j + k)) * tyVal ty (lane b w (g * j + k))
      vintStore at_ (f.sat == 1#1) (ps.foldl (· + ·) (tyVal at_ (lane c 32 j)))
    else
      let rm := rmOf f.rnd v.fcr
      let ps := dotProducts ty g (fcrDaz v.fcr) a b j
      let s := sumX rm (decodeF fmtF32 (fcrDaz v.fcr) (lane c 32 j) :: ps.map (·.1))
      finishF fmtF32 rm v j (s.1, ps.foldl (fun fl p => fl ||| p.2) s.2))

/-- The 6-bit, 4-bit and 8-bit elements of an MX image: width of an element (R213). -/
def mxWidth (ty : Nat) : Nat := fmtWidth (fmtOf ty)
/-- VMXQ (R296). -/
def vmxqOp (f : VecF) (v : FEnv) (a b : Vec) : Vec × Flags :=
  let ty := f.ty.toNat
  let F := fmtOf ty
  let xs := (lanes a 32 ++ lanes b 32).map (decodeF fmtF32 false)
  let s := mxScale F (fcrMxsc v.fcr) xs
  if s = 0xFF then (BitVec.ofNat 512 (0xFF <<< 504), flagNV)
  else
    let rs := (List.range 32).map fun i =>
      roundF F (rmOf f.rnd v.fcr) true (v.rand i) (scaleX (127 - (s : Int)) (xs.getD i (.nan false)))
    (BitVec.ofNat 512 (packBits (mxWidth ty) (rs.map (·.1)) + s <<< 504), orFlags rs)
/-- VMXDQ (R296). -/
def vmxdqOp (f : VecF) (v : FEnv) (a : Vec) : Vec × Flags :=
  let d := f.ty.toNat
  let F := fmtOf f.ty2.toNat
  let w := laneWidth d
  let ew := mxWidth f.ty2.toNat
  let s := lane a 8 63
  let base := if d = 0x09 then 16 * f.imm8.toNat else 0
  gather w ((List.range (512 / w)).map fun i =>
    let x := decodeF F false (lane a ew (base + i))
    if s = 0xFF then (qnan (fmtOf d), sigF x)
    else
      let r := roundF (fmtOf d) (rmOf f.rnd v.fcr) (fcrSatf v.fcr) (v.rand i) (scaleX ((s : Int) - 127) x)
      (r.1, r.2 ||| sigF x))

/-- Bit i of a plane of a plane image (R297). -/
def planeBit (a : Vec) (j i : Nat) : Nat := (a.toNat >>> (64 * j + i)) % 2
/-- VNIPACK (R297). -/
def vnipackOp (a : Vec) : Vec :=
  ofLanes 1 (((List.range 8).map fun j => (List.range 64).map fun i => (lane a 8 i >>> (7 - j)) % 2).flatten)
/-- The value of an NI8 element whose planes hold `code` when k planes are read (R227). -/
def niValue (k code : Nat) : Int :=
  if k < 8 then
    let t := code >>> (8 - k)
    let t : Int := if 2 ^ (k - 1) ≤ t then (t : Int) - (2 ^ k : Nat) else t
    t * (2 ^ (8 - k) : Nat) + (2 ^ (7 - k) : Nat)
  else tyVal 0 code
/-- VNIUNPACK (R297). -/
def vniunpackOp (f : VecF) (a : Vec) : Vec :=
  let k := f.pl.toNat + 1
  ofLanes 8 ((List.range 64).map fun i =>
    let code := (List.range 8).foldl (fun c j => 2 * c + planeBit a j i) 0
    intBits 8 (niValue k code))

end Sys2Proof.Machine
end

