-- ==== Sys2Proof/Machine/Matrix.lean ====
section
/-! DEFINITION. The matrix engine (chapter 13): the slot table and its checks (R299 to R309), the instructions (R303 to R326),
the order of commands (R310 to R314), moves, transfers and tile operations (R316 to R322), completion (R323). -/

namespace Sys2Proof.Machine

/-! ### Slots -/

/-- A slot name that was never claimed (R300). -/
def SlotName.free : SlotName :=
  { ser := 0, claimed := false, pair := false, shaped := false, rows := 0, cols := 0, fmt := 0, phys := none }

/-- The entry of a slot name. -/
def slotAt (tab : Tab SlotName) (lclu n : Nat) : SlotName := (tget tab (64 * lclu + n)).getD SlotName.free
/-- Set the entry of a slot name. -/
def slotSet (tab : Tab SlotName) (lclu n : Nat) (x : SlotName) : Tab SlotName := tset tab (64 * lclu + n) x

/-- The next serial of a name (R300). -/
def nextSer (x : SlotName) : Nat := if x.ser = 255 then 1 else x.ser + 1

/-- A claim of a name, or of a pair of names (R307). -/
def claimIn (tab : Tab SlotName) (lclu n : Nat) (pair : Bool) (ph : Nat × Nat) : Tab SlotName :=
  let one := fun (tab : Tab SlotName) (n : Nat) => slotSet tab lclu n { SlotName.free with
    ser := nextSer (slotAt tab lclu n), claimed := true, pair := pair, phys := some ph }
  if pair then one (one tab n) (n + 1) else one tab n

/-- The release of a name (R308). -/
def releaseIn (tab : Tab SlotName) (lclu n : Nat) : Tab SlotName :=
  let one := fun (tab : Tab SlotName) (n : Nat) =>
    slotSet tab lclu n { slotAt tab lclu n with claimed := false, shaped := false, phys := none }
  if (slotAt tab lclu n).pair then one (one tab n) (n + 1) else one tab n

/-- The handle of a claim (R300). -/
def handleOf (x : SlotName) (n : Nat) : Word := BitVec.ofNat 64 (n + (if x.pair then 128 else 0) + 256 * x.ser)

/-- The current slot that a handle names (R300). -/
def findSlot (tab : Tab SlotName) (lclu h : Nat) : Option (Nat × SlotName) :=
  let n := h % 64
  let x := slotAt tab lclu n
  if h = 0 || 65536 ≤ h || h.testBit 6 || !x.claimed || x.ser != field h 15 8 || x.pair != h.testBit 7 || (x.pair && n % 2 = 1) then
    none
  else some (n, x)

/-- Element width of a format (R302). -/
def elemBits (fmt : Nat) : Nat := if fmt = 0x11 || fmt = 0x12 then 8 else if fmt < 8 then laneWidth fmt else fmtWidth (fmtOf fmt)
/-- Bytes of a row (R302). -/
def SlotName.rowBytes (x : SlotName) : Nat := x.cols * elemBits x.fmt / 8
/-- Distance between rows (R302). -/
def SlotName.pitch (x : SlotName) : Nat := if x.pair then 512 else 256

/-- Whether a shape obeys R302. -/
def shapeOk (pair : Bool) (cols fmt : Nat) : Bool :=
  let n := cols * elemBits fmt
  n % 8 == 0 && n ≤ (if pair then 4096 else 2048) && (fmt != 0x12 || cols % 64 == 0)

/-! ### The instructions' roles (R303, R305, R320 to R322) -/

/-- The pipe of a job (R314): 0 compute, 1 transfer. -/
def pipeOf (i : Instr) : Nat :=
  match i with
  | .mload _ | .mstore _ => 1
  | _ => 0

/-- Field `j` of 16 bits of a source operand (R303). -/
def handleField (b : Word) (j : Nat) : Nat := (bits b (16 * j) 16).toNat

/-- The handles an instruction uses, in the order of its roles, and the fields of b that must be zero. -/
def handles (o : Op) : List Nat × List Nat :=
  let a := o.a.word.toNat
  let b := handleField o.b.word
  match o.i with
  | .mma _ => ([a, b 0, b 1], [b 2, b 3])
  | .mmas _ => ([a, b 0, b 1, b 2, b 3], [])
  | .mscan _ => ([a, b 0, b 1, b 2], [b 3])
  | .maccr _ => ([a, b 0], [b 1, b 2, b 3])
  | .mclaim _ => ([], [])
  | _ => ([a], [])

/-- The roles an instruction writes, by place among its handles. -/
def writesRole (i : Instr) : List Nat :=
  match i with
  | .mstore _ | .mrowr _ | .mcol _ => []
  | .mscan _ => [0, 3]
  | .maccr f => if f.clr = 1#1 then [0, 1] else [0]
  | _ => [0]

/-- Whether formats of A, B and D suit MMA or MMAS, with the greatest K (R320). -/
def mmaKmax (scaled : Bool) (pl fa fb fd : Nat) : Option Nat :=
  let fp8 := fun (f : Nat) => 0x0C ≤ f && f ≤ 0x0F
  if (fa = 0x0A || fa = 0x0B) && fb = fa && fd = 9 && !scaled then some 128
  else if fp8 fa && fp8 fb && fd = 9 then some 256
  else if fa = 0x10 && fb = 0x10 && fd = 9 then some 512
  else if fa = 0 && fb = 0 && fd = 2 && !scaled then some 256
  else if fa = 0x12 && 1 ≤ pl && (fb = 0 || fb = 0x12) && fd = 2 && !scaled then some 256
  else none

/-- The pairs of formats that MACCR converts (R322). -/
def accrOk (src dst : Nat) : Bool :=
  (src == 9 && (dst == 9 || dst == 0x0A || dst == 0x0B || dst == 0x0C || dst == 0x0D)) ||
  (src == 2 && (dst == 2 || dst == 0 || dst == 1 || dst == 9))

/-- The checks 0x42, 0x43 and 0x44 of a form: the code and the place of the handle that failed. -/
def formCheck (o : Op) (xs : List SlotName) : Option (Nat × Nat) :=
  let x := fun (j : Nat) => xs.getD j SlotName.free
  let a := x 0
  let same := fun (i j : Nat) => (handles o).1.getD i 0 % 64 == (handles o).1.getD j 0 % 64
  let rows := fun (r : Nat) => if a.rows ≤ r then some (0x43, 0) else none
  match o.i with
  | .mload f => rows (f.row0.toNat + f.nrowm1.toNat)
  | .mstore f => rows (f.row0.toNat + f.nrowm1.toNat)
  | .mrow f => if a.rowBytes ≤ 64 * f.seg.toNat then some (0x43, 0) else rows f.row.toNat
  | .mrowr f => if a.rowBytes ≤ 64 * f.seg.toNat then some (0x43, 0) else rows f.row.toNat
  | .mcol f => col a f
  | .mcolw f => col a f
  | .mma f => mma false f.pl.toNat x same
  | .mmas _ => mma true 0 x same
  | .mscan f =>
    let ok := fun (y : SlotName) => (y.fmt == 9 || y.fmt == 0x0A) && y.rows == a.rows && y.cols == a.cols
    if a.fmt != 9 then some (0x42, 0)
    else if !ok (x 1) then some (0x42, 1)
    else if !ok (x 2) then some (0x42, 2)
    else if (x 3).fmt != 9 || (x 3).cols != a.cols then some (0x42, 3)
    else if (x 3).rows ≤ f.hrow.toNat then some (0x43, 3)
    else if same 3 0 || same 3 1 || same 3 2 then some (0x44, 3)
    else none
  | .maccr _ =>
    if !accrOk (x 1).fmt a.fmt || (x 1).rows != a.rows || (x 1).cols != a.cols then some (0x42, 1)
    else if same 0 1 then some (0x44, 0) else none
  | _ => none
where
  col (a : SlotName) (f : ColF) : Option (Nat × Nat) :=
    if a.fmt = 0x12 || !(elemBits a.fmt = 8 || elemBits a.fmt = 16 || elemBits a.fmt = 32) then some (0x42, 0)
    else if a.rows ≤ f.row0.toNat || a.cols ≤ f.col.toNat then some (0x43, 0)
    else none
  mma (scaled : Bool) (pl : Nat) (x : Nat → SlotName) (same : Nat → Nat → Bool) : Option (Nat × Nat) :=
    let (d, a, b) := (x 0, x 1, x 2)
    match mmaKmax scaled pl a.fmt b.fmt d.fmt with
    | none => some (0x42, 1)
    | some km =>
      if a.cols != b.cols || a.cols % 32 != 0 || km < a.cols then some (0x42, 1)
      else if d.rows != a.rows || d.cols != b.rows then some (0x42, 0)
      else if scaled && !((x 3).fmt = 0x11 && (x 3).rows = a.rows && (x 3).cols = a.cols / 32) then some (0x42, 3)
      else if scaled && !((x 4).fmt = 0x11 && (x 4).rows = b.rows && (x 4).cols = a.cols / 32) then some (0x42, 4)
      else if same 0 1 || same 0 2 || (scaled && (same 0 3 || same 0 4)) then some (0x44, 0)
      else none

/-! ### The slot table a block sees (R306) -/

/-- What a checked instruction does to the slot table. -/
def opEffect (lclu : Nat) (tab : Tab SlotName) (o : Op) : Tab SlotName :=
  if o.stage != 1 then tab
  else
    match o.i with
    | .mclaim f =>
      let h := ((o.ans.getD .null).word).toNat
      if h = 0 then tab else claimIn tab lclu (h % 64) (f.pair == 1#1) (o.aux % 64, o.aux / 64)
    | .mrel _ => releaseIn tab lclu (o.a.word.toNat % 64)
    | .mshape f =>
      let n := o.a.word.toNat % 64
      slotSet tab lclu n { slotAt tab lclu n with
        shaped := true, rows := f.rowsm1.toNat + 1, cols := f.colsm1.toNat + 1, fmt := f.fmt.toNat }
    | _ => tab

/-- The table that all older blocks have left, changed by the block's instructions below LSID `l`. -/
def slotView (s : State) (t : Thread) (f : Frame) (l : Nat) : Tab SlotName :=
  (f.inOrder.filter fun o => o.lsid.any (· < l) && !o.nul).foldl (opEffect t.lclu) (s.ctx t.ctx).names

/-- The slot names that a handle stands for: a pair has two (R299). -/
def namesOf (h : Nat) : List Nat := if h.testBit 7 then [h % 64, h % 64 + 1] else [h % 64]

/-- The names that an instruction of a block claims, releases, shapes or writes. -/
def touches (o : Op) : List Nat :=
  match o.i with
  | .mclaim _ => if o.ans == some (.s 0) || o.stage = 0 then [] else namesOf ((o.ans.getD .null).word).toNat
  | .mrel _ | .mshape _ => namesOf o.a.word.toNat
  | i => if isJob i || isMove i then (writesRole i).map fun r => (handles o).1.getD r 0 % 64 else []

/-- The command that an engine still has for a slot: jobs and moves that name it. -/
def MJob.names (j : MJob) (ctx lclu n ser : Nat) : Bool :=
  j.cap.ctx == ctx && j.cap.lclu == lclu && j.shapes.any fun x => x.1 == n && x.2.ser == ser

/-- The check of R306 on a matrix instruction other than MCLAIM: the slots it uses, or the code and the handle that
failed. -/
def matrixCheck (s : State) (k : Nat) (t : Thread) (f : Frame) (o : Op) : Except (Nat × Nat) (List (Nat × SlotName)) :=
  let l := o.lsid.getD 0
  let tab := slotView s t f l
  let (hs, zs) := handles o
  let unshaped := match o.i with
    | .mrel _ | .mzero _ | .mshape _ => true
    | _ => false
  match hs.find? fun h => (findSlot tab t.lclu h).isNone with
  | some h => .error (0x40, h)
  | none =>
    match zs.find? (· != 0) with
    | some h => .error (0x40, h)
    | none =>
      let xs := hs.filterMap (findSlot tab t.lclu)
      match (hs.zip xs).find? fun x => !unshaped && !x.2.2.shaped with
      | some x => .error (0x41, x.1)
      | none =>
        match formCheck o (xs.map (·.2)) with
        | some (c, j) => .error (c, hs.getD j 0)
        | none =>
          let h := hs.getD 0 0
          if isJob o.i && 4 ≤ issuedBelow f l isJob then .error (0x45, h)
          else
            match o.i with
            | .mshape g =>
              let x := slotAt tab t.lclu (h % 64)
              let other := (s.clu (cluOf k)).jobs.any fun j => j.grid != gridOfThr k && j.names t.ctx t.lclu (h % 64) x.ser
              if !shapeOk x.pair (g.colsm1.toNat + 1) g.fmt.toNat || other then .error (0x46, h) else .ok xs
            | .mrowr _ => if own f l h then .error (0x47, h) else .ok xs
            | .mcol _ => if own f l h then .error (0x47, h) else .ok xs
            | _ => .ok xs
where
  own (f : Frame) (l h : Nat) : Bool :=
    f.ops.any fun o => !o.nul && o.lsid.any (· < l) && (touches o).contains (h % 64)

/-! ### Claiming (R307, R427) -/

/-- The physical slot of an index. -/
def Clu.slot (c : Clu) (p : Nat) : Phys := (tget c.phys p).getD ⟨none, false, 0⟩

/-- Whether a slot or pair stands on a physical slot. -/
def SlotName.on (x : SlotName) (p : Nat) : Bool := x.phys.any fun q => q.1 == p || (x.pair && q.2 == p)

/-- Whether a command that has not completed uses a physical slot. -/
def physBusy (c : Clu) (p : Nat) : Bool := (c.jobs ++ c.moves).any fun j => j.shapes.any fun x => x.2.on p

/-- The free physical slots of a cluster. -/
def freePhys (c : Clu) : List Nat := (List.range 64).filter fun p => (c.slot p).owner.isNone && !c.saving.contains p

/-- The physical slots that have gone longest unused among those whose owner is not running on the cluster (R307), but for some. -/
def victims (s : State) (clu : Nat) (got : List Nat) : List (Nat × Phys) :=
  let idle := (s.clu clu).phys.filter fun e => !got.contains e.1 && e.2.owner.any fun w => !runningOn s w.1 clu
  match idle.map (·.2.last) with
  | [] => []
  | n :: r => idle.filter (·.2.last == r.foldl Nat.min n)

/-- The physical slots that belong to one owner's slot or pair. -/
def partners (s : State) (w : Nat × Nat × Nat) (p : Nat) : List Nat :=
  match (slotAt (s.ctx w.1).names w.2.1 w.2.2).phys with
  | some (a, b) => if (slotAt (s.ctx w.1).names w.2.1 w.2.2).pair then [a, b] else [a]
  | none => [p]

/-- The commands of a cluster that name a slot, as it was claimed, find it on other physical slots from now on. -/
def Clu.placeSlot (c : Clu) (w : Nat × Nat × Nat) (ser : Nat) (ph : Option (Nat × Nat)) : Clu :=
  let here := fun (j : MJob) => if j.cap.ctx != w.1 || j.cap.lclu != w.2.1 then j else
    { j with shapes := j.shapes.map fun x => if x.1 = w.2.2 && x.2.ser = ser then (x.1, { x.2 with phys := ph }) else x }
  { c with jobs := c.jobs.map here, moves := c.moves.map here }

/-- A slot is taken from its owner, whose contents are in its image (R427). -/
def evictSlot (s : State) (clu : Nat) (w : Nat × Nat × Nat) (ps : List Nat) : State :=
  let x := slotAt (s.ctx w.1).names w.2.1 w.2.2
  let s := s.modClu clu fun c => { c.placeSlot w x.ser none with phys := ps.foldl tdel c.phys }
  s.modCtx w.1 fun c => { c with names := slotSet c.names w.2.1 w.2.2 { x with phys := none } }

/-- The slots that a command names are used now (R307). -/
def Clu.useSlots (c : Clu) (xs : List (Nat × SlotName)) : Clu :=
  let used := xs.flatMap fun x => x.2.phys.elim [] fun q => if x.2.pair then [q.1, q.2] else [q.1]
  { c with phys := used.foldl (fun p u => tset p u { c.slot u with last := c.place }) c.phys }

/-- The slots and pairs that are taken next so that `need` more physical slots are free, the longest unused first, with their physical
slots (R307). -/
def takeNext (s : State) (clu : Nat) : Nat → Nat → List Nat → List ((Nat × Nat × Nat) × List Nat)
  | 0, _, _ => []
  | fuel + 1, need, got =>
    match (victims s clu got).head? with
    | some (p, ⟨some w, _, _⟩) =>
      let ps := partners s w p
      if need = 0 then [] else (w, ps) :: takeNext s clu fuel (need - ps.length) (got ++ ps)
    | _ => []

/-- Find `n` physical slots, all of them or none: free ones, the lowest first (log 127), else taken from contexts that are not running on
the cluster, once the commands that use them are done and their contents are saved. None while it waits for that; `some none` when
there are not enough. -/
def findPhys (s : State) (clu n : Nat) : State × Option (Option (List Nat)) :=
  let c := s.clu clu
  let fr := freePhys c
  let xs := takeNext s clu n (n - fr.length) []
  let ps := xs.flatMap (·.2)
  let dirty := ps.filter fun q => (c.slot q).dirty
  if n ≤ fr.length then (s, some (some (fr.take n)))
  else if fr.length + ps.length < n then (s, some none)
  else if ps.any fun q => physBusy c q || c.saving.contains q then (s, none)
  else if dirty = [] then
    let s := xs.foldl (fun s x => evictSlot s clu x.1 x.2) s
    (s, some (some ((freePhys (s.clu clu)).take n)))
  else (s.modClu clu fun c => { c with saving := c.saving ++ dirty }, none)

/-- Give physical slots to a name. -/
def takePhys (s : State) (clu : Nat) (w : Nat × Nat × Nat) (ps : List Nat) : State :=
  s.modClu clu fun c => { c with
    phys := ps.foldl (fun t p => tset t p ⟨some w, false, c.place⟩) c.phys
    place := c.place + 1 }

/-- MCLAIM once its block is the oldest in flight (R307). -/
def stepClaim (pair : Bool) (s : State) (k : Nat) (t : Thread) (f : Frame) (o : Op) : State :=
  if !t.isOldest f.seq || !f.turn o then s
  else
    let tab := slotView s t f (o.lsid.getD 0)
    let isFree := fun (n : Nat) => !(slotAt tab t.lclu n).claimed
    let name := if pair then (List.range 32).map (2 * ·) |>.find? fun n => isFree n && isFree (n + 1)
      else (List.range 64).find? isFree
    match name with
    | none => reserveAll (stepDone s k f o (.s 0)) (cluOf k)
    | some n =>
      let r := findPhys s (cluOf k) (if pair then 2 else 1)
      match r.2 with
      | none => r.1
      | some none => reserveAll (stepDone r.1 k f o (.s 0)) (cluOf k)
      | some (some ps) =>
        let ph := (ps.getD 0 0, ps.getD 1 0)
        let s := takePhys r.1 (cluOf k) (t.ctx, t.lclu, n) ps
        let x := slotAt (claimIn tab t.lclu n pair ph) t.lclu n
        let s := stepDone s k f o (.s (handleOf x n))
        reserveAll (s.modFrame k f.seq (·.modOp o.slot fun o => { o with aux := ph.1 + 64 * ph.2 })) (cluOf k)

/-- The bytes of a physical slot. -/
def physBase (clu p : Nat) : Nat := 2 ^ 21 * clu + 32768 * p

/-- The image of a slot name in its context's save area (R426). -/
def slotImage (s : State) (ctx lclu n : Nat) : Nat :=
  field ((s.ctx ctx).word 12) 55 22 * 2 ^ 22 + 2 ^ 22 * lclu + 32768 * n

/-- The slot name whose bytes a physical slot holds: the second of a pair holds those of the next name (R426). -/
def imageName (s : State) (w : Nat × Nat × Nat) (p : Nat) : Nat :=
  match (slotAt (s.ctx w.1).names w.2.1 w.2.2).phys with
  | some (a, _) => if a = p then w.2.2 else w.2.2 + 1
  | none => w.2.2

/-- A physical slot is written to its owner's image, its poison with it, and is clean (R65, R427). -/
def savePhys (s : State) (clu p : Nat) : State :=
  match ((s.clu clu).slot p).owner with
  | none => s
  | some w =>
    let a := slotImage s w.1 w.2.1 (imageName s w p)
    let bad := (List.range 2048).filter fun i => s.opoison.contains (physBase clu p / 16 + i)
    let s := hwStore s a (mread s.opmem (physBase clu p) 32768)
    let s := { s with poison := bad.foldl (fun l i => addOnce l (a / 16 + i)) s.poison }
    s.modClu clu fun c => { c with phys := tset c.phys p { c.slot p with dirty := false } }

/-- Whether the write of a physical slot to its image waits at a home (R85, R271). -/
def imageWaits (s : State) (clu p : Nat) : Bool :=
  ((s.clu clu).slot p).owner.any fun w => hwBlocked s (slotImage s w.1 w.2.1 (imageName s w p)) 32768

/-- SLOT_SAVE_COMPLETE (R427): the transfer pipe has written a taken slot to its image; the waiting MCLAIM goes on. -/
def execSlotSaveComplete (clu : Nat) (s : State) : Host.Outcome State Fault Refusal :=
  match (s.clu clu).saving with
  | [] => .next s
  | p :: r =>
    .next (if imageWaits s clu p then s else savePhys (s.modClu clu fun c => { c with saving := r }) clu p)

/-- The image of a slot name is read into a physical slot, its poison with it (R65, R427). -/
def readImage (s : State) (clu ctx lclu n p : Nat) : State :=
  let a := slotImage s ctx lclu n
  let b := physBase clu p / 16
  let r := hwRead s a 32768
  let bad := (List.range 2048).filter fun i => r.1.poison.contains (a / 16 + i)
  { r.1 with
    opmem := mwrite r.1.opmem (16 * b) r.2
    opoison := bad.foldl (fun l i => addOnce l (b + i)) (r.1.opoison.filter fun g => !(b ≤ g && g < b + 2048)) }

/-- The slots of a taken name that a command names are claimed again and its image is read back (R427): `x` is the entry that the
command has. -/
def restoreSlot (s : State) (clu ctx lclu n : Nat) (x : SlotName) : State :=
  if x.phys.isSome then s
  else
    let r := findPhys s clu (if x.pair then 2 else 1)
    match r.2 with
    | some (some ps) =>
      let ph := some (ps.getD 0 0, ps.getD 1 0)
      let s := (takePhys r.1 clu (ctx, lclu, n) ps).modClu clu (·.placeSlot (ctx, lclu, n) x.ser ph)
      let y := slotAt (s.ctx ctx).names lclu n
      let s := if y.claimed && y.ser = x.ser then
          s.modCtx ctx fun c => { c with names := slotSet c.names lclu n { y with phys := ph } }
        else s
      ps.zipIdx.foldl (fun s p => readImage s clu ctx lclu (n + p.2) p.1) s
    | _ => r.1

/-- SLOT_IMAGE_RESTORE (R427): `name` is 64 × the logical cluster + the slot name that a command of the cluster waits for. -/
def execSlotImageRestore (clu ctx name : Nat) (s : State) : Host.Outcome State Fault Refusal :=
  let c := s.clu clu
  match (c.jobs ++ c.moves).findSome? fun j => if j.cap.ctx != ctx || j.cap.lclu != name / 64 then none else
      j.shapes.find? fun x => x.1 == name % 64 && x.2.phys.isNone with
  | some x =>
    .next (if hwBlocked s (slotImage s ctx (name / 64) (name % 64)) (if x.2.pair then 65536 else 32768) then s
      else restoreSlot s clu ctx (name / 64) (name % 64) x.2)
  | none => .next s

/-! ### The instructions as they fire -/

/-- `efault` of a matrix fault (R305). -/
def matrixEfault (o : Op) (code h : Nat) : Nat := efaultOf o.slot code o.lsid + 2 ^ 21 * (h % 65536)

/-- A matrix instruction once its block is the oldest in flight (R306): it passes its check, a job producing its id (R313), or
its block holds the matrix fault (R305). -/
def stepMatrix (s : State) (k : Nat) (t : Thread) (f : Frame) (o : Op) : State :=
  if !t.isOldest f.seq || !f.turn o then s
  else
    match matrixCheck s k t f o with
    | .error (c, h) => stepFail s k f o 0x09 (matrixEfault o c h)
    | .ok _ =>
      reserveAll (if isJob o.i then stepDone s k f o (.s (BitVec.ofNat 64 (cmdId t.cnts.1 f (o.lsid.getD 0) isJob)))
        else stepOk s k f o) (cluOf k)

/-- MROWR and MCOL: having passed the check they take their place in the issue order (R310, R311). One whose handle arrives, or whose turn
comes, after its block became the oldest takes its place then (log 128). -/
def stepRead (s : State) (k : Nat) (t : Thread) (f : Frame) (o : Op) : State :=
  if !t.isOldest f.seq || !f.turn o || o.stage != 0 then s
  else
    match matrixCheck s k t f o with
    | .error (c, h) => stepFail s k f o 0x09 (matrixEfault o c h)
    | .ok xs =>
      let s := s.modFrame k f.seq (·.modOp o.slot fun o => { o with stage := 2 })
      let j : MJob := { i := o.i, cap := captureOf s k t f o 0, grid := gridOfThr k, place := (s.clu (cluOf k)).place,
                        a := o.a.word, b := .null, c := 0, shapes := xs, seq := f.seq, eng := Eng.mk0 }
      reserveAll (s.modClu (cluOf k) fun c => { c.useSlots xs with
        moves := c.moves ++ [j]
        place := c.place + 1 }) (cluOf k)

/-- MCLAIM (R307). -/
def execMclaim (f : ClaimF) (s : State) : Host.Outcome State Fault Refusal :=
  fireStep s (.mclaim f) f.p false false false (some f.lsid.toNat) [f.t0, f.t1] (stepClaim (f.pair == 1#1))

/-- MREL (R308): checked here, performed at commit. -/
def execMrel (f : LsF) (s : State) : Host.Outcome State Fault Refusal :=
  fireStep s (.mrel f) f.p true false false (some f.lsid.toNat) [] stepMatrix

/-- MSHAPE (R309): checked here, performed at commit. -/
def execMshape (f : ShapeF) (s : State) : Host.Outcome State Fault Refusal :=
  fireStep s (.mshape f) f.p true false false (some f.lsid.toNat) [] stepMatrix

/-- MLOAD (R318): its job is issued at commit. -/
def execMload (f : XferF) (s : State) : Host.Outcome State Fault Refusal :=
  fireStep s (.mload f) 0#2 true true true (some f.lsid.toNat) [f.t0, f.t1] stepMatrix

/-- MSTORE (R318): its job is issued at commit. -/
def execMstore (f : XferF) (s : State) : Host.Outcome State Fault Refusal :=
  fireStep s (.mstore f) 0#2 true true true (some f.lsid.toNat) [f.t0, f.t1] stepMatrix

/-- MROW (R316): its move is issued at commit. -/
def execMrow (f : RowF) (s : State) : Host.Outcome State Fault Refusal :=
  fireStep s (.mrow f) f.p true true false (some f.lsid.toNat) [] stepMatrix

/-- MROWR (R316). -/
def execMrowr (f : RowF) (s : State) : Host.Outcome State Fault Refusal :=
  fireStep s (.mrowr f) f.p true false false (some f.lsid.toNat) [f.t0, f.t1] stepRead

/-- MCOL (R317). -/
def execMcol (f : ColF) (s : State) : Host.Outcome State Fault Refusal :=
  fireStep s (.mcol f) f.p true false false (some f.lsid.toNat) [f.t0, f.t1] stepRead

/-- MCOLW (R317): its move is issued at commit. -/
def execMcolw (f : ColF) (s : State) : Host.Outcome State Fault Refusal :=
  fireStep s (.mcolw f) f.p true true false (some f.lsid.toNat) [] stepMatrix

/-- MZERO (R320): its job is issued at commit. -/
def execMzero (f : RsF) (s : State) : Host.Outcome State Fault Refusal :=
  fireStep s (.mzero f) f.p true false false (some f.lsid.toNat) [f.t0, f.t1] stepMatrix

/-- MMA (R320): its job is issued at commit. -/
def execMma (f : MmaF) (s : State) : Host.Outcome State Fault Refusal :=
  fireStep s (.mma f) f.p true true false (some f.lsid.toNat) [f.t0, f.t1] stepMatrix

/-- MMAS (R320): its job is issued at commit. -/
def execMmas (f : RsF) (s : State) : Host.Outcome State Fault Refusal :=
  fireStep s (.mmas f) f.p true true false (some f.lsid.toNat) [f.t0, f.t1] stepMatrix

/-- MSCAN (R321): its job is issued at commit. -/
def execMscan (f : ScanF) (s : State) : Host.Outcome State Fault Refusal :=
  fireStep s (.mscan f) f.p true true false (some f.lsid.toNat) [f.t0, f.t1] stepMatrix

/-- MACCR (R322): its job is issued at commit. -/
def execMaccr (f : AccrF) (s : State) : Host.Outcome State Fault Refusal :=
  fireStep s (.maccr f) f.p true true false (some f.lsid.toNat) [f.t0, f.t1] stepMatrix

/-- MWAIT (R324). -/
def execMwait (f : RsF) (s : State) : Host.Outcome State Fault Refusal :=
  fireStep s (.mwait f) f.p true false false (some f.lsid.toNat) [f.t0, f.t1] (stepWait 1 true)

/-- MPOLL (R324). -/
def execMpoll (f : RsF) (s : State) : Host.Outcome State Fault Refusal :=
  fireStep s (.mpoll f) f.p true false false (some f.lsid.toNat) [f.t0, f.t1] (stepWait 1 false)

/-! ### Commit (R307 to R310, R313) -/

/-- Another thread's block that has checked an instruction naming one of some slots is squashed when their entries change
(R306). -/
def squashUsers (s : State) (k ctx lclu : Nat) (ns : List Nat) : State :=
  s.thrs.foldl (fun s e =>
    if e.1 = k || cluOf e.1 != cluOf k || e.2.ctx != ctx || e.2.lclu != lclu then s
    else
      match (s.thr e.1).bind (·.oldest) with
      | some f =>
        let hit := fun (o : Op) => !o.nul && 1 ≤ o.stage && o.stage < 9 &&
          ((touches o).any ns.contains || (isJob o.i || isMove o.i || isRead o.i) &&
            (handles o).1.any fun h => (namesOf h).any ns.contains)
        if f.stage = 1 && f.ops.any hit then arbSquash s e.1 f.seq else s
      | none => s) s

/-- Physical slots that no name and no unfinished command holds are free again (R308). -/
def sweepPhys (s : State) (clu : Nat) : State :=
  let held := fun (p : Nat) (w : Nat × Nat × Nat) =>
    let x := slotAt (s.ctx w.1).names w.2.1 w.2.2
    (x.claimed && x.phys.any fun q => q.1 == p || (x.pair && q.2 == p)) || physBusy (s.clu clu) p ||
    s.thrs.any fun e => cluOf e.1 == clu && e.2.frames.any fun f => f.ops.any fun o => o.stage == 1 && match o.i with
      | .mclaim c => o.ans != some (.s 0) && (o.aux % 64 == p || (c.pair == 1#1 && o.aux / 64 == p))
      | _ => false
  s.modClu clu fun c => { c with phys := c.phys.filter fun e => e.2.owner.any (held e.1) }

/-- The bytes of a claimed slot read zero (R301). -/
def zeroPhys (s : State) (clu : Nat) (ps : List Nat) : State :=
  let inside := fun (a : Nat) => ps.any fun p => physBase clu p ≤ a && a < physBase clu p + 32768
  let s := { s with opmem := s.opmem.filter (!inside ·.1), opoison := s.opoison.filter fun g => !inside (16 * g) }
  s.modClu clu fun c => { c with phys := ps.foldl (fun t p => tset t p { c.slot p with dirty := true }) c.phys }

/-- A matrix instruction at the commit of its block: its place in the cluster's issue order is that of the commit (R310). A
transfer waits for the drain of its issue (R136). -/
def commitMatrix (s : State) (k : Nat) (t : Thread) (f : Frame) (o : Op) : State :=
  let clu := cluOf k
  let setNames := fun (s : State) => s.modCtx t.ctx fun x => { x with names := opEffect t.lclu x.names o }
  match o.i with
  | .mclaim c =>
    let h := ((o.ans.getD .null).word).toNat
    if h = 0 then s
    else
      let ps := if c.pair = 1#1 then [o.aux % 64, o.aux / 64] else [o.aux % 64]
      squashUsers (zeroPhys (setNames s) clu ps) k t.ctx t.lclu (namesOf h)
  | .mrel _ => sweepPhys (squashUsers (setNames s) k t.ctx t.lclu (namesOf o.a.word.toNat)) clu
  | .mshape _ => squashUsers (setNames s) k t.ctx t.lclu (namesOf o.a.word.toNat)
  | .mrowr _ | .mcol _ => s
  | i =>
    if !(isJob i || isMove i) then s
    else
      let tab := (s.ctx t.ctx).names
      let xs := (handles o).1.filterMap (findSlot tab t.lclu)
      let id := ((o.ans.getD .null).word).toNat
      let j : MJob := { i := i, cap := captureOf s k t f o id, grid := gridOfThr k, place := (s.clu clu).place, a := o.a.word,
                        b := o.b, c := o.c.word, shapes := xs, seq := f.seq,
                        eng := { Eng.mk0 with st := if isIssue i then 9 else 0 } }
      let s := s.modClu clu fun c => { c.useSlots xs with
        jobs := if isJob i then c.jobs ++ [j] else c.jobs
        moves := if isJob i then c.moves else c.moves ++ [j]
        place := c.place + 1 }
      if isJob i then s.modThr k fun t => { t with
        cnts := ((t.cnts.1 + 1) % 256, t.cnts.2)
        status := tdel t.status (256 + id) }
      else s

/-! ### Bytes and elements of slots (R302) -/

/-- Where a command finds role `r` (R427). -/
def physNow (j : MJob) (r : Nat) : Option (Nat × Nat) := (j.shapes[r]?).bind (·.2.phys)

/-- The address of a byte of a slot or pair. -/
def slotByte (clu : Nat) (ph : Nat × Nat) (off : Nat) : Nat :=
  if off < 32768 then physBase clu ph.1 + off else physBase clu ph.2 + (off - 32768)

/-- The shape of role `r`. -/
def MJob.shape (j : MJob) (r : Nat) : SlotName := (j.shapes[r]?.map (·.2)).getD SlotName.free

/-- Bytes of role `r` from an offset of its slot; those of one row lie together. -/
def slotRead (s : State) (clu : Nat) (j : MJob) (r off n : Nat) : List Byte :=
  match physNow j r with
  | some ph => mread s.opmem (slotByte clu ph off) n
  | none => List.replicate n 0

/-- Whether bytes of role `r` are poisoned. -/
def slotBad (s : State) (clu : Nat) (j : MJob) (r off n : Nat) : Bool :=
  (physNow j r).any fun ph => (gransOf (slotByte clu ph off) n).any s.opoison.contains

/-- Write bytes of role `r`; the slot is dirty, poison follows the bytes (R65, R427). -/
def slotWrite (s : State) (clu : Nat) (j : MJob) (r off : Nat) (bs : List Byte) (pz : Bool) : State :=
  match physNow j r with
  | none => s
  | some ph =>
    let a := slotByte clu ph off
    let gs := gransOf a bs.length
    let whole := gs.filter fun g => a ≤ 16 * g && 16 * g + 16 ≤ a + bs.length
    let op := s.opoison.filter fun g => !whole.contains g
    let p := if off < 32768 then ph.1 else ph.2
    { s with
      opmem := mwrite s.opmem a bs
      opoison := if pz then gs.foldl addOnce op else op }.modClu clu fun c =>
        { c with phys := tset c.phys p { c.slot p with dirty := true } }

/-- The bytes of a row of role `r`. -/
def rowRead (s : State) (clu : Nat) (j : MJob) (r row : Nat) : List Byte :=
  slotRead s clu j r ((j.shape r).pitch * row) (j.shape r).rowBytes

/-- Element `c` of a row of bytes in a format (R213, R226, R302). -/
def elemOf (fmt cols : Nat) (row : Nat) (c : Nat) : Nat :=
  if fmt = 0x12 then
    ((List.range 8).map fun p => if row.testBit (p * cols + c) then 2 ^ (7 - p) else 0).foldl (· + ·) 0
  else (row >>> (elemBits fmt * c)) % 2 ^ elemBits fmt

/-- The codes of a row of role `r`. -/
def rowCodes (s : State) (clu : Nat) (j : MJob) (r row : Nat) : List Nat :=
  let x := j.shape r
  let n := leNat (rowRead s clu j r row)
  (List.range x.cols).map (elemOf x.fmt x.cols n)

/-- The codes of every row of role `r`. -/
def allCodes (s : State) (clu : Nat) (j : MJob) (r : Nat) : List (List Nat) :=
  (List.range (j.shape r).rows).map (rowCodes s clu j r)

/-- The bytes of a row of codes. -/
def rowOfCodes (x : SlotName) (cs : List Nat) : List Byte :=
  let b := elemBits x.fmt
  leBytes x.rowBytes ((cs.zipIdx.map fun c => (c.1 % 2 ^ b) <<< (b * c.2)).foldl (· + ·) 0)

/-- Write every row of role `r`. -/
def putCodes (s : State) (clu : Nat) (j : MJob) (r : Nat) (rows : List (List Nat)) (pz : Bool) : State :=
  rows.zipIdx.foldl (fun s x => slotWrite s clu j r ((j.shape r).pitch * x.2) (rowOfCodes (j.shape r) x.1) pz) s

/-! ### Order (R310, R314) -/

/-- Whether two commands touch one slot that one of them writes. -/
def hazard (a b : MJob) : Bool :=
  let key := fun (j : MJob) (x : Nat × SlotName) => (j.cap.ctx, j.cap.lclu, x.1, x.2.ser)
  let uses := fun (j : MJob) => j.shapes.map (key j)
  let wr := fun (j : MJob) => (writesRole j.i).filterMap fun r => j.shapes[r]?.map (key j)
  (wr a).any (uses b).contains || (wr b).any (uses a).contains

/-- Whether a command waits for an earlier unfinished one of the cluster (R310). -/
def held (c : Clu) (j : MJob) : Bool := (c.jobs ++ c.moves).any fun x => x.place < j.place && hazard x j

/-- Whether every slot of a command is where it can be used; one that was taken is first restored (R427). -/
def slotsHere (j : MJob) : Bool := (List.range j.shapes.length).all fun r => (physNow j r).isSome

/-- The job a pipe runs. -/
def Clu.pipe (c : Clu) (p : Nat) : Option Nat := if p = 0 then c.pipeC else c.pipeT

/-- The oldest job of grid `g` for a pipe that has not started; a transfer whose issue still drains has `st` 9. -/
def nextJob (c : Clu) (g p : Nat) : Option MJob :=
  c.jobs.find? fun j => j.grid % 8 == g && pipeOf j.i == p && (j.eng.st == 0 || j.eng.st == 9)

/-- Whether a grid is eligible for a pipe, tokens aside (R314). -/
def eligible (s : State) (clu g p : Nat) : Bool :=
  let c := s.clu clu
  (c.pipe p).isNone && (nextJob c g p).any fun j => j.eng.st == 0 && !held c j && slotsHere j

/-- The weight of a grid's next job (R314). -/
def weight (s : State) (clu g p : Nat) : Nat :=
  match nextJob (s.clu clu) g p with
  | some j => 1 + field ((s.ctx j.cap.ctx).word 5) (4 * g + 3) (4 * g)
  | none => 1

/-- PickGrid (R314): the grid chosen, with the new pointer and count. -/
def pickGrid (s : State) (clu p : Nat) : Option (Nat × Nat × Nat) :=
  let (ptr, used) := (tget (s.clu clu).pick p).getD (0, 0)
  (List.range 9).findSome? fun n =>
    let g := (ptr + n) % 8
    if eligible s clu g p && (0 < n || used < weight s clu g p) then
      some (g, if 0 < n then (g, 1) else (ptr, used + 1))
    else none

/-! ### Moves and reads (R312, R316, R317) -/

/-- The row bytes that a segment covers. -/
def segBytes (x : SlotName) (seg : Nat) : Nat := Nat.min 64 (x.rowBytes - 64 * seg)

/-- Perform a move or a read of the engine. -/
def movePerform (s : State) (clu : Nat) (j : MJob) : State :=
  let x := j.shape 0
  let w := elemBits x.fmt / 8
  let lanes := fun (f : ColF) => (List.range (64 / w)).filter fun i => f.row0.toNat + i < x.rows
  let reply := fun (s : State) (bs : List Byte) =>
    match (s.frame j.cap.thr j.seq).bind fun f => (f.op j.cap.slot).map fun o => (f, o) with
    | some (f, o) => stepDone s j.cap.thr f o (.v (BitVec.ofNat 512 (leNat bs)))
    | none => s
  match j.i with
  | .mrow f =>
    slotWrite s clu j 0 (x.pitch * f.row.toNat + 64 * f.seg.toNat) ((leBytes 64 j.b.vec.toNat).take (segBytes x f.seg.toNat)) false
  | .mrowr f => reply s (slotRead s clu j 0 (x.pitch * f.row.toNat + 64 * f.seg.toNat) (segBytes x f.seg.toNat))
  | .mcolw f =>
    (lanes f).foldl (fun s i =>
      slotWrite s clu j 0 (x.pitch * (f.row0.toNat + i) + w * f.col.toNat) ((leBytes 64 j.b.vec.toNat).drop (w * i) |>.take w) false) s
  | .mcol f =>
    reply s ((lanes f).flatMap fun i => slotRead s clu j 0 (x.pitch * (f.row0.toNat + i) + w * f.col.toNat) w)
  | _ => s

/-- MOVE_PERFORM (R312): the next move or read in issue order, once its hazards have cleared; a read whose block is gone is
dropped (R311). -/
def execMovePerform (clu : Nat) (s : State) : Host.Outcome State Fault Refusal :=
  let c := s.clu clu
  match c.moves with
  | [] => .next s
  | j :: r =>
    let gone := !isMove j.i && !s.live j.cap.thr j.seq
    if gone then .next (s.modClu clu fun c => { c with moves := r })
    else if held c j || !slotsHere j then .next s
    else .next (reserveAll (sweepPhys ((movePerform s clu j).modClu clu fun c => { c with moves := r }) clu) clu)

/-! ### Tile operations (R320 to R322) -/

/-- The scaled sum of a group of 32 products (R228). -/
def groupSum (fa fb : Nat) (as bs : List Nat) (sc : Option (Nat × Nat)) : XVal :=
  let x := (sumX .rne ((as.zip bs).map fun p => (mulX (decodeF (fmtOf fa) false p.1) (decodeF (fmtOf fb) false p.2)).1)).1
  match sc with
  | none => x
  | some (p, q) => if p = 0xFF || q = 0xFF then .nan false else scaleX ((p : Int) + q - 254) x

/-- One accumulator element of MMA or MMAS (R228, R229, R320). -/
def mmaElem (fa fb fd k : Nat) (acc : Nat) (as bs : List Nat) (sc : Option (List Nat × List Nat)) : Nat × Flags :=
  (List.range (as.length / 32)).foldl (fun r g =>
    let a := (as.drop (32 * g)).take 32
    let b := (bs.drop (32 * g)).take 32
    if fd = 9 then
      let x := groupSum fa fb a b (sc.map fun y => (y.1.getD g 0, y.2.getD g 0))
      let y := roundF fmtF32 .rne false 0 (sumX .rne [decodeF fmtF32 false r.1, x]).1
      (y.1, r.2 ||| (y.2 &&& (flagOF ||| flagNX)))
    else
      let va := fun (c : Nat) => if fa = 0x12 then niValue k c else tyVal 0 c
      let z := tyVal 2 r.1 + ((a.zip b).map fun p => va p.1 * tyVal 0 p.2).foldl (· + ·) 0
      let y := satInt z (tyMin 2) (tyMax 2)
      (intBits 32 y, r.2 ||| flagIf (y ≠ z) flagIS)) (acc, 0#6)

/-- A matrix of results with its flags. -/
def splitFlags (rs : List (List (Nat × Flags))) : List (List Nat) × Flags :=
  (rs.map fun r => r.map (·.1), rs.foldl (fun a r => r.foldl (fun a x => a ||| x.2) a) 0#6)

/-- MMA and MMAS (R320). -/
def mmaJob (s : State) (clu : Nat) (j : MJob) (pl : Nat) (scaled : Bool) : List (List Nat) × Flags :=
  let (d, a, b) := (j.shape 0, j.shape 1, j.shape 2)
  let bs := allCodes s clu j 2
  let sb := if scaled then allCodes s clu j 4 else []
  splitFlags ((List.range d.rows).map fun i =>
    let as := rowCodes s clu j 1 i
    let sa := if scaled then rowCodes s clu j 3 i else []
    (rowCodes s clu j 0 i).zipIdx.map fun x =>
      mmaElem a.fmt b.fmt d.fmt (pl + 1) x.1 as (bs.getD x.2 []) (if scaled then some (sa, sb.getD x.2 []) else none))

/-- One column of MSCAN (R230, R321): the results and the state after it. A product of infinity and zero raises NV whatever the addend
is (log 12). -/
def scanCol (fp fx : Nat) (ps xs : List Nat) (h : Nat) : List Nat × Nat × Flags :=
  (ps.zip xs).foldl (fun r p =>
    let m := mulX (decodeF (fmtOf fp) false p.1) (decodeF fmtF32 false r.2.1)
    let a := sumX .rne [m.1, decodeF (fmtOf fx) false p.2]
    let y := roundF fmtF32 .rne false 0 a.1
    (r.1 ++ [y.1], y.1, r.2.2 ||| m.2 ||| a.2 ||| y.2)) ([], h, 0#6)

/-- Columns of a list of rows. -/
def column (rows : List (List Nat)) (j : Nat) : List Nat := rows.map fun r => r.getD j 0

/-- MACCR's conversion of one element (R322); `e` is its place in row-major order (R233). -/
def accrElem (src dst : Nat) (rnd : BitVec 3) (v : FEnv) (e c : Nat) : Nat × Flags :=
  if src = dst then (c, 0#6) else convElem src dst true (rmOf rnd v.fcr) v e c

/-- The roles of a compute job whose every row it reads, and the one whose one row it reads (R320 to R322). -/
def readsRoles (i : Instr) : List Nat × Option (Nat × Nat) :=
  match i with
  | .mma _ => ([0, 1, 2], none)
  | .mmas _ => ([0, 1, 2, 3, 4], none)
  | .mscan f => ([1, 2], some (3, f.hrow.toNat))
  | .maccr _ => ([1], none)
  | _ => ([], none)

/-- Whether a compute job reads poisoned data (R323). -/
def jobBad (s : State) (clu : Nat) (j : MJob) : Bool :=
  let row := fun (r i : Nat) => slotBad s clu j r ((j.shape r).pitch * i) (j.shape r).rowBytes
  (readsRoles j.i).1.any (fun r => (List.range (j.shape r).rows).any (row r)) || (readsRoles j.i).2.any fun x => row x.1 x.2

/-- Perform a compute job: the slots written and the flags raised. Poisoned data it reads poisons all that it computes (R65, log
116). -/
def computeJob (s : State) (clu : Nat) (j : MJob) : State × Flags :=
  let bad := jobBad s clu j
  match j.i with
  | .mzero _ =>
    match physNow j 0 with
    | some ph => (zeroPhys s clu (if (j.shape 0).pair then [ph.1, ph.2] else [ph.1]), 0#6)
    | none => (s, 0#6)
  | .mma f => let r := mmaJob s clu j f.pl.toNat false; (putCodes s clu j 0 r.1 bad, r.2)
  | .mmas _ => let r := mmaJob s clu j 0 true; (putCodes s clu j 0 r.1 bad, r.2)
  | .mscan f =>
    let ps := allCodes s clu j 1
    let xs := allCodes s clu j 2
    let hs := rowCodes s clu j 3 f.hrow.toNat
    let cols := hs.zipIdx.map fun h => scanCol (j.shape 1).fmt (j.shape 2).fmt (column ps h.2) (column xs h.2) h.1
    let rows := (List.range (j.shape 0).rows).map fun t => cols.map fun c => c.1.getD t 0
    let s := putCodes s clu j 0 rows bad
    (slotWrite s clu j 3 ((j.shape 3).pitch * f.hrow.toNat) (rowOfCodes (j.shape 3) (cols.map (·.2.1))) bad,
      cols.foldl (fun a c => a ||| c.2.2) 0#6)
  | .maccr f =>
    let (d, x) := (j.shape 0, j.shape 1)
    let r := splitFlags ((allCodes s clu j 1).zipIdx.map fun row => row.1.zipIdx.map fun c =>
      accrElem x.fmt d.fmt f.rnd j.cap.env (row.2 * x.cols + c.2) c.1)
    let s := putCodes s clu j 0 r.1 bad
    (if f.clr = 1#1 then putCodes s clu j 1 (List.replicate x.rows (List.replicate x.cols 0)) false else s, r.2)
  | _ => (s, 0#6)

/-! ### Transfers (R318, R319) -/

/-- The ranges of a transfer: effective address, place in the slot, length; one list for each row. A plane count of one, PL 000, which R215
reserves and R318's loop can do, moves one plane (log 128). -/
def xferRows (j : MJob) (f : XferF) : List (List (Word × Nat × Nat)) :=
  let x := j.shape 0
  let rs := (bits j.c 0 32).signExtend 64
  let ps := (bits j.c 32 32).signExtend 64
  (List.range (f.nrowm1.toNat + 1)).map fun i =>
    let at_ := x.pitch * (f.row0.toNat + i)
    let base := j.b.word + BitVec.ofNat 64 i * rs
    if x.fmt = 0x12 then
      (List.range (f.pl.toNat + 1)).map fun p => (base + BitVec.ofNat 64 p * ps, at_ + p * (x.cols / 8), x.cols / 8)
    else [(base, at_, x.rowBytes)]

/-- The translations of a transfer, row by row (R319). -/
def xferTr (s : State) (clu : Nat) (j : MJob) (f : XferF) (dst : Bool) : List RowTr :=
  (xferRows j f).map fun r =>
    (r.map fun x => engRange s (engAcc j.cap j.eng clu dst f.cls.toNat) x.2.1 x.1 x.2.2).foldl RowTr.and (.ok [])

/-- Update a job. -/
def State.modJob (s : State) (clu place : Nat) (g : MJob → MJob) : State :=
  s.modClu clu fun c => { c with jobs := c.jobs.map fun j => if j.place = place then g j else j }

/-- One step of a transfer's progress: 1 translating, 2 taking ownership, 3 reading, 4 writing, 5 complete. -/
def xferStep (s : State) (clu : Nat) (j : MJob) (f : XferF) (store : Bool) : State :=
  let put := fun (x : State × Eng) (st : Nat) => x.1.modJob clu j.place fun j => { j with eng := { x.2 with st := st } }
  let (ctx, gen) := (j.cap.ctx, j.cap.gen)
  if j.eng.st = 1 then
    let (asks, segs, xf) := engRows (xferTr s clu j f store)
    if asks != [] then put (engAsk s clu ctx j.eng asks) 1
    else
      let e := { j.eng with segs := segs, xf := xf, asked := [], nope := [] }
      if store then put (engOwn s clu 1 j.place ctx gen e) 2 else put (engRead s clu 1 j.place ctx gen e fun _ => true) 3
  else
    let x := engCollect s j.eng
    if x.2.out != [] then put x j.eng.st
    else if j.eng.st = 2 then
      let fill := fun (d : Seg) => { d with data := slotRead s clu j 0 d.off d.len, poison := d.marks (slotBad s clu j 0) }
      let e := { x.2 with segs := x.2.segs.map fill }
      put (engWrite x.1 clu 1 j.place ctx gen { e with pz := e.pz || e.segs.any (·.poison != 0#4) } fun _ => true) 4
    else if j.eng.st = 3 then
      let s := x.2.segs.foldl (fun s d => (List.range 4).foldl (fun s i =>
        let r := d.gran i
        if r.2 = 0 then s
        else slotWrite s clu j 0 (d.off + r.1) ((d.data.drop r.1).take r.2) (d.poison.getLsbD i)) s) x.1
      put (s, x.2) 5
    else put x 5

/-! ### Completion (R315, R323) -/

/-- The status of a job (R323). -/
def jobStatus (id : Nat) (fl : Flags) (pz : Bool) (xf : Option Nat) : Word :=
  BitVec.ofNat 64 (1 + 2 * fl.toNat + (if xf.isSome then 128 else 0) + (if pz then 256 else 0) + 4096 * xf.getD 0 + 65536 * id)

/-- A job leaves the engine: its queue entry is free, its status is with its thread, its slots may be free (R308, R315); blocks
that wait for entries of the queue reserve them (R312). -/
def jobDone (s : State) (clu : Nat) (j : MJob) : State :=
  let s := engFinish s clu 1 j.place j.eng
  let s := s.modClu clu fun c => { c with jobs := c.jobs.filter (·.place != j.place) }
  reserveAll (setStatus (sweepPhys s clu) j.cap 1 (jobStatus j.cap.id j.eng.fl j.eng.pz j.eng.xf)) clu

/-- Whether an earlier command of a job's context has not yet landed its writes: the job's completion, which releases them, waits
(R87, R138). -/
def jobBehind (c : Clu) (j : MJob) : Bool :=
  c.jobs.any fun x => x.place < j.place && x.cap.ctx == j.cap.ctx && x.eng.st != 5 && match x.i with
    | .mstore _ => true
    | _ => false

/-- The job a pipe runs goes on; one that has done its work leaves the pipe and is ready to complete. -/
def pipeStep (s : State) (clu pipe : Nat) : State :=
  let c := s.clu clu
  match (c.pipe pipe).bind fun p => c.jobs.find? (·.place == p) with
  | none => s
  | some j =>
    let s := match j.i with
      | .mload f => xferStep s clu j f false
      | .mstore f => xferStep s clu j f true
      | _ =>
        let r := computeJob s clu j
        r.1.modJob clu j.place fun j => { j with eng := { j.eng with st := 5, fl := r.2, pz := jobBad s clu j } }
    if (s.clu clu).jobs.any fun x => x.place == j.place && x.eng.st == 5 then s.modClu clu fun c => { c with
      pipeC := if pipe = 0 then none else c.pipeC
      pipeT := if pipe = 0 then c.pipeT else none }
    else s

/-- MATRIX_JOB_COMPLETE (R315): the job of a pipe goes on, and a job of the pipe completes whose work is done and that no earlier
command's writes hold back (R87). -/
def execMatrixJobComplete (clu pipe : Nat) (s : State) : Host.Outcome State Fault Refusal :=
  let s := pipeStep s clu pipe
  match (s.clu clu).jobs.find? fun j => pipeOf j.i == pipe && j.eng.st == 5 && !jobBehind (s.clu clu) j && !statusWaits s j.cap with
  | some j => .next (jobDone s clu j)
  | none => .next s

end Sys2Proof.Machine
end

