-- ==== Sys2Proof/Machine/Ports.lean ====
section
/-! DEFINITION. The join unit (chapter 14): grants and deliveries (R327 to R336), patterns and firings (R337 to R345), the PORT
instructions (R346 to R352), and the grid allocator (R399) that a firing and a spawn share. -/

namespace Sys2Proof.Machine

/-! ### Posting (R331, R335, R421) -/

/-- Ask a port for room (R333). -/
def askPort (s : State) (src : Src) (ctx clu port : Nat) (m : PMsg) (scope : Nat) : State :=
  s.send { Msg.mk0 .grantReq src with
    ctx := ctx, gen := (s.ctx ctx).gen, node := 9 + clu, port := port, pm := some m, scope := scope, cls := 4, pa := 2 ^ 49 }

/-- Whether the fault queue of a context waits: an engine owns a line of it, or a reservation stands there (R85, R271). -/
def queueWaits (s : State) (ctx : Nat) : Bool :=
  (s.ctx ctx).alive && hwBlocked s (field ((s.ctx ctx).word 2) 55 14 * 2 ^ 14 + 0x2100) 0x1F00

/-- The Sheepdog appends a fault record to a context's fault queue and posts the new TAIL (R335, R421). -/
def postFault (s : State) (ctx : Nat) (w0 w1 : Nat) : State :=
  let x := s.ctx ctx
  let base := field (x.word 2) 55 14 * 2 ^ 14
  let (s, bs) := hwRead s (base + 0x2100) 24
  let word := fun (i : Nat) => leNat ((bs.drop i).take 4)
  let tl := word 8
  if 448 ≤ (tl + 2 ^ 32 - word 0) % 2 ^ 32 then
    hwStore s (base + 0x2110) (leBytes 4 (Nat.min (word 16 + 1) 0xFFFFFFFF))
  else
    let s := hwStore s (base + 0x2400 + 16 * (tl % 448)) (leBytes 8 w0 ++ leBytes 8 w1)
    let s := hwStore s (base + 0x2108) (leBytes 4 ((tl + 1) % 2 ^ 32))
    match mapCluster s x (field (x.word 10) 31 16) with
    | .ok (p, c) =>
      if p = s.mod.pkg then
        askPort s .dog ctx c (field (x.word 10) 5 0) ⟨[BitVec.ofNat 64 ((tl + 1) % 2 ^ 32)], 0, false, 0xFF0, 0⟩ 0
      else s
    | .error _ => s

/-- The fault record of a discarded message (R335). -/
def overflowFault (s : State) (clu port kind : Nat) (m : PMsg) : State :=
  let w := kind + 16 * port + 1024 * m.tag + 2 ^ 26 * m.sender + (if m.tagged then 2 ^ 38 else 0)
  let x := ((s.clu clu).port port).owner
  if (s.ctx x).alive then postFault s x w (s.gridCyc (8 * clu)).toNat else s

/-- Whether a post from outside or from the Sheepdog waits for an earlier one of its origin: the posted writes of one host port
are performed in order (R439), and so are the Sheepdog's messages to one port (R331). -/
def behindPost (s : State) (n : Nat) (m : Msg) : Bool :=
  match m.src with
  | .ext _ => (s.mod.postq.find? fun k => (s.msg k).any (·.src == m.src)) != some n
  | .dog => s.net.any fun e => e.1 < n && e.2.src == .dog && e.2.node == m.node && e.2.port == m.port &&
      (e.2.kind == .grantReq || e.2.kind == .grantStatus || e.2.kind == .deliver)
  | _ => false

/-- GRANT_REQUEST (R333): a request reaches its port and is granted, waits, or gets its status. -/
def execGrantRequest (n : Nat) (s : State) : Host.Outcome State Fault Refusal :=
  match s.msg n with
  | none => .next s
  | some m =>
    if m.kind != .grantReq || m.st != 0 || behindPost s n m then .next s
    else
      let clu := m.node - 9
      let c := s.clu clu
      let q := c.port m.port
      if !portAccepts c m.port m then .next (sendStatus s n m 3)
      else
        match (if q.waiting = [] then tryGrant s n m else none) with
        | some s' => .next s'
        | none =>
          if q.pol = 1 then .next (sendStatus s n m 1)
          else if q.pol = 2 then .next (sendStatus s n m 2)
          else .next (({ s with fresh := s.fresh + 1 }.setMsg n { m with st := 1, t0 := BitVec.ofNat 64 s.fresh }).modPort clu m.port
            fun p => { p with waiting := p.waiting ++ [n] })

/-- GRANT_STATUS (R333): the status returns: a SEND produces it; an engine sees it; a post from outside or from the Sheepdog
is delivered. -/
def execGrantStatus (n : Nat) (s : State) : Host.Outcome State Fault Refusal :=
  match s.msg n with
  | none => .next s
  | some m =>
    if m.kind != .grantStatus || m.st != 0 then .next s
    else
      match m.src with
      | .acc k q slot _ =>
        match (s.frame k q).bind fun f => (f.op slot).map fun o => (f, o) with
        | some (f, o) => .next (stepDone (s.setMsg n { m with st := 1 }) k f o (.s (BitVec.ofNat 64 m.sub)))
        | none => .next (s.delMsg n)
      | .eng _ _ _ => .next (s.setMsg n { m with st := 1 })
      | _ => .next ({ s with fresh := s.fresh + 1 }.setMsg n { m with kind := .deliver, t0 := BitVec.ofNat 64 s.fresh })

/-- The stream of messages that arrive in order (R331): those of one thread are known by its serial, which a committed Send carries. -/
def sameSender (a b : Msg) : Bool :=
  match a.src, b.src with
  | .grid _, .grid _ => a.par == b.par
  | .eng c u _, .eng c' u' _ => c == c' && u == u'
  | .ext x, .ext y => x == y
  | .dog, .dog => true
  | _, _ => false

/-- Whether a port holds the tag of a message already (R334). -/
def tagHeld (c : Clu) (p : Nat) (x : PMsg) : Bool := x.tagged && (heldBy c p).any fun y => y.tagged && y.tag == x.tag

/-- Whether a message is to be recorded as a fault when it arrives (R334, R335). -/
def faultsAt (c : Clu) (m : Msg) (x : PMsg) : Bool := m.sub == 2 || (m.sub == 0 && (c.port m.port).en && tagHeld c m.port x)

/-- A message arrives with room granted: into its resident slot or Kennel entry, unless its tag is held already (R331, R334). -/
def place (s : State) (n : Nat) (m : Msg) (x : PMsg) : State :=
  let clu := m.node - 9
  let c := s.clu clu
  let q := c.port m.port
  let inK := q.kgranted.contains n
  let s := s.modPort clu m.port fun p => { p with
    granted := p.granted.filter (· != n)
    kgranted := p.kgranted.filter (· != n) }
  if !q.en then s.modPort clu m.port (·.drop 1)
  else if tagHeld c m.port x then overflowFault s clu m.port 2 x
  else
    let x := { x with arr := c.arr }
    let s := s.modClu clu fun c => { c with arr := (c.arr + 1) % 2 ^ 32 }
    let s := s.modPort clu m.port fun p => { p with sig := p.sig.or (m.sig.getD Sig.empty) }
    if inK then s.modClu clu fun c => { c with kennel := { c.kennel with
        tail := c.kennel.tail + 1
        ents := tset c.kennel.ents c.kennel.tail (m.port, x) } }
    else s.modPort clu m.port fun p => { p with res := p.res ++ [x] }

/-- MESSAGE_DELIVERY (R331, R333): by the status of its request; 4 marks a message whose port was unallotted under it (R345). -/
def execMessageDelivery (n : Nat) (s : State) : Host.Outcome State Fault Refusal :=
  match s.msg n with
  | none => .next s
  | some m =>
    let first := !(s.net.any fun e => e.2.kind == .deliver && e.2.node == m.node && e.2.port == m.port && e.1 != n &&
      sameSender e.2 m && e.2.t0.toNat < m.t0.toNat)
    match m.kind = .deliver && first, m.pm with
    | true, some x =>
      let clu := m.node - 9
      if faultsAt (s.clu clu) m x && queueWaits s ((s.clu clu).port m.port).owner then .next s
      else
      let s := (s.delMsg n).modMod fun x => { x with postq := x.postq.filter (· != n) }
      let s := if m.sub = 0 then place s n m x
        else if m.sub = 2 then overflowFault s clu m.port 1 x
        else if m.sub = 4 then s
        else s.modPort clu m.port (·.drop 1)
      .next (settleAll s clu)
    | _, _ => .next s

/-! ### The grid allocator (R399) -/

/-- The contexts granted on a cluster to threads that do not exist yet. -/
def grantedCtxs (c : Clu) : List Nat := c.spawns.flatMap (·.2.got)

/-- Whether a context of a grid is taken. -/
def ctxTaken (s : State) (k : Nat) : Bool := (s.thr k).isSome || (grantedCtxs (s.clu (cluOf k))).contains k

/-- Whether a grid is part of a core of width 2 or more, or is held for one or leaving one (R161, R167, R168). -/
def inCore (s : State) (g : Nat) : Bool :=
  (s.grid g).held.isSome || (s.grid g).leaving.isSome ||
  (s.thrs.any fun e => cluOf e.1 == cluOfGrid g && 2 ≤ e.2.width && (coreGrids (gridOfThr e.1) e.2.width).contains g) ||
  (s.clu (cluOfGrid g)).spawns.any fun x => !x.2.pack && x.2.got.any fun k =>
    2 ≤ 2 ^ field x.2.desc.toNat 7 6 && (coreGrids (gridOfThr k) (2 ^ field x.2.desc.toNat 7 6)).contains g

/-- A free context of a grid (R399). -/
def freeCtx (s : State) (g : Nat) : Option Nat :=
  if inCore s g then none else (List.range 4).map (4 * g + ·) |>.find? fun k => !ctxTaken s k

/-- Whether a grid is free for a width above 1 (R399). -/
def gridFree (s : State) (g : Nat) : Bool := !inCore s g && (List.range 4).all fun i => !ctxTaken s (4 * g + i)

/-- The grant of a request of a width within a pool (R399): the contexts, the home grid first. `last` is the grid last
granted for the source. -/
def allocate (s : State) (clu width pool last : Nat) : Option Nat :=
  if width = 1 then
    (List.range 8).findSome? fun i =>
      let g := (last + 1 + i) % 8
      if pool.testBit g then freeCtx s (8 * clu + g) else none
  else
    (List.range (8 / width)).findSome? fun i =>
      let gs := (List.range width).map (width * i + ·)
      if gs.all (fun g => pool.testBit g && gridFree s (8 * clu + g)) then some (4 * (8 * clu + width * i)) else none

/-- Whether a pool holds an aligned set of a width (R337, R406). -/
def poolHolds (width pool : Nat) : Bool :=
  (List.range (8 / width)).any fun i => (List.range width).all fun j => pool.testBit (width * i + j)

/-- Registers set at a thread's creation: live, the others dead (R342, R396). -/
def setRegs (t : Thread) (rs : List (Nat × Word)) : Thread :=
  rs.foldl (fun t r => { t with
    g := tset t.g r.1 r.2
    gdead := t.gdead &&& ~~~BitVec.ofNat 128 (2 ^ r.1) }) t

/-! ### Patterns (R337 to R343) -/

/-- Fields of a pattern's control word (R337). -/
def Pat.hidx (p : Pat) : Nat := field p.ctl.toNat 9 0
/-- See `Pat.hidx`. -/
def Pat.tagMode (p : Pat) : Bool := p.ctl.getLsbD 10
/-- See `Pat.hidx`. -/
def Pat.prio (p : Pat) : Nat := field p.ctl.toNat 13 11
/-- See `Pat.hidx`. -/
def Pat.width (p : Pat) : Nat := 2 ^ field p.ctl.toNat 15 14
/-- See `Pat.hidx`. -/
def Pat.pool (p : Pat) : Nat := field p.ctl.toNat 23 16
/-- See `Pat.hidx`. -/
def Pat.wpp (p : Pat) : Nat := field p.ctl.toNat 26 24 + 1
/-- See `Pat.hidx`. -/
def Pat.maxh (p : Pat) : Nat := field p.ctl.toNat 30 27
/-- The ports a pattern names, ascending (R337). -/
def Pat.ports (p : Pat) : List Nat := (List.range 64).filter p.mask.getLsbD

/-- The oldest of messages. -/
def oldestMsg (l : List PMsg) : Option PMsg :=
  l.foldl (fun a m => match a with
    | none => some m
    | some x => if m.arr < x.arr then some m else a) none

/-- The candidate messages of a matched pattern, by port (R339). -/
def candidates (c : Clu) (p : Pat) : Option (List (Nat × PMsg)) :=
  let ps := p.ports
  if ps = [] then none
  else if !p.tagMode then ps.mapM fun q => (oldestMsg (heldBy c q)).map fun m => (q, m)
  else
    let everywhere := fun (t : Nat) => ps.all fun q => (heldBy c q).any fun m => m.tagged && m.tag == t
    match oldestMsg (ps.flatMap fun q => (heldBy c q).filter fun m => m.tagged && everywhere m.tag) with
    | none => none
    | some x => ps.mapM fun q => (oldestMsg ((heldBy c q).filter fun m => m.tagged && m.tag == x.tag)).map fun m => (q, m)

/-- Whether a pattern is eligible, with the context it is granted (R340). -/
def patEligible (s : State) (clu e : Nat) : Option (List (Nat × PMsg) × Nat) :=
  let c := s.clu clu
  let p := c.pat e
  if !p.en || !runningOn s p.owner clu || (p.maxh != 0 && p.maxh ≤ p.running) then none
  else
    match candidates c p, allocate s clu p.width p.pool p.last with
    | some ms, some k => some (ms, k)
    | _, _ => none

/-- The pattern that fires (R341). -/
def arbitrate (s : State) (clu : Nat) : Option Nat :=
  (List.range 8).reverse.findSome? fun pr =>
    let ptr := (tget (s.clu clu).ptr pr).getD 0
    (List.range 32).findSome? fun n =>
      let e := (ptr + n) % 32
      if ((s.clu clu).pat e).prio = pr && (patEligible s clu e).isSome then some e else none

/-- A message leaves its port (R333, R341). -/
def consume (s : State) (clu : Nat) (x : Nat × PMsg) : State :=
  let c := s.clu clu
  if (c.port x.1).res.any (·.arr == x.2.arr) then
    s.modPort clu x.1 fun p => { p with res := p.res.filter (·.arr != x.2.arr) }
  else s.modClu clu fun c => { c with kennel := c.kennel.keep fun e => e.2.2.arr != x.2.arr }

/-- The registers of a handler (R342). -/
def handlerRegs (e : Nat) (p : Pat) (ms : List (Nat × PMsg)) : List (Nat × Word) :=
  let w := p.wpp
  (ms.zipIdx.flatMap fun x =>
    ((List.range w).map fun j => (4 + x.2 * w + j, x.1.2.words.getD j 0)) ++
    [(96 + x.2, BitVec.ofNat 64 (x.1.2.tag + 2 ^ 16 * x.1.2.sender + 2 ^ 28 * x.1.2.words.length +
      (if x.1.2.tagged then 2 ^ 32 else 0) + 2 ^ 33 * x.1.1 + (if w < x.1.2.words.length then 2 ^ 39 else 0)))]) ++
  [(104, BitVec.ofNat 64 (e + 32 * ms.length))]

/-- A thread comes to be: it has a serial of its own, and its leash starts (R181). -/
def born (s : State) (k : Nat) (t : Thread) : State :=
  let s := { s with fresh := s.fresh + 1 }.setThr k { t with ser := s.fresh }
  s.modThr k fun t => { t with leash0 := s.cycThr k }

/-- The thread of a handler (R342, R396): its thread number from its placement, its pattern and its tag (R395). -/
def firedThread (ctx gen lclu : Nat) (p : Pat) (seed thid : Word) (pat : Nat × Nat) : Thread :=
  let sp : Spec := { Spec.reset with jseed := seed, thid := thid, srkey := srkeyOf seed thid }
  { Thread.reset with ctx := ctx, gen := gen, lclu := lclu, width := p.width, pc := p.target, spec := sp, pat := some pat }

/-- FIRING (R341 to R343): the chosen pattern consumes its messages and its handler is created. -/
def execFiring (clu : Nat) (s : State) : Host.Outcome State Fault Refusal :=
  match arbitrate s clu with
  | none => .next s
  | some e =>
    match patEligible s clu e with
    | none => .next s
    | some (ms, k) =>
      let p := (s.clu clu).pat e
      let x := s.ctx p.owner
      let sig := Sig.ors (ms.map fun m => ((s.clu clu).port m.1).sig)
      let seed := BitVec.ofNat 64 (x.word 8)
      let lclu := (logicalOf s p.owner clu).getD 0
      let tag := (ms.head?.map (·.2.tag)).getD 0
      let thid := BitVec.ofNat 64 (2 ^ 31 ||| (lclu % 1024) * 2 ^ 21 ||| e * 2 ^ 16 ||| tag)
      let t := firedThread p.owner x.gen lclu p seed thid (e, p.serial)
      let s := born s k (setRegs t (handlerRegs e p ms))
      let s := s.modPat clu e fun p => { p with running := p.running + 1, last := gridOfThr k % 8 }
      let s := s.modClu clu fun c => { c with
        ptr := tset c.ptr p.prio ((e + 1) % 32)
        handlers := c.handlers ++ [⟨k, sig⟩] }
      .next (settleAll (ms.foldl (fun s m => consume s clu m) s) clu)

/-- A handler begins: the signatures of its ports are applied in its core's grids, and its leash starts (R336, R343). -/
def startHandler (s : State) (thr : Nat) : State :=
  match s.thr thr, (s.clu (cluOf thr)).handlers.find? (·.thr == thr) with
  | some t, some h =>
    let s := s.modClu (cluOf thr) fun c => { c with handlers := c.handlers.filter (·.thr != thr) }
    let s := applySig s thr 0 0 (coreGrids (gridOfThr thr) t.width) h.sig
    s.modThr thr fun t => { t with run := true, leash0 := s.cycThr thr }
  | _, _ => s

/-- HANDLER_FETCH_START (R336, R343): the port signatures are applied and the handler runs; its leash starts. -/
def execHandlerFetchStart (thr : Nat) (s : State) : Host.Outcome State Fault Refusal := .next (startHandler s thr)

/-! ### The instructions (R346 to R352) -/

/-- `efault` of a port fault (R348). -/
def portEfault (o : Op) (code idx : Nat) : Nat := efaultOf o.slot code o.lsid + 2 ^ 21 * idx

/-- `efault` of a cluster-map fault: the logical number in the place of R305's handle (R178). -/
def mapEfault (o : Op) (code n : Nat) : Nat := efaultOf o.slot code o.lsid + 2 ^ 21 * n

/-- The message a Send posts (R349). -/
def sendMsg (t : Thread) (o : Op) (f : SendF) (tagged : Bool) : PMsg :=
  let n := if f.v = 1#1 then f.wcm1.toNat + 1 else 1
  { words := (List.range n).map fun j => if f.v = 1#1 then bits o.b.vec (64 * j) 64 else o.b.word
    tag := if tagged then field o.a.word.toNat 47 32 else 0
    tagged := tagged
    sender := t.spec.thid.toNat % 2048
    arr := 0 }

/-- SEND and SENDT once their block is the oldest in flight: checked, and the grant requested (R348, R349). A port of another
package is outside the module: the status it answers is a free value (log 17). -/
def stepSend (g : SendF) (tagged : Bool) (s : State) (k : Nat) (t : Thread) (f : Frame) (o : Op) : State :=
  if !t.isOldest f.seq || !f.turn o || o.stage != 0 then s
  else
    let a := o.a.word.toNat
    if field a 15 6 != 0 || field a 63 48 != 0 || (!tagged && field a 47 32 != 0) then
      stepFail s k f o 0x0A (portEfault o 0x51 (field a 5 0))
    else
      let s := fillMap s (cluOf k) t.ctx (field a 31 16)
      match mapAt s (cluOf k) t.ctx (field a 31 16) with
      | .error c => stepFail s k f o 0x0E (mapEfault o c (field a 31 16))
      | .ok (p, clu) =>
        if p != s.mod.pkg then
          stepDone { s with fresh := s.fresh + 1 } k f o (.s (BitVec.ofNat 64 (Config.freeChoice s.fresh % 4)))
        else
          let n := s.fresh
          let s := askPort s (.acc k f.seq o.slot 0) t.ctx clu (field a 5 0) (sendMsg t o g tagged) g.scope.toNat
          s.modFrame k f.seq (·.modOp o.slot fun o => { o with stage := 2, aux := n + 1 })

/-- PORTCFG's checks (R348). Of one instruction that fails several, the owner comes first, then the index, then the value; R348 gives no
order (log 128). -/
def stepPortcfg (s : State) (k : Nat) (t : Thread) (f : Frame) (o : Op) : State :=
  if !t.isOldest f.seq || !f.turn o then s
  else
    let a := o.a.word.toNat
    let b := o.b.word.toNat
    let bad := fun (c : Nat) => stepFail s k f o 0x0A (portEfault o c (a % 64))
    if ((s.clu (cluOf k)).port (a % 64)).owner != t.ctx then bad 0x50
    else if 64 ≤ a then bad 0x51
    else if field b 63 27 != 0 || field b 15 5 != 0 || field b 3 2 = 3 then bad 0x55
    else stepOk s k f o

/-- Whether a thread's committed stores are on their way to bytes (R119). -/
def storesTo (s : State) (k pa n : Nat) : Bool :=
  s.net.any fun e => meets e.2.pa e.2.len pa n && match e.2.src with
    | .store _ t => t == k
    | _ => false

/-- PATSET's checks, in the order that `stepPortcfg` has, and its read of the handler entry once its thread's own stores to it are there
(R348, R351, R119). The entry's target is kept in `aux`; poisoned bytes are a data error (R65). -/
def stepPatset (s : State) (k : Nat) (t : Thread) (f : Frame) (o : Op) : State :=
  if !t.isOldest f.seq || !f.turn o then s
  else
    let a := o.a.word.toNat
    let c := s.clu (cluOf k)
    let p : Pat := { Pat.reset with mask := o.b.word, ctl := o.c.word }
    let x := s.ctx t.ctx
    let bad := fun (c : Nat) => stepFail s k f o 0x0A (portEfault o c (a % 32))
    if o.stage = 2 then
      match s.msg o.aux with
      | some m =>
        if m.kind != .reply then s
        else
          let bs := m.data.map (·.getD 0)
          let tgt := leNat (bs.take 10)
          let s := s.delMsg o.aux
          if (gransOf m.pa m.len).any fun r => m.poison.getLsbD (r % 4) then
            stepFail s k f o 0x08 (efaultOf o.slot 0x14 o.lsid)
          else if leNat (bs.drop 12) != 0 || tgt % 128 != 0 then
            stepFail s k f o 0x0A (portEfault o 0x54 (a % 32))
          else (stepOk s k f o).modFrame k f.seq (·.modOp o.slot fun o => { o with aux := tgt })
      | none => s
    else if (c.pat (a % 32)).owner != t.ctx then bad 0x50
    else if 32 ≤ a then bad 0x51
    else if p.ports = [] || 8 < p.ports.length || p.ports.any (fun q => (c.port q).owner != t.ctx) ||
        field p.ctl.toNat 63 31 != 0 || !poolHolds p.width p.pool then bad 0x53
    else if field (x.word 7) 10 0 ≤ p.hidx then bad 0x54
    else
      let n := s.fresh
      let pa := field (x.word 6) 55 4 * 16 + 16 * p.hidx
      if storesTo s k pa 16 then s
      else
      let s := s.send { Msg.mk0 .ucLoad (.acc k f.seq o.slot 0) with
        ctx := t.ctx, gen := x.gen, pa := pa, len := 16, cls := 1, scope := 4 }
      s.modFrame k f.seq (·.modOp o.slot fun o => { o with stage := 2, aux := n })

/-- PATCLR's checks (R348). -/
def stepPatclr (s : State) (k : Nat) (t : Thread) (f : Frame) (o : Op) : State :=
  if !t.isOldest f.seq || !f.turn o then s
  else
    let a := o.a.word.toNat
    let bad := fun (c : Nat) => stepFail s k f o 0x0A (portEfault o c (a % 32))
    if ((s.clu (cluOf k)).pat (a % 32)).owner != t.ctx then bad 0x50
    else if 32 ≤ a then bad 0x51
    else stepOk s k f o

/-- The port state that PORTQ reads (R350). -/
def portState (s : State) (clu ctx p : Nat) : Nat :=
  let c := s.clu clu
  let q := c.port p
  2 ^ 48 * q.owner +
    (if q.owner = ctx then
      2 ^ 32 * q.drops + 256 * (kennelOf c p).length + 16 * q.res.length + 4 * q.pol + (if q.open_ then 2 else 0) +
        (if q.en then 1 else 0)
    else 0)

/-- PORTQ when its block is the oldest in flight (R346, R350). -/
def stepPortq (s : State) (k : Nat) (t : Thread) (f : Frame) (o : Op) : State :=
  let a := o.a.word.toNat
  if !t.isOldest f.seq then s
  else if 64 ≤ a then stepFail s k f o 0x0A (portEfault o 0x51 (a % 64))
  else stepDone s k f o (.s (BitVec.ofNat 64 (portState s (cluOf k) t.ctx a)))

/-- SEND (R349): its message is delivered at commit. -/
def execSend (f : SendF) (s : State) : Host.Outcome State Fault Refusal :=
  fireStep s (.send f) f.p true true false (some f.lsid.toNat) [f.t0, f.t1] (stepSend f false)

/-- SENDT (R349): its message is delivered at commit. -/
def execSendt (f : SendF) (s : State) : Host.Outcome State Fault Refusal :=
  fireStep s (.sendt f) f.p true true false (some f.lsid.toNat) [f.t0, f.t1] (stepSend f true)

/-- PORTCFG (R350): written at commit. -/
def execPortcfg (f : LsF) (s : State) : Host.Outcome State Fault Refusal :=
  fireStep s (.portcfg f) f.p true true false (some f.lsid.toNat) [] stepPortcfg

/-- PATSET (R351): installed at commit. -/
def execPatset (f : C3F) (s : State) : Host.Outcome State Fault Refusal :=
  fireStep s (.patset f) 0#2 true true true (some f.lsid.toNat) [] stepPatset

/-- PATCLR (R351): performed at commit. -/
def execPatclr (f : LsF) (s : State) : Host.Outcome State Fault Refusal :=
  fireStep s (.patclr f) f.p true false false (some f.lsid.toNat) [] stepPatclr

/-- PORTQ (R350). -/
def execPortq (f : GF) (s : State) : Host.Outcome State Fault Refusal :=
  fireStep s (.portq f) f.p true false false none [f.t0, f.t1] stepPortq

/-- An instruction that only marks its block: what it does, it does at commit. -/
def stepMark (s : State) (k : Nat) (_ : Thread) (f : Frame) (o : Op) : State := stepOk s k f o

/-- HEND (R352): the thread ends at commit. -/
def execHend (f : LsF) (s : State) : Host.Outcome State Fault Refusal :=
  fireStep s (.hend f) f.p false false false (some f.lsid.toNat) [] stepMark

/-! ### Commit -/

/-- A disabled port discards what it holds and answers its waiting requests 3 (R330). -/
def disablePort (s : State) (clu p : Nat) : State :=
  let c := s.clu clu
  let n := (heldBy c p).length
  let s := (c.port p).waiting.foldl (fun s n =>
    match s.msg n with
    | some m => sendStatus s n m 3
    | none => s) s
  let s := s.modPort clu p fun q => { q with res := [], waiting := [] }.drop n
  s.modClu clu fun c => { c with kennel := c.kennel.keep fun e => e.2.1 != p }

/-- PORTCFG at commit (R330). -/
def writePort (s : State) (clu p b : Nat) : State :=
  let was := ((s.clu clu).port p).en
  let s := s.modPort clu p fun q => { q with
    klim := field b 26 16
    pol := field b 3 2
    open_ := b.testBit 1
    en := b.testBit 0
    drops := if b.testBit 4 then 0 else q.drops }
  settleAll (if was && !b.testBit 0 then disablePort s clu p else s) clu

/-- A pattern as PATSET installs it (R351). Its round robin over the grids begins anew (log 128). -/
def installed (p : Pat) (o : Op) : Pat :=
  { owner := p.owner, en := true, mask := o.b.word, ctl := o.c.word, target := BitVec.ofNat 80 o.aux, running := 0,
    serial := p.serial + 1, last := 7 }

/-- A PORT instruction at the commit of its block; `sig` is the signature a Send carries (R336). A committed Send is its thread's, by its
serial, and no block's any more. -/
def commitPort (s : State) (k : Nat) (o : Op) (sig : Option Sig) : State :=
  let clu := cluOf k
  let ser := (s.thr k).elim 0 (·.ser)
  let send := fun (_ : Unit) =>
    match (if o.aux = 0 then none else s.msg (o.aux - 1)) with
    | some m => { s.setMsg (o.aux - 1) { m with kind := .deliver, src := .grid (gridOfThr k), par := ser, st := 0, sig := sig, t0 := BitVec.ofNat 64 s.fresh } with
                  fresh := s.fresh + 1 }
    | none => s
  match o.i with
  | .send _ => send ()
  | .sendt _ => send ()
  | .portcfg _ => writePort s clu (o.a.word.toNat % 64) o.b.word.toNat
  | .patset _ => s.modPat clu (o.a.word.toNat % 32) fun p => installed p o
  | .patclr _ => s.modPat clu (o.a.word.toNat % 32) fun p => { p with en := false }
  | _ => s

end Sys2Proof.Machine
end

