-- ==== Sys2Proof/Machine/Threads.lean ====
section
/-! DEFINITION. The THREAD instructions (R404 to R410): spawning (R395 to R401, R405 to R408), width (R167 to R169), packs (R170
to R176), and ending a thread (R410). -/

namespace Sys2Proof.Machine

/-! ### Spawn requests (R399, R400, R405) -/

/-- Fields of a descriptor (R405). -/
def descThid (c : Word) : Nat := field c.toNat 63 32
/-- See `descThid`. -/
def descClu (c : Word) : Nat := field c.toNat 31 16
/-- See `descThid`. -/
def descPool (c : Word) : Nat := field c.toNat 15 8
/-- See `descThid`. -/
def descWidth (c : Word) : Nat := 2 ^ field c.toNat 7 6
/-- See `descThid`. -/
def descPrio (c : Word) : Nat := field c.toNat 5 4
/-- The grids of POOL, ascending. -/
def poolGrids (c : Word) : List Nat := (List.range 8).filter (descPool c).testBit

/-- The check of a spawn's operands (R406). -/
def spawnCheck (pack : Bool) (a c : Word) : Option Nat :=
  let n := (poolGrids c).length
  let top := if pack then Nat.max (descThid c) (descThid c + n - 1) else descThid c
  if descThid c = 0 || 0x7FFFFFFF < top then some 0x10
  else if field c.toNat 3 0 != 0 || field a.toNat 6 0 != 0 then some 0x11
  else if pack && (descWidth c != 1 || n < 2) || !pack && !poolHolds (descWidth c) (descPool c) then some 0x12
  else none

/-- The threads a request is granted at once, home grid first (R399). -/
def spawnGrant (s : State) (clu : Nat) (pack : Bool) (c : Word) : Option (List Nat) :=
  if pack then (poolGrids c).mapM fun g => freeCtx s (8 * clu + g)
  else (allocate s clu (descWidth c) (descPool c) ((tget (s.clu clu).lastGrant (descPrio c)).getD 7)).map fun k => [k]

/-- The grid of a width-1 grant is where the search of its level starts next (R399). -/
def noteGrant (s : State) (clu : Nat) (pack : Bool) (c : Word) (ks : List Nat) : State :=
  match pack, ks with
  | false, [k] => if descWidth c = 1 then
      s.modClu clu fun u => { u with lastGrant := tset u.lastGrant (descPrio c) (gridOfThr k % 8) } else s
  | _, _ => s

/-- The requests that wait at an allocator, oldest first. -/
def spawnQueue (c : Clu) : List (Nat × Spawn) := c.spawns.filter fun e => e.2.got = []

/-- Whether an instruction is a SPAWN or SPAWNP, and whether it makes a pack. -/
def spawnForm (i : Instr) : Option (SpawnF × Bool) :=
  match i with
  | .spawn f => some (f, false)
  | .spawnp f => some (f, true)
  | _ => none

/-- A request reaches an allocator (R400): it is granted at once, or takes an entry of the queue; none when it is refused. -/
def allotSpawn (s : State) (clu : Nat) (x : Spawn) : Option State :=
  let got := (spawnGrant s clu x.pack x.desc).getD []
  if got = [] && 16 ≤ (spawnQueue (s.clu clu)).length then none
  else
    let s := s.modClu clu fun c => { c with
      spawns := tset c.spawns c.nextSpawn { x with got := got }
      nextSpawn := c.nextSpawn + 1 }
    some (noteGrant s clu x.pack x.desc got)

/-- SPAWN and SPAWNP once their block is the oldest in flight (R400, R406): checked, and the request sent. A cluster of another
package is outside the module: whether its allocator refuses is a free choice (log 17). -/
def stepSpawn (pack : Bool) (s : State) (k : Nat) (t : Thread) (f : Frame) (o : Op) : State :=
  if !t.isOldest f.seq || o.stage != 0 then s
  else
    let c := o.c.word
    match spawnCheck pack o.a.word c with
    | some e => stepFail s k f o 0x0D (efaultOf o.slot e o.lsid)
    | none =>
      let s := fillMap s (cluOf k) t.ctx (descClu c)
      match mapAt s (cluOf k) t.ctx (descClu c) with
      | .error e => stepFail s k f o 0x0E (mapEfault o e (descClu c))
      | .ok (p, clu) =>
        if p != s.mod.pkg then
          stepDone { s with fresh := s.fresh + 1 } k f o
            (.s (BitVec.ofNat 64 (if Config.freeChoice s.fresh % 2 = 0 then 0 else descThid c)))
        else
          let n := s.fresh
          let s := s.send { Msg.mk0 .spawnReq (.acc k f.seq o.slot 0) with
            ctx := t.ctx, gen := (s.ctx t.ctx).gen, node := 9 + clu, pa := 2 ^ 49 }
          s.modFrame k f.seq (·.modOp o.slot fun o => { o with stage := 2, aux := n })

/-- SPAWN_REQUEST (R400): the allocator grants the request, queues it or refuses it; a firing comes first (R399). -/
def execSpawnRequest (n : Nat) (s : State) : Host.Outcome State Fault Refusal :=
  match s.msg n with
  | none => .next s
  | some m =>
    match m.src with
    | .acc k q slot _ =>
      match s.thr k, (s.frame k q).bind fun f => (f.op slot).map fun o => (f, o) with
      | some t, some (f, o) =>
        let clu := m.node - 9
        match spawnForm o.i with
        | none => .next s
        | some (_, pack) =>
          if m.kind != .spawnReq || (arbitrate s clu).isSome then .next s
          else
            let tst := (t.spec.tstat &&& ~~~1#64) ||| (if f.sup then 1#64 else 0#64)
            let x : Spawn :=
              { ctx := t.ctx, gen := m.gen, entry := regDest f o.a.word, arg := o.b.word, desc := o.c.word, pack := pack,
                thr := k, seq := q, slot := slot, parent := { t.spec with tstat := tst }, got := [], firm := false,
                sig := Sig.empty }
            match allotSpawn s clu x with
            | some s => .next (s.setMsg n { m with kind := .spawnAns, sub := descThid o.c.word })
            | none => .next (s.setMsg n { m with kind := .spawnAns, sub := 0 })
      | _, _ => .next (s.delMsg n)
    | _ => .next s

/-- SPAWN_ANSWER (R400): the answer is the instruction's result. -/
def execSpawnAnswer (n : Nat) (s : State) : Host.Outcome State Fault Refusal :=
  match s.msg n with
  | none => .next s
  | some m =>
    if m.kind != .spawnAns then .next s
    else
      match m.src with
      | .acc k q slot _ =>
        match (s.frame k q).bind fun f => (f.op slot).map fun o => (f, o) with
        | some (f, o) => .next (stepDone (s.delMsg n) k f o (.s (BitVec.ofNat 64 m.sub)))
        | none => .next (s.delMsg n)
      | _ => .next s

/-- The first entry of the levels 3 down to 0 whose oldest request can be granted (R400, R401). -/
def queueGrant (s : State) (clu : Nat) : Option (Nat × Spawn × List Nat) :=
  [3, 2, 1, 0].findSome? fun p =>
    match (spawnQueue (s.clu clu)).find? fun e => descPrio e.2.desc == p with
    | none => none
    | some (i, x) =>
      if !runningOn s x.ctx clu then none
      else (spawnGrant s clu x.pack x.desc).map fun ks => (i, x, ks)

/-- SPAWN_QUEUE_GRANT (R400): in a cycle without a firing, one queued request is granted. -/
def execSpawnQueueGrant (clu : Nat) (s : State) : Host.Outcome State Fault Refusal :=
  if (arbitrate s clu).isSome then .next s
  else
    match queueGrant s clu with
    | none => .next s
    | some (i, x, ks) =>
      .next (noteGrant (s.modClu clu fun c => { c with spawns := tset c.spawns i { x with got := ks } }) clu x.pack x.desc ks)

/-! ### New threads (R395, R396, R407, R408) -/

/-- The special registers of a spawned thread (R396): `ftab` and `ftlen` are the parent's, where R236 says that they hold zero at
creation (log 123). -/
def childSpec (p : Spec) (thid : Word) : Spec :=
  { Spec.reset with
    fcr := p.fcr &&& ~~~0x3F0000#64
    ftab := p.ftab
    ftlen := p.ftlen
    leash := p.leash
    jseed := p.jseed
    thid := thid
    srkey := srkeyOf p.jseed thid
    tstat := p.tstat &&& 1#64 }

/-- A spawned thread (R396): rank `r` of a pack, whose leader is the first of the granted threads. -/
def childThread (x : Spawn) (lead r : Nat) : Thread :=
  let thid := BitVec.ofNat 64 (descThid x.desc + r)
  let pack := if !x.pack then Pack.none else if r = 0 then Pack.leader else Pack.following lead
  let regs := [(4, x.arg), (5, x.parent.thid)] ++ (if x.pack then [(6, BitVec.ofNat 64 r)] else [])
  setRegs { Thread.reset with
    run := true, ctx := x.ctx, gen := x.gen, lclu := descClu x.desc, width := if x.pack then 1 else descWidth x.desc,
    pack := pack, spec := childSpec x.parent thid, pc := x.entry } regs

/-- THREAD_CREATION (R401, R407): a granted and firm request creates its threads; the signature of the spawn is applied in
every grid of a child's core before its first block (R104). -/
def execThreadCreation (clu idx : Nat) (s : State) : Host.Outcome State Fault Refusal :=
  match tget (s.clu clu).spawns idx with
  | none => .next s
  | some x =>
    if x.got = [] || !x.firm || !runningOn s x.ctx clu then .next s
    else
      let lead := x.got.headD 0
      let s := s.modClu clu fun c => { c with spawns := tdel c.spawns idx }
      let s := x.got.zipIdx.foldl (fun s e => born s e.1 (childThread x lead e.2)) s
      .next (x.got.foldl (fun s k => applySig s k 0 0 (coreGrids (gridOfThr k) ((s.thr k).elim 1 (·.width))) x.sig) s)

/-- A committed SPAWN or SPAWNP makes its request firm, with the signature of its release (R401, R407). -/
def commitSpawn (s : State) (k q : Nat) (o : Op) (sig : Option Sig) : State :=
  { s with clus := s.clus.map fun (e : Nat × Clu) => (e.1, { e.2 with
      spawns := e.2.spawns.map fun y =>
        if y.2.thr = k && y.2.seq = q && y.2.slot = o.slot && !y.2.firm then
          (y.1, { y.2 with firm := true, sig := sig.getD Sig.empty })
        else y }) }

/-! ### Width (R167 to R169, R145) -/

/-- The forms of which a block may fire only one (R169, R406). -/
def isShape (i : Instr) : Bool :=
  match i with
  | .compose _ | .decomp _ | .follow _ | .unfollow _ | .rejoin _ => true
  | _ => false

/-- The slots of a block whose width and pack forms fired, ascending; one with a null operand fires too (R196). -/
def Frame.shapes (f : Frame) : List Nat :=
  (List.range 128).filter fun i => f.ops.any fun o => o.slot == i && isShape o.i

/-- Whether a context of the grids of a core other than the thread's own is taken, or a grid is held (R167). -/
def coreTaken (s : State) (k : Nat) (gs : List Nat) : Bool :=
  gs.any fun g =>
    ((List.range 4).any fun i => 4 * g + i != k && ctxTaken s (4 * g + i)) ||
    ((s.grid g).held.any (· != k)) || ((s.grid g).leaving.any fun e => (s.thr e.1).all (·.ser != e.2) || e.1 != k) ||
    (s.clu (cluOfGrid g)).spawns.any fun x => !x.2.pack && x.2.got.any fun h =>
      (coreGrids (gridOfThr h) (descWidth x.2.desc)).contains g

/-- Whether a number is a core width. -/
def isWidth (n : Nat) : Bool := n == 1 || n == 2 || n == 4 || n == 8

/-- The FOLLOWs that have produced 1 and have not committed: the caller and the leader it names (R173). -/
def following (s : State) : List (Nat × Nat) :=
  s.thrs.flatMap fun e => e.2.frames.flatMap fun f => f.ops.filterMap fun o => match o.i with
    | .follow _ => if o.ans == some (.s 1) then some (e.1, o.aux % 2 ^ 16) else none
    | _ => none

/-- COMPOSE's check when its block is the oldest in flight (R167): a thread that a FOLLOW has named counts as a leader (R170). Every
grid of the core is reserved, so that no context of it is granted before the commit (R161). -/
def stepCompose (s : State) (k : Nat) (t : Thread) (f : Frame) (o : Op) : State :=
  let w := o.a.word.toNat
  let gs := coreGrids (gridOfThr k) w
  if !t.isOldest f.seq then s
  else if !isWidth w then stepDone s k f o (.s 0)
  else if w ≤ t.width || t.pack != .none || (following s).any (·.2 == k) || coreTaken s k gs then stepDone s k f o (.s (BitVec.ofNat 64 t.width))
  else
    stepDone (gs.foldl (fun s g => s.modGrid g fun x => { x with held := some k }) s) k f o (.s o.a.word)

/-- DECOMP's check (R168). -/
def stepDecomp (s : State) (k : Nat) (t : Thread) (f : Frame) (o : Op) : State :=
  let w := o.a.word.toNat
  if !t.isOldest f.seq then s
  else if !isWidth w then stepDone s k f o (.s 0)
  else stepDone s k f o (.s (if t.width ≤ w then BitVec.ofNat 64 t.width else o.a.word))

/-- Invalidate the clean `.wt` and `.si` lines of a grid's L1 (R106, R145). -/
def dropClean (s : State) (g : Nat) : State :=
  s.modGrid g fun x => { x with l1 := x.l1.filter fun l => l.cls == 1 || l.dirty != 0#4 }

/-- A committed COMPOSE or DECOMP changes the width (R167, R168): the grids added are the core's, the grids removed leave. The leash
counts from here on in the `cyc` of the new core's grid 0 (R181). -/
def commitWidth (s : State) (k : Nat) (o : Op) : State :=
  match s.thr k with
  | none => s
  | some t =>
    let w := (o.ans.getD .null).word.toNat
    if w = 0 || w = t.width then s
    else
      let old := coreGrids (gridOfThr k) t.width
      let new := coreGrids (gridOfThr k) w
      let s := new.foldl (fun s g => s.modGrid g fun x => { x with held := none, leaving := none }) s
      let s := (new.filter (!old.contains ·)).foldl dropClean s
      let s := (old.filter (!new.contains ·)).foldl (fun s g => s.modGrid g fun x => { x with leaving := some (k, t.ser) }) s
      let s := s.modThr k fun t => { t with width := w }
      s.modThr k fun t => { t with leash0 := s.cycThr k }

/-- Whether a grid has write-backs or write-through stores that are not acknowledged (R99 steps 1 and 2). -/
def gridDrains (s : State) (g : Nat) : Bool :=
  (s.grid g).wtq != [] || s.net.any fun e => e.2.src == .grid g && (e.2.kind == .siWb || (e.2.kind == .ack && e.2.wr))

/-- A grid removed from the core of the thread with serial `ser` drains once no block uses it, hands its pending signature to grid 0 of
the core, and is free (R145, R168); after the thread's end, to its home grid. -/
def returnGrid (s : State) (k ser g : Nat) : State :=
  let w := ((s.thr k).filter (·.ser == ser)).elim 1 (·.width)
  if (s.thr k).any fun t => t.frames.any fun f => (coreGrids (gridOfThr k) f.width).contains g then s
  else if (s.grid g).l1.any fun l => l.dirty != 0#4 && !l.excl then flushGrid s g
  else if gridDrains s g then s
  else
    let x := (s.grid g).pend
    let s := s.modGrid g fun y => { y with pend := Sig.empty, leaving := none }
    s.modGrid (coreGrid0 (gridOfThr k) w) fun y => { y with pend := y.pend.or x }

/-- GRID_RETURN (R145, R168): the grids that the cores of a thread number have given up. -/
def execGridReturn (thr : Nat) (s : State) : Host.Outcome State Fault Refusal :=
  .next (((List.range 8).map (8 * cluOf thr + ·)).foldl (fun s g =>
    match (s.grid g).leaving with
    | some e => if e.1 = thr then returnGrid s thr e.2 g else s
    | none => s) s)

/-! ### Packs (R170 to R176) -/

/-- The thread that FOLLOW names: of its context on its cluster, on the lowest grid and context (R173, R395). -/
def findLeader (s : State) (k : Nat) (t : Thread) (thid : Word) : Option (Nat × Thread) :=
  s.thrs.find? fun e => cluOf e.1 == cluOf k && e.2.ctx == t.ctx && e.2.spec.thid == thid

/-- Whether a thread is a member of a pack. -/
def Pack.member : Pack → Bool
  | .none => false
  | .leader => false
  | _ => true

/-- Whether FOLLOW is granted (R170, R173); one that has produced 1 counts as if it had committed. -/
def canFollow (s : State) (k : Nat) (t : Thread) (thid : Word) : Option (Nat × Thread) :=
  match findLeader s k t thid with
  | none => none
  | some (l, u) =>
    let due := following s
    let onGrid := (l :: (members s l).map (·.1) ++ (due.filter (·.2 == l)).map (·.1)).any fun j => gridOfThr j == gridOfThr k
    let wide := u.width != 1 || (List.range 8).any fun i => (s.grid (8 * cluOf l + i)).held == some l
    if u.pack.member || due.any (fun d => d.1 == l || d.2 == k) || onGrid || wide || t.width != 1 || t.pack != .none then none
    else some (l, u)

/-- FOLLOW when its block is the oldest in flight (R173): `aux` keeps the leader it named. -/
def stepFollow (s : State) (k : Nat) (t : Thread) (f : Frame) (o : Op) : State :=
  if !t.isOldest f.seq then s
  else
    match canFollow s k t o.a.word with
    | none => stepDone s k f o (.s 0)
    | some (l, u) => (stepDone s k f o (.s 1)).modFrame k f.seq (·.modOp o.slot fun o => { o with aux := l + 2 ^ 16 * u.ser })

/-- A committed FOLLOW with result 1: the caller is a member in state Waiting at its next-block address, its younger blocks
discarded (R173). With its leader gone, it is in no pack (R176). -/
def commitFollow (s : State) (k : Nat) (o : Op) : State :=
  let l := o.aux % 2 ^ 16
  match o.ans == some (.s 1), s.thr l with
  | true, some u =>
    if u.ser != o.aux / 2 ^ 16 || u.pack.member then s
    else (dropBlocks (s.modThr l fun u => { u with pack := .leader }) k fun _ => true).modThr k fun t => { t with pack := .waiting l }
  | _, _ => s

/-- UNFOLLOW at commit (R175). -/
def commitUnfollow (s : State) (k : Nat) : State :=
  match (s.thr k).map (·.pack) with
  | some Pack.leader => (dissolve s k).modThr k fun t => { t with pack := .none }
  | some Pack.none => s
  | _ => goAlone s k .none

/-- REJOIN fires: a leader discards its younger blocks (R174). -/
def stepRejoin (s : State) (k : Nat) (t : Thread) (f : Frame) (o : Op) : State :=
  let s := stepOk s k f o
  if t.pack = .leader then dropYounger s k f.seq else s

/-- REJOIN at commit, its block gone (R174): the limit is at most `leash`. -/
def commitRejoin (s : State) (k : Nat) (o : Op) : State :=
  match s.thr k with
  | none => s
  | some t =>
    match t.pack with
    | .leader => s.modThr k fun t => { t with
        rejoin := some (Nat.min (o.a.word.toNat % 2 ^ 32) (leashOf t), s.cycThr k) }
    | .stray l => (dropBlocks s k fun _ => true).modThr k fun t => { t with pack := .waiting l }
    | _ => s

/-- REJOIN_RESOLVE (R174): every Stray member is Waiting, or the limit has passed. -/
def execRejoinResolve (thr : Nat) (s : State) : Host.Outcome State Fault Refusal :=
  match s.thr thr with
  | none => .next s
  | some t =>
    match t.rejoin with
    | none => .next s
    | some (l, t0) =>
      let ms := members s thr
      if (ms.any fun e => e.2.pack == .stray thr) && (s.cycThr thr - t0).toNat < l then .next s
      else
        let s := ms.foldl (fun s e => s.modThr e.1 fun m =>
          if m.pack != .waiting thr then m
          else if m.pc = t.pc then { m with pack := .following thr, pos := t.pos }
          else { m with pack := .stray thr }) s
        .next (s.modThr thr fun t => { t with rejoin := none })

/-! ### The instructions -/

/-- SPAWN (R407): its request becomes firm at commit. -/
def execSpawn (f : SpawnF) (s : State) : Host.Outcome State Fault Refusal :=
  fireStep s (.spawn f) 0#2 true true true (some f.lsid.toNat) [f.t0, f.t1] (stepSpawn false)

/-- SPAWNP (R408): its request becomes firm at commit. -/
def execSpawnp (f : SpawnF) (s : State) : Host.Outcome State Fault Refusal :=
  fireStep s (.spawnp f) 0#2 true true true (some f.lsid.toNat) [f.t0, f.t1] (stepSpawn true)

/-- COMPOSE (R167, R409): the width changes at commit. -/
def execCompose (f : GF) (s : State) : Host.Outcome State Fault Refusal :=
  fireStep s (.compose f) f.p true false false none [f.t0, f.t1] stepCompose

/-- DECOMP (R168, R409): the width changes at commit. -/
def execDecomp (f : GF) (s : State) : Host.Outcome State Fault Refusal :=
  fireStep s (.decomp f) f.p true false false none [f.t0, f.t1] stepDecomp

/-- FOLLOW (R173, R409): the thread joins at commit. -/
def execFollow (f : GF) (s : State) : Host.Outcome State Fault Refusal :=
  fireStep s (.follow f) f.p true false false none [f.t0, f.t1] stepFollow

/-- UNFOLLOW (R175, R409): the thread leaves at commit. -/
def execUnfollow (f : PF) (s : State) : Host.Outcome State Fault Refusal :=
  fireStep s (.unfollow f) f.p false false false none [] stepMark

/-- REJOIN (R174, R409). -/
def execRejoin (f : PF) (s : State) : Host.Outcome State Fault Refusal :=
  fireStep s (.rejoin f) f.p true false false none [] stepRejoin

/-- TEND (R410): the thread ends at commit. -/
def execTend (f : LsF) (s : State) : Host.Outcome State Fault Refusal :=
  fireStep s (.tend f) f.p false false false (some f.lsid.toNat) [] stepMark

end Sys2Proof.Machine
end

