-- ==== Sys2Proof/Machine/Fabric.lean ====
section
/-! DEFINITION. The lookup-cell fabric (chapter 15): wires and cells (R354 to R358), the LCELL instructions (R360 to R372), the
order of commands (R363, R364), what each command does (R365 to R370), and completion with its message (R373, R374), which the
copy engine shares. -/

namespace Sys2Proof.Machine

/-! ### An engine's post (R87, R333, R373, R392) -/

/-- An engine asks for room for a message; the request's number is among the command's messages. -/
def engPost (s : State) (clu unit place ctx dst port : Nat) (m : PMsg) (e : Eng) : State × Eng :=
  (askPort s (.eng clu unit place) ctx dst port m 0, { e with out := e.out ++ [s.fresh] })

/-- The posts of a command whose status has come are on their way (R333); the others are still asked for. -/
def engPosted (s : State) (e : Eng) : State × Eng :=
  e.out.foldl (fun x n =>
    match x.1.msg n with
    | none => (x.1, { x.2 with out := x.2.out.filter (· != n) })
    | some m =>
      if m.kind = .grantStatus && m.st = 1 then
        ({ x.1 with fresh := x.1.fresh + 1 }.setMsg n { m with kind := .deliver, st := 0, t0 := BitVec.ofNat 64 x.1.fresh },
          { x.2 with out := x.2.out.filter (· != n) })
      else x) (s, e)

/-- A tagged message. -/
def taggedMsg (words : List Word) (tag sender : Nat) : PMsg := ⟨words, tag % 65536, true, sender, 0⟩

/-! ### Wires and slots (R354, R355) -/

/-- A wire of a bank: 0 P, 1 C. A wire that nothing has written holds an undefined value (R354). -/
def Fabric.wire (x : Fabric) (bank w : Nat) : BitVec 256 :=
  (tget (if bank = 0 then x.p else x.c) w).getD (BitVec.ofNat 256 (Config.freeBits x.epoch (16384 * bank + w)))

/-- Set wires of a bank. -/
def Fabric.setWires (x : Fabric) (bank : Nat) (ws : List (Nat × BitVec 256)) : Fabric :=
  if bank = 0 then { x with p := ws.foldl (fun t w => tset t w.1 w.2) x.p }
  else { x with c := ws.foldl (fun t w => tset t w.1 w.2) x.c }

/-- A context slot (R355). NC of one that was never loaded since the fabric was allotted is undefined (log 9). -/
def Fabric.slot (x : Fabric) (i : Nat) : FSlot :=
  (tget x.slots i).getD ⟨Config.freeBits x.epoch (131072 + i) % 16384, false, []⟩

/-- The record of cell `i` of a slot; one that was never loaded is undefined. -/
def Fabric.cell (x : Fabric) (slot i : Nat) : Nat :=
  ((x.slot slot).cells[i]?).getD (Config.freeBits x.epoch (65536 + 8192 * slot + i))

/-- The output of a cell for the 256 samples (R355, R357, R365). -/
def cellOut (x : Fabric) (rec : Nat) : BitVec 256 :=
  let ins := (List.range 6).map fun j =>
    let sel := field rec (77 + 14 * j) (64 + 14 * j)
    x.wire (sel / 8192) (sel % 8192)
  BitVec.ofNat 256 (((List.range 256).map fun s =>
    let i := (ins.zipIdx.map fun w => if w.1.getLsbD s then 2 ^ w.2 else 0).foldl (· + ·) 0
    if rec.testBit i then 2 ^ s else 0).foldl (· + ·) 0)

/-- One layer of the selected context (R358). -/
def Fabric.layer (x : Fabric) : Fabric :=
  let nc := (x.slot x.sel).nc
  { x with
    p := (List.range 8192).map fun i => (i, if i < nc then cellOut x (x.cell x.sel i) else 0#256)
    n := x.p
    layers := (x.layers + 1) % 65536 }

/-! ### Order (R364) -/

/-- The unit of a command, as R402 numbers the requesters: 2 evaluator, 3 loader, 4 transposer. -/
def fabUnit (i : Instr) : Nat :=
  match i with
  | .lcload _ => 3
  | .lcin _ | .lcout _ => 4
  | _ => 2

/-- The selection a command finds: that of the last unfinished LCSEL before it, else the fabric's. -/
def selFor (x : Fabric) (j : FCmd) : Nat :=
  (((x.q.filter fun y => y.place < j.place).filterMap fun y => match y.i with
    | .lcsel f => some f.ctx.toNat
    | _ => none).getLast?).getD x.sel

/-- What a command reads and writes: slots 0 to 5, 7 the selection (none is 7 as a slot and never loaded), 8 P, 9 N, 10 C. -/
def fabUses (x : Fabric) (j : FCmd) : List Nat × List Nat :=
  match j.i with
  | .lcload f => ([], [f.ctx.toNat])
  | .lcsel _ => ([], [7])
  | .lcin f => ([], [if f.bank = 0#1 then 8 else 10])
  | .lcrun _ => (let s := selFor x j; (if s < 6 then [s] else []) ++ [7, 8, 10], [8, 9])
  | .lcout f => ([if f.bank = 0#1 then 8 else 10], [])
  | _ => ([], [])

/-- Whether a command waits for an earlier unfinished one (R364). -/
def fabHeld (x : Fabric) (j : FCmd) : Bool :=
  let (rd, wr) := fabUses x j
  x.q.any fun y => y.place < j.place &&
    (let (rd', wr') := fabUses x y
     rd.any wr'.contains || wr.any rd'.contains || wr.any wr'.contains)

/-- The command a unit runs. -/
def fabRunning (x : Fabric) (unit : Nat) : Option FCmd :=
  x.q.find? fun j => fabUnit j.i == unit && j.eng.st != 0 && j.eng.st != 9

/-- The command that a unit could start now, tokens aside (R364, R365); one whose issue still drains has `st` 9 (R136). -/
def fabNext (c : Clu) (unit : Nat) : Option FCmd :=
  if (fabRunning c.fab unit).isSome then none
  else
    match c.fab.q.find? fun j => fabUnit j.i == unit with
    | none => none
    | some j => if j.eng.st = 9 || fabHeld c.fab j || (unit = 3 && 4 ≤ c.streams.length) then none else some j

/-- Update a command. -/
def State.modFab (s : State) (clu place : Nat) (g : FCmd → FCmd) : State :=
  s.modClu clu fun c =>
    { c with fab := { c.fab with q := c.fab.q.map fun j => if j.place = place then g j else j } }

/-- A command starts (R364): a load clears LOADED of its slot; an LCRUN finds whether there is a context to evaluate. -/
def fabStart (s : State) (clu : Nat) (j : FCmd) : State :=
  let x := (s.clu clu).fab
  let none_ := x.sel = 7 || !(x.slot x.sel).loaded
  let s := match j.i with
    | .lcload f => s.modClu clu fun c =>
      { c with fab := { c.fab with slots := tset c.fab.slots f.ctx.toNat { c.fab.slot f.ctx.toNat with loaded := false } } }
    | _ => s
  s.modFab clu j.place fun j => { j with
    eng := { j.eng with st := 1 }
    layers := match j.i with
      | .lcrun f => if none_ then 0 else f.repm1.toNat + 1
      | _ => 0
    nctx := match j.i with
      | .lcrun _ => none_
      | _ => false }

/-- Whether the running LCRUN has a layer to evaluate, and whether that layer is the one its start has paid for (R367). -/
def layerDue (c : Clu) : Option (FCmd × Bool) :=
  (fabRunning c.fab 2).bind fun j =>
    match j.i with
    | .lcrun f => if j.layers = 0 then none else some (j, j.layers = f.repm1.toNat + 1)
    | _ => none

/-- The running LCRUN evaluates one layer. -/
def runLayer (s : State) (clu : Nat) (j : FCmd) : State :=
  (s.modClu clu fun c => { c with fab := c.fab.layer }).modFab clu j.place fun j => { j with layers := j.layers - 1 }

/-! ### The instructions as they fire (R362, R371, R372) -/

/-- The check of a command's operands (R362). Of one command that fails several, the owner comes first, then the operand, then the ninth
command; R362 orders commands only (log 128). -/
def lcellCheck (s : State) (k : Nat) (t : Thread) (f : Frame) (o : Op) : Option Nat :=
  let b := o.b.word.toNat
  let res := fun (l : List (Nat × Nat)) => l.any fun x => field b x.1 x.2 != 0
  if (s.clu (cluOf k)).fab.owner != t.ctx then some 0x60
  else
    match (match o.i with
      | .lcload _ => if field b 13 0 = 0 || 8192 < field b 13 0 || field b 63 14 != 0 then some 0x61 else none
      | .lcin g =>
        let m := if g.thr = 1#1 then field b 47 40 + 1 else g.plm1.toNat + 1
        if res [(15, 13), (31, 29), (63, 48)] || (g.thr = 0#1 && field b 47 40 != 0) ||
            8192 < field b 12 0 + (field b 28 16 + 1) * m then some 0x62 else none
      | .lcout _ =>
        if res [(15, 13), (31, 29), (47, 45), (63, 56)] ||
            8192 < field b 12 0 + (field b 44 32 + 1) * (field b 28 16 + 1) then some 0x63 else none
      | _ => none) with
    | some c => some c
    | none => if 8 ≤ issuedBelow f (o.lsid.getD 0) isLcell then some 0x64 else none

/-- An LCELL command once its block is the oldest in flight: checked, producing its id (R362, R363). -/
def stepLcell (s : State) (k : Nat) (t : Thread) (f : Frame) (o : Op) : State :=
  if !t.isOldest f.seq || !f.turn o then s
  else
    match lcellCheck s k t f o with
    | some c => stepFail s k f o 0x0B (efaultOf o.slot c o.lsid)
    | none => reserveAll (stepDone s k f o (.s (BitVec.ofNat 64 (cmdId t.cnts.2.1 f (o.lsid.getD 0) isLcell)))) (cluOf k)

/-- The fabric state that LCSTAT reads (R372). -/
def fabState (x : Fabric) (ctx : Nat) : Nat :=
  2 ^ 48 * x.owner +
    (if x.owner = ctx then
      2 ^ 32 * x.layers + 2 ^ 16 * (if x.sel = 7 then 0 else (x.slot x.sel).nc) + 2 ^ 13 * x.sel + 256 * x.q.length +
        ((List.range 6).map fun i => if (x.slot i).loaded then 2 ^ i else 0).foldl (· + ·) 0
    else 0)

/-- LCSTAT when its block is the oldest in flight. -/
def stepLcstat (s : State) (k : Nat) (t : Thread) (f : Frame) (o : Op) : State :=
  if !t.isOldest f.seq then s
  else stepDone s k f o (.s (BitVec.ofNat 64 (fabState (s.clu (cluOf k)).fab t.ctx)))

/-- LCLOAD (R365): issued at commit. -/
def execLcload (f : LcloadF) (s : State) : Host.Outcome State Fault Refusal :=
  fireStep s (.lcload f) f.p true true false (some f.lsid.toNat) [f.t0, f.t1] stepLcell

/-- LCSEL (R366): issued at commit. -/
def execLcsel (f : LcselF) (s : State) : Host.Outcome State Fault Refusal :=
  fireStep s (.lcsel f) f.p false false false (some f.lsid.toNat) [f.t0, f.t1] stepLcell

/-- LCIN (R368): issued at commit. -/
def execLcin (f : LcinF) (s : State) : Host.Outcome State Fault Refusal :=
  fireStep s (.lcin f) 0#2 true true true (some f.lsid.toNat) [f.t0, f.t1] stepLcell

/-- LCRUN (R367): issued at commit. -/
def execLcrun (f : LcrunF) (s : State) : Host.Outcome State Fault Refusal :=
  fireStep s (.lcrun f) f.p false false false (some f.lsid.toNat) [f.t0, f.t1] stepLcell

/-- LCOUT (R370): issued at commit. -/
def execLcout (f : LcoutF) (s : State) : Host.Outcome State Fault Refusal :=
  fireStep s (.lcout f) f.p true true false (some f.lsid.toNat) [f.t0, f.t1] stepLcell

/-- LCWAIT (R371). -/
def execLcwait (f : RsF) (s : State) : Host.Outcome State Fault Refusal :=
  fireStep s (.lcwait f) f.p true false false (some f.lsid.toNat) [f.t0, f.t1] (stepWait 2 true)

/-- LCSTAT (R372). -/
def execLcstat (f : GF) (s : State) : Host.Outcome State Fault Refusal :=
  fireStep s (.lcstat f) f.p false false false none [f.t0, f.t1] stepLcstat

/-- An LCELL command at the commit of its block (R363); one that reads or writes memory waits for the drain of its issue (R136). -/
def commitFabric (s : State) (k : Nat) (t : Thread) (f : Frame) (o : Op) : State :=
  let clu := cluOf k
  let id := ((o.ans.getD .null).word).toNat
  let j : FCmd := { i := o.i, cap := captureOf s k t f o id, place := (s.clu clu).place, a := o.a.word, b := o.b.word,
                    c := o.c.word, layers := 0, nctx := false, nv := false,
                    eng := { Eng.mk0 with st := if isIssue o.i then 9 else 0 } }
  let s := s.modClu clu fun c => { c with
    fab := { c.fab with q := c.fab.q ++ [j] }
    place := c.place + 1 }
  s.modThr k fun t => { t with
    cnts := (t.cnts.1, (t.cnts.2.1 + 1) % 256, t.cnts.2.2)
    status := tdel t.status (512 + id) }

/-! ### What the commands do -/

/-- Bytes `off` to `off + n` of what a command has read; poisoned bytes read as zero (R374). -/
def Eng.bytes (e : Eng) (off n : Nat) : List Byte :=
  (List.range n).map fun i =>
    match e.segs.find? fun d => d.off ≤ off + i && off + i < d.off + d.len with
    | some d => if d.poison.getLsbD ((d.pa + (off + i - d.off)) / 16 % 4) then 0 else d.data.getD (off + i - d.off) 0
    | none => 0

/-- The shape of an LCIN (R368): samples, features, wires for each feature, element bytes. -/
def lcinShape (f : LcinF) (b : Word) : Nat × Nat × Nat × Nat :=
  (field b.toNat 39 32 + 1, field b.toNat 28 16 + 1,
    if f.thr = 1#1 then field b.toNat 47 40 + 1 else f.plm1.toNat + 1, elemBits f.ty.toNat / 8)

/-- The ranges a fabric command reads or writes, in the order of its rows: effective address, place, length. -/
def fabRows (j : FCmd) : List (Word × Nat × Nat) :=
  match j.i with
  | .lcload _ => [(j.a, 0, 20 * field j.b.toNat 13 0)]
  | .lcin f =>
    let (ns, nf, m, e) := lcinShape f j.b
    let rs := (bits j.c 0 32).signExtend 64
    ((List.range ns).map fun s => (j.a + BitVec.ofNat 64 s * rs, s * (nf * e), nf * e)) ++
      (if f.thr = 1#1 then [(j.a + (bits j.c 32 32).signExtend 64, ns * (nf * e), nf * m * e)] else [])
  | .lcout _ =>
    let n := (field j.b.toNat 55 48 + 1) * (field j.b.toNat 44 32 + 1)
    (List.range n).map fun i => (j.a + BitVec.ofNat 64 (2 * i), 2 * i, 2)
  | _ => []

/-- The class a command names for its accesses (R360). -/
def fabCls (i : Instr) : Nat :=
  match i with
  | .lcload f => f.cls.toNat
  | .lcin f => f.cls.toNat
  | .lcout f => f.cls.toNat
  | _ => 0

/-- Bytes of one access of a command: a byte of an image, an element, a score. -/
def fabElem (i : Instr) : Nat :=
  match i with
  | .lcin f => elemBits f.ty.toNat / 8
  | .lcout _ => 2
  | _ => 1

/-- A value of an element type for an exact comparison (R368). -/
def cmpVal (ty code : Nat) : XVal := if ty < 8 then ofIntX (tyVal ty code) else decodeF (fmtOf ty) false code

/-- Whether an element reaches a threshold: a NaN never does (R368). -/
def reaches (ty x t : Nat) : Bool :=
  let a := cmpVal ty x
  let b := cmpVal ty t
  !isNanX a && !isNanX b && 0 ≤ cmpX a b

/-- The wires of an LCIN from its bytes, and whether a NaN was met (R368). `ok` is false after a failed or poisoned read. -/
def lcinWires (f : LcinF) (j : FCmd) (e : Eng) (ok : Bool) : List (Nat × BitVec 256) × Bool :=
  let (ns, nf, m, eb) := lcinShape f j.b
  let wb := field j.b.toNat 12 0
  let ty := f.ty.toNat
  let elem := fun (s i : Nat) => leNat (e.bytes (s * (nf * eb) + i * eb) eb)
  let thr := fun (i n : Nat) => leNat (e.bytes (ns * (nf * eb) + (i * m + n) * eb) eb)
  let bit := fun (s i n : Nat) => if f.thr = 1#1 then reaches ty (elem s i) (thr i n) else (elem s i).testBit (7 - n)
  let ws := (List.range nf).flatMap fun i => (List.range m).map fun n =>
    (wb + i * m + n, BitVec.ofNat 256 (if ok then
      ((List.range ns).map fun s => if bit s i n then 2 ^ s else 0).foldl (· + ·) 0 else 0))
  let nan := fun (x : Nat) => isNanX (cmpVal ty x)
  (ws, ok && f.thr = 1#1 && (List.range nf).any fun i =>
    (List.range ns).any (fun s => nan (elem s i)) || (List.range m).any fun n => nan (thr i n))

/-- The score `i` of an LCOUT (R370). -/
def score (x : Fabric) (f : LcoutF) (b : Word) (i : Nat) : Nat :=
  let ng := field b.toNat 44 32 + 1
  let g := field b.toNat 28 16 + 1
  ((List.range g).filter fun w => (x.wire f.bank.toNat (field b.toNat 12 0 + (i % ng) * g + w)).getLsbD (i / ng)).length

/-- The status of a command (R374). -/
def fabStatus (j : FCmd) (e : Eng) : Word :=
  BitVec.ofNat 64 (1 + (if j.nv then 2 else 0) + (if e.xf.isSome then 128 else 0) + (if e.pz then 256 else 0) +
    (if j.nctx then 2048 else 0) + 4096 * e.xf.getD 0 + 65536 * j.cap.id)

/-- The port a command posts to, if it posts (R361, R373). -/
def fabPort (i : Instr) : Option Nat :=
  match i with
  | .lcload f => if f.ntf = 1#1 then some f.port.toNat else none
  | .lcsel f => if f.ntf = 1#1 then some f.port.toNat else none
  | .lcin f => if f.ntf = 1#1 then some f.port.toNat else none
  | .lcrun f => if f.ntf = 1#1 then some f.port.toNat else none
  | .lcout f => if f.ntf = 1#1 then some f.port.toNat else none
  | _ => none

/-- What a command changes in the fabric once its memory side is done (R365 to R368). -/
def fabEffect (s : State) (clu : Nat) (j : FCmd) : State × FCmd :=
  let e := j.eng
  let setFab := fun (g : Fabric → Fabric) => s.modClu clu fun c => { c with fab := g c.fab }
  match j.i with
  | .lcload f =>
    let ok := e.xf.isNone && !e.pz
    let n := field j.b.toNat 13 0
    let i := f.ctx.toNat
    let ep := s.fresh
    let slot : FSlot := if ok then ⟨n, false, (List.range n).map fun c => leNat (e.bytes (20 * c) 20)⟩
      else ⟨Config.freeBits ep i % 16384, false, []⟩
    ({ setFab fun x => { x with slots := tset x.slots i slot } with fresh := ep + 1 }, j)
  | .lcsel f => (setFab fun x => { x with sel := f.ctx.toNat }, j)
  | .lcin f =>
    let r := lcinWires f j e (e.xf.isNone && !e.pz)
    (setFab fun x => x.setWires f.bank.toNat r.1, { j with nv := r.2 })
  | _ => (s, j)

/-- A command leaves the fabric, its status with its thread (R374), and the slot of a load that had no failure is LOADED from here on
(R365); blocks that wait for entries reserve them (R363). -/
def fabDone (s : State) (clu : Nat) (j : FCmd) : State :=
  let s := s.modClu clu fun c => { c with fab := { c.fab with q := c.fab.q.filter (·.place != j.place) } }
  let s := match j.i with
    | .lcload f => if j.eng.xf.isSome || j.eng.pz then s else s.modClu clu fun c => { c with
        fab := { c.fab with slots := tset c.fab.slots f.ctx.toNat { c.fab.slot f.ctx.toNat with loaded := true } } }
    | _ => s
  reserveAll (setStatus s j.cap 2 (fabStatus j j.eng)) clu

/-- Whether an earlier LCOUT of the fabric has not yet landed its writes: a completion, which releases them, waits (R87, R138). -/
def fabBehind (x : Fabric) (j : FCmd) : Bool :=
  x.q.any fun y => y.place < j.place && y.eng.st != 5 && y.eng.st != 6 && match y.i with
    | .lcout _ => true
    | _ => false

/-- Steps 3 and 4 of R87 for a command whose writes have landed. -/
def fabFinish (s : State) (clu : Nat) (j : FCmd) : State :=
  let r := fabEffect s clu j
  let s := engFinish r.1 clu 2 j.place j.eng
  let j := r.2
  match fabPort j.i with
  | none => fabDone s clu j
  | some p =>
    let a := match j.i with
      | .lcout _ => j.a
      | _ => 0#64
    let m := taggedMsg [fabStatus j j.eng, a] j.cap.id (0xC00 + j.cap.lclu % 512)
    let x := engPost s clu 2 j.place j.cap.ctx clu p m j.eng
    x.1.modFab clu j.place fun _ => { j with eng := { x.2 with st := 6 } }

/-- One step of a command's progress: 1 translating or evaluating, 2 taking ownership, 3 reading, 4 writing, 5 to finish, 6
posting. -/
def fabStep (s : State) (clu : Nat) (j : FCmd) : State :=
  let put := fun (x : State × Eng) (st : Nat) => x.1.modFab clu j.place fun j => { j with eng := { x.2 with st := st } }
  let (ctx, gen) := (j.cap.ctx, j.cap.gen)
  let dst := match j.i with
    | .lcout _ => true
    | _ => false
  let reads := fun (s : State) (e : Eng) => engReadBy (fabUnit j.i == 3) s clu 2 j.place ctx gen e fun _ => true
  if j.eng.st = 6 then
    let x := engPosted s j.eng
    if x.2.out = [] && !statusWaits s j.cap then fabDone x.1 clu j else put x 6
  else if j.eng.st = 5 then (if fabBehind (s.clu clu).fab j || statusWaits s j.cap then s else fabFinish s clu j)
  else if j.eng.st = 1 then
    if j.layers != 0 then s
    else if fabRows j = [] then put (s, j.eng) 5
    else
      let (asks, segs, xf) := engRows ((fabRows j).map fun r => engRun s (engAcc j.cap j.eng clu dst (fabCls j.i)) r.2.1 r.1 r.2.2 (fabElem j.i))
      if asks != [] then put (engAsk s clu ctx j.eng asks) 1
      else
        let e := { j.eng with segs := segs, xf := xf, asked := [], nope := [] }
        if dst then put (engOwn s clu 2 j.place ctx gen e) 2
        else if xf.isSome then put (s, { e with segs := [] }) 5
        else put (reads s e) 3
  else
    let x := engCollect s j.eng
    if x.2.out != [] then put x j.eng.st
    else if j.eng.st = 2 then
      match j.i with
      | .lcout f =>
        let fab := (s.clu clu).fab
        let fill := fun (d : Seg) =>
          { d with data := ((List.range d.len).map fun y => (leBytes 2 (score fab f j.b ((d.off + y) / 2))).getD ((d.off + y) % 2) 0) }
        put (engWrite x.1 clu 2 j.place ctx gen { x.2 with segs := x.2.segs.map fill } fun _ => true) 4
      | _ => put x 5
    else if j.eng.st = 3 && x.2.segs.any (fun d => d.st == 0) then put (reads x.1 x.2) 3
    else put x 5

/-- FABRIC_COMMAND_COMPLETE (R364, R373): the command a unit runs goes on, and completes. -/
def execFabricCommandComplete (clu unit : Nat) (s : State) : Host.Outcome State Fault Refusal :=
  match fabRunning (s.clu clu).fab unit with
  | none => .next s
  | some j => .next (fabStep s clu j)

end Sys2Proof.Machine
end

