-- ==== Sys2Proof/Machine/Copy.lean ====
section
/-! DEFINITION. The copy engine (chapters 3 and 16): the COPY instructions and their checks (R377 to R379, R384 to R387, R391,
R392), CPY (R381 to R384), streams (R74 to R82, R385 to R390), completion (R87, R380). -/

namespace Sys2Proof.Machine

/-- Word `j` of a 512-bit descriptor. -/
def descWord (x : Tok) (j : Nat) : Nat := (bits x.vec (64 * j) 64).toNat

/-! ### CPY's descriptor (R381, R382) -/

/-- Element counts N0 to N3. -/
def cpyCount (c : Tok) (d : Nat) : Nat := field (descWord c (d / 2)) (32 * (d % 2) + 31) (32 * (d % 2))
/-- Source stride of dimension `d`, 1 to 3. -/
def cpySs (c : Tok) (d : Nat) : Word := BitVec.ofNat 64 (descWord c (1 + d))
/-- Destination stride of dimension `d`, 1 to 3. -/
def cpyDs (c : Tok) (d : Nat) : Word := BitVec.ofNat 64 (descWord c (4 + d))

/-- Bytes of a source and of a destination element (R382). -/
def cpyEs (f : CpyF) : Nat × Nat :=
  if f.cv = 1#1 then (elemBits f.stype.toNat / 8, elemBits f.dtype.toNat / 8) else (1, 1)

/-- Whether a CPY posts to the port window (R384). -/
def toWindow (b : Word) : Bool := field b.toNat 63 56 = 0xF2

/-- The runs of dimension 0, in element order: first element, source address, destination address. -/
def cpyRuns (a b : Word) (c : Tok) : List (Nat × Word × Word) :=
  let n := cpyCount c
  (List.range (n 1 * n 2 * n 3)).map fun r =>
    let i1 := BitVec.ofNat 64 (r % n 1)
    let i2 := BitVec.ofNat 64 (r / n 1 % n 2)
    let i3 := BitVec.ofNat 64 (r / (n 1 * n 2))
    (n 0 * r, a + i1 * cpySs c 1 + i2 * cpySs c 2 + i3 * cpySs c 3, b + i1 * cpyDs c 1 + i2 * cpyDs c 2 + i3 * cpyDs c 3)

/-! ### CPYS's descriptors (R386, R387) -/

/-- Slot size Z. -/
def cpysZ (b : Tok) : Nat := 2 ^ (field (descWord b 0) 2 0 + 9)
/-- Rows of a tile. -/
def cpysTr (b : Tok) : Nat := 2 ^ field (descWord b 0) 10 8
/-- Tiles of dimension 0 and 1. -/
def cpysNt (b : Tok) : Nat × Nat := (field (descWord b 4) 31 0, field (descWord b 4) 63 32)

/-- The tiling descriptor is valid (R386). -/
def tilingOk (b : Tok) : Bool :=
  let w := descWord b
  let n := cpysNt b
  field (w 0) 7 3 = 0 && field (w 0) 63 11 = 0 && 1 ≤ n.1 && n.1 ≤ 2 ^ 24 && 1 ≤ n.2 && n.2 ≤ 2 ^ 24 &&
    field (w 5) 63 16 = 0 && w 6 = 0 && w 7 = 0

/-- The record of branch `j` (R387). -/
def branchRec (c : Tok) (j : Nat) : Nat := (bits c.vec (128 * j) 128).toNat
/-- The branches that exist. -/
def branchesOf (c : Tok) : List (Nat × Nat) :=
  ((List.range 4).map fun j => (j, branchRec c j)).filter fun x => x.2.testBit 0
/-- S of a branch. -/
def brS (r : Nat) : Nat := field r 10 5 + 1
/-- The number of vaults of a branch. -/
def brNv (r : Nat) : Nat := 2 ^ field r 12 11
/-- The logical clusters of a branch's vaults. -/
def brVaults (r : Nat) : List Nat := (List.range (brNv r)).map fun k => field r (51 + 16 * k) (36 + 16 * k)
/-- The consumer's logical cluster, its entry, and the ring's offset. -/
def brClu (r : Nat) : Nat := field r 35 20
/-- See `brClu`. -/
def brEnt (r : Nat) : Nat := field r 4 1
/-- See `brClu`. -/
def brBase (r : Nat) : Nat := field r 122 100
/-- Where a ring's part in a vault ends (R387). -/
def brEnd (z r : Nat) : Nat := brBase r + (brS r + brNv r - 1) / brNv r * z

/-- The branch descriptor is valid, its clusters aside (R387). -/
def branchesOk (z : Nat) (c : Tok) : Bool :=
  let bs := branchesOf c
  bs != [] && bs.map (·.1) == List.range bs.length &&
  (bs.all fun x =>
    let r := x.2
    field r 127 123 = 0 && field r 12 11 != 3 && 2 ≤ brS r && brBase r % z = 0 && brEnd z r ≤ 2 ^ 23 &&
      ((List.range 4).all fun k => k < brNv r || field r (51 + 16 * k) (36 + 16 * k) = 0) &&
      bs.all fun y => x.1 = y.1 || brClu y.2 != brClu r || brEnt y.2 != brEnt r)

/-- The logical clusters a branch descriptor names. -/
def branchClus (c : Tok) : List Nat := (branchesOf c).flatMap fun x => brClu x.2 :: brVaults x.2

/-- The die of a mapped cluster, with its package. -/
def mappedDie (s : State) (clu ctx n : Nat) : Option (Nat × Nat) :=
  match mapAt s clu ctx n with
  | .ok (p, c) => some (p, dieOf c)
  | .error _ => none

/-- Whether the vaults of each branch lie on one die, as far as they are mapped (R387). -/
def oneDie (s : State) (clu ctx : Nat) (c : Tok) : Bool :=
  (branchesOf c).all fun b => ((((brVaults b.2).filterMap (mappedDie s clu ctx)).eraseDups).length) ≤ 1

/-! ### The instructions as they fire (R379) -/

/-- The stream-table entry an instruction names, if it is the context's (R379). -/
def entryOf (s : State) (k : Nat) (t : Thread) (o : Op) : Option SEnt :=
  (tget (s.clu (cluOf k)).stab (o.a.word.toNat % 16)).filter fun e => e.ctx == t.ctx

/-- Earlier STFREEs of the same entry in the block. -/
def freedBefore (f : Frame) (o : Op) : Nat :=
  (f.ops.filter fun x => !x.nul && x.lsid.any (· < o.lsid.getD 0) && x.a.word.toNat % 16 == o.a.word.toNat % 16 &&
    match x.i with
    | .stfree _ => true
    | _ => false).length

/-- The checks of R379: the code, if one fails. -/
def copyCheck (s : State) (k : Nat) (t : Thread) (f : Frame) (o : Op) : Option Nat :=
  let ninth := isCopy o.i && 8 ≤ issuedBelow f (o.lsid.getD 0) isCopy
  let entry := fun (_ : Unit) =>
    if 16 ≤ o.a.word.toNat then some 0x70
    else if (entryOf s k t o).isNone then some 0x73 else none
  let r := match o.i with
    | .cpy g =>
      let n := cpyCount o.c
      let b := o.b.word
      if (List.range 4).any fun d => n d = 0 || 2 ^ 24 < n d then some 0x70
      else if toWindow b && (g.cv = 1#1 || n 1 != 1 || n 2 != 1 || n 3 != 1 || n 0 % 8 != 0 || 2 ^ 16 < n 0 ||
          field b.toNat 16 0 != 0) then some 0x71 else none
    | .cpys _ =>
      if !tilingOk o.b || !branchesOk (cpysZ o.b) o.c || !oneDie s (cluOf k) t.ctx o.c then some 0x72 else none
    | .stfree _ =>
      match entry () with
      | some c => some c
      | none =>
        match entryOf s k t o with
        | none => some 0x73
        | some e =>
          if e.st != 1 then some 0x73
          else if (e.c + 2 ^ 32 - e.f) % 2 ^ 32 ≤ freedBefore f o then some 0x74 else none
    | _ => entry ()
  r <|> (if ninth then some 0x75 else none)

/-- `efault` of a stream fault (R379). -/
def copyEfault (o : Op) (code : Nat) : Nat :=
  efaultOf o.slot code o.lsid + (if code = 0x73 || code = 0x74 then 2 ^ 21 * (o.a.word.toNat % 16) else 0)

/-- A cluster as a branch or a ring names it: one of another package as 1024 × (its package + 1) + its number. -/
def placeIn (pkg p clu : Nat) : Nat := if p = pkg then clu else 1024 * (p + 1) + clu

/-- The address of slot `i` of a ring (R74). -/
def ringPa (pkg : Nat) (vaults : List Nat) (base z i : Nat) : Nat :=
  let v := vaults.getD (i % vaults.length) 0
  vaultPa (if v < 1024 then pkg else v / 1024 - 1) (v % 1024) (base + i / vaults.length * z)

/-- The vaults of an entry's ring. -/
def entVaults (s : State) (clu : Nat) (e : SEnt) : List Nat :=
  (List.range (2 ^ e.nvl)).filterMap fun k =>
    match mapAt s clu e.ctx (bits e.vc (16 * k) 16).toNat with
    | .ok (p, c) => some (placeIn s.mod.pkg p c)
    | .error _ => none

/-- The slot that an STFREE frees, with `n` STFREEs of the entry before it (R76, R80): its address and size. -/
def freedSlot (s : State) (clu : Nat) (e : SEnt) (n : Nat) : Nat × Nat :=
  let z := 2 ^ (e.zl + 9)
  (ringPa s.mod.pkg (entVaults s clu e) e.base z ((e.f + n) % 2 ^ 32 % (e.sm1 + 1)), z)

/-- The lines of a freed slot enter the block's write signature (R72). -/
def enterSlot (s : State) (k q : Nat) (x : Nat × Nat) : State :=
  (List.range (x.2 / 64)).foldl (fun s i => enter s k q (x.1 + 64 * i) false true) (touch s k q)

/-- CPY, CPYS, STFREE and STCLOSE once their block is the oldest in flight (R379, R380). -/
def stepCopy (s : State) (k : Nat) (t : Thread) (f : Frame) (o : Op) : State :=
  if !t.isOldest f.seq || !f.turn o then s
  else
    match copyCheck s k t f o with
    | some c => stepFail s k f o 0x0C (copyEfault o c)
    | none =>
      match o.i with
      | .stfree _ =>
        match entryOf s k t o with
        | some e => reserveAll (stepOk (enterSlot s k f.seq (freedSlot s (cluOf k) e (freedBefore f o))) k f o) (cluOf k)
        | none => s
      | .stclose _ => reserveAll (stepOk s k f o) (cluOf k)
      | _ =>
        let s := match o.i with
          | .cpys _ => (branchClus o.c).foldl (fun s n => fillMap s (cluOf k) t.ctx n) s
          | _ => s
        let lost := match o.i with
          | .cpys _ => (branchClus o.c).filterMap fun n => match mapAt s (cluOf k) t.ctx n with
            | .error c => some (c, n)
            | .ok _ => none
          | _ => []
        match lost with
        | (c, n) :: _ => stepFail s k f o 0x0E (mapEfault o c n)
        | [] => reserveAll (stepDone s k f o (.s (BitVec.ofNat 64 (cmdId t.cnts.2.2 f (o.lsid.getD 0) isCopy)))) (cluOf k)

/-- The word of an entry that STQ reads (R390). -/
def entWord (e : SEnt) (sel : Nat) : Nat :=
  if sel = 0 then 2 ^ 32 * e.c + e.w
  else if sel = 1 then 2 ^ 32 * e.base + e.f
  else if sel = 2 then
    2 ^ 44 * e.ctx + 2 ^ 40 * e.cause + (if e.pz then 2 ^ 39 else 0) + (if e.xf then 2 ^ 38 else 0) + 2 ^ 22 * e.prod +
      2 ^ 16 * e.port + (if e.ntf then 2 ^ 15 else 0) + 2 ^ 12 * e.zl + 2 ^ 10 * e.nvl + 16 * e.sm1 + 4 * e.br + e.st
  else e.vc.toNat

/-- STQ when its block is the oldest in flight (R391). -/
def stepStq (sel : Nat) (s : State) (k : Nat) (t : Thread) (f : Frame) (o : Op) : State :=
  if !t.isOldest f.seq then s
  else
    match copyCheck s k t f o with
    | some c => stepFail s k f o 0x0C (copyEfault o c)
    | none =>
      match entryOf s k t o with
      | some e => stepDone s k f o (.s (BitVec.ofNat 64 (entWord e sel)))
      | none => s

/-- CPY (R382): issued at commit. -/
def execCpy (f : CpyF) (s : State) : Host.Outcome State Fault Refusal :=
  fireStep s (.cpy f) 0#2 true true true (some f.lsid.toNat) [f.t0, f.t1] stepCopy

/-- CPYS (R385): issued at commit. -/
def execCpys (f : CpysF) (s : State) : Host.Outcome State Fault Refusal :=
  fireStep s (.cpys f) 0#2 true true true (some f.lsid.toNat) [f.t0, f.t1] stepCopy

/-- STFREE (R80, R391): performed at commit. -/
def execStfree (f : LsF) (s : State) : Host.Outcome State Fault Refusal :=
  fireStep s (.stfree f) f.p true false false (some f.lsid.toNat) [] stepCopy

/-- STCLOSE (R391): performed at commit. -/
def execStclose (f : LsF) (s : State) : Host.Outcome State Fault Refusal :=
  fireStep s (.stclose f) f.p true false false (some f.lsid.toNat) [] stepCopy

/-- STQ (R391). -/
def execStq (f : StqF) (s : State) : Host.Outcome State Fault Refusal :=
  fireStep s (.stq f) f.p true false false none [f.t0, f.t1] (stepStq f.sel.toNat)

/-- CWAIT (R392). -/
def execCwait (f : RsF) (s : State) : Host.Outcome State Fault Refusal :=
  fireStep s (.cwait f) f.p true false false (some f.lsid.toNat) [f.t0, f.t1] (stepWait 0 true)

/-! ### Commit (R80, R380, R391) -/

/-- A committed CPY or CPYS joins the queue (R380), where it waits for the drain of its issue (R136). -/
def commitCopy (s : State) (k : Nat) (t : Thread) (f : Frame) (o : Op) : State :=
  let clu := cluOf k
  let id := ((o.ans.getD .null).word).toNat
  let j : CCmd := { i := o.i, cap := captureOf s k t f o id, place := (s.clu clu).place, a := o.a.word, b := o.b, c := o.c,
                    portions := 0, done := 0, eng := { Eng.mk0 with st := 9 } }
  let s := s.modClu clu fun c => { c with
    copyQ := c.copyQ ++ [j]
    place := c.place + 1 }
  s.modThr k fun t => { t with
    cnts := (t.cnts.1, t.cnts.2.1, (t.cnts.2.2 + 1) % 256)
    status := tdel t.status id }

/-- The engine that produces a consumer's entry, and the stream's place there. -/
def producerOf (s : State) (clu ent : Nat) (e : SEnt) : Option (Nat × Nat) :=
  match mapAt s clu e.ctx e.prod with
  | .error _ => none
  | .ok (_, p) => ((s.clu p).streams.find? fun x => x.branches.any fun b => b.clu == clu && b.ent == ent).map fun x =>
    (p, x.cmd.place)

/-- A notice between a consumer's entry and an engine: freed slots, a close (R81, R391) or a started tile (R388). -/
def notice (kind : MKind) (clu place br value ctx gen : Nat) : Msg :=
  { Msg.mk0 kind .dog with ctx := ctx, gen := gen, node := 9 + clu, par := place, port := br, arg := value, pa := 2 ^ 49 }

/-- STFREE at commit (R80): the full bits of the slot are cleared, F rises, the engine is told. -/
def commitStfree (s : State) (k : Nat) (t : Thread) (o : Op) : State :=
  let clu := cluOf k
  let ent := o.a.word.toNat % 16
  match entryOf s k t o with
  | none => s
  | some e =>
    let x := freedSlot s clu e 0
    let nf := (e.f + 1) % 2 ^ 32
    let s := s.setBits x.1 x.2 false
    let s := s.modClu clu fun c => { c with stab := tset c.stab ent { e with f := nf } }
    let s := match producerOf s clu ent e with
      | some (p, pl) => s.send (notice .freedNotice p pl e.br nf e.ctx (s.ctx e.ctx).gen)
      | none => s
    vaultPass s (vaultClu x.1)

/-- STCLOSE at commit (R391). -/
def commitStclose (s : State) (k : Nat) (t : Thread) (o : Op) : State :=
  let clu := cluOf k
  let ent := o.a.word.toNat % 16
  match entryOf s k t o with
  | none => s
  | some e =>
    let s := s.modClu clu fun c => { c with stab := tset c.stab ent { e with st := 2 } }
    match producerOf s clu ent e with
    | some (p, pl) => s.send (notice .closeNotice p pl e.br 0 e.ctx (s.ctx e.ctx).gen)
    | none => s

/-! ### Running copies (R383, R384, R380) -/

/-- Update a copy command in the queue. -/
def State.modCopy (s : State) (clu place : Nat) (g : CCmd → CCmd) : State :=
  s.modClu clu fun c => { c with copyQ := c.copyQ.map fun j => if j.place = place then g j else j }

/-- The command that is next in queue order (R380), if the drain of its issue is over: one that drains has `st` 9. -/
def copyNext (c : Clu) : Option CCmd :=
  (c.copyQ.find? fun j => j.eng.st == 0 || j.eng.st == 9).filter (·.eng.st == 0)

/-- The CPY that could start now, its token aside (R380). -/
def copyStartable (c : Clu) : Option CCmd :=
  match copyNext c with
  | none => none
  | some j =>
    match j.i with
    | .cpy _ =>
      let busy := c.copyQ.filter fun x => x.eng.st != 0 && x.eng.st != 9 && match x.i with
        | .cpy _ => true
        | _ => false
      if 4 ≤ busy.length then none else some j
    | _ => none

/-- Bytes a CPY writes. -/
def cpyBytes (j : CCmd) : Nat :=
  let n := cpyCount j.c
  match j.i with
  | .cpy f => n 0 * n 1 * n 2 * n 3 * (cpyEs f).2
  | _ => 0

/-- Whether the portions paid for cover a source piece (R380). -/
def paid (j : CCmd) (f : CpyF) (d : Seg) : Bool :=
  let z := cpyEs f
  ((d.off + d.len - 1) / z.1 + 1) * z.2 ≤ 32768 * j.portions || cpyBytes j ≤ 32768 * j.portions

/-- Whether a running CPY wants a token for its next portion: what its tokens pay for has been asked for and read (R380). -/
def portionDue (j : CCmd) : Bool :=
  j.eng.st = 3 && j.portions * 32768 < cpyBytes j && j.eng.out = [] && match j.i with
    | .cpy f => j.eng.segs.all fun d => d.dst || d.st != 0 || !paid j f d
    | _ => true

/-- The translations of a CPY (R383): its sources in element order, then its destinations. -/
def cpyTr (s : State) (clu : Nat) (j : CCmd) (f : CpyF) : List RowTr :=
  let n0 := cpyCount j.c 0
  let e := cpyEs f
  let runs := cpyRuns j.a j.b.word j.c
  let src := runs.map fun r => engRun s (engAcc j.cap j.eng clu false f.cls.toNat) (r.1 * e.1) r.2.1 (n0 * e.1) e.1
  if toWindow j.b.word then
    let b := j.b.word.toNat
    let bad := 79 < field b 29 23 || (!b.testBit 39 && field b 55 40 != 0)
    src ++ [if bad then .fail 7 else .ok []]
  else src ++ runs.map fun r => engRun s (engAcc j.cap j.eng clu true f.cls.toNat) (r.1 * e.2) r.2.2 (n0 * e.2) e.2

/-- The bytes of an element that a CPY writes, with the flags of its conversion (R382). -/
def cpyElem (j : CCmd) (f : CpyF) (e : Eng) (i : Nat) : List Byte × Flags :=
  let z := cpyEs f
  let raw := (List.range z.1).map fun y =>
    match e.segs.find? fun d => !d.dst && d.off ≤ i * z.1 + y && i * z.1 + y < d.off + d.len with
    | some d => d.data.getD (i * z.1 + y - d.off) 0
    | none => 0
  if f.cv = 0#1 then (raw, 0#6)
  else
    let r := convElem f.stype.toNat f.dtype.toNat false (rmOf f.rnd j.cap.fcr) j.cap.env i (leNat raw)
    (leBytes z.2 r.1, r.2 &&& ~~~flagIS)

/-- Fill the destination pieces of a CPY from what it has read (R65, R382). -/
def cpyFill (j : CCmd) (f : CpyF) (e : Eng) : Eng :=
  let z := cpyEs f
  let byte := fun (x : Nat) => ((cpyElem j f e (x / z.2)).1).getD (x % z.2) 0
  let bad := fun (x n : Nat) => e.badAt (x / z.2 * z.1) (((x + n - 1) / z.2 + 1 - x / z.2) * z.1)
  let n := cpyCount j.c
  let fl := if f.cv = 0#1 then 0#6 else
    (List.range (n 0 * n 1 * n 2 * n 3)).foldl (fun a i => a ||| (cpyElem j f e i).2) 0#6
  { e with
    fl := fl
    segs := e.segs.map fun d => if d.dst then
      { d with data := (List.range d.len).map fun y => byte (d.off + y), poison := d.marks bad } else d }

/-- One step of a CPY: 1 translating, 2 taking ownership, 3 reading, 4 writing, 5 landed (R83 to R86, R383). -/
def cpyStep (s : State) (clu : Nat) (j : CCmd) (f : CpyF) : State :=
  let put := fun (x : State × Eng) (st : Nat) => x.1.modCopy clu j.place fun j => { j with eng := { x.2 with st := st } }
  let (ctx, gen) := (j.cap.ctx, j.cap.gen)
  if j.eng.st = 1 then
    let (asks, segs, xf) := engRows (cpyTr s clu j f)
    if asks != [] then put (engAsk s clu ctx j.eng asks) 1
    else
      let e := { j.eng with asked := [], nope := [] }
      if xf.isSome then put (s, { e with xf := xf }) 5
      else put (engOwn s clu 0 j.place ctx gen { e with segs := segs }) 2
  else
    let x := engCollect s j.eng
    if j.eng.st = 2 then (if x.2.out != [] then put x 2 else put x 3)
    else if j.eng.st = 3 then
      let x := engRead x.1 clu 0 j.place ctx gen x.2 (paid j f)
      if x.2.segs.all fun d => d.dst || d.st == 1 then
        if toWindow j.b.word then put x 5
        else put (engWrite x.1 clu 0 j.place ctx gen (cpyFill j f x.2) fun _ => true) 4
      else put x 3
    else if j.eng.st = 4 then (if x.2.out != [] then put x 4 else put x 5)
    else s

/-- COPY_SOURCE_READ (R64, R382): a running CPY goes on. -/
def execCopySourceRead (clu cmd : Nat) (s : State) : Host.Outcome State Fault Refusal :=
  match (s.clu clu).copyQ.find? (·.place == cmd) with
  | none => .next s
  | some j =>
    match j.i with
    | .cpy f => .next (if j.eng.st = 0 || j.eng.st = 9 then s else cpyStep s clu j f)
    | _ => .next s

/-! ### Completion (R87, R380, R392) -/

/-- The status of a copy command (R392). -/
def copyStatus (id : Nat) (fl : Flags) (xf : Option Nat) (pz nopen closed : Bool) : Word :=
  BitVec.ofNat 64 (1 + 2 * fl.toNat + (if xf.isSome then 128 else 0) + (if pz then 256 else 0) + (if closed then 1024 else 0) +
    (if nopen then 2048 else 0) + 4096 * xf.getD 0 + 65536 * id)

/-- The port a copy command posts to, if it does. -/
def copyPort (i : Instr) : Option Nat :=
  match i with
  | .cpy f => if f.ntf = 1#1 then some f.port.toNat else none
  | .cpys f => if f.ntf = 1#1 then some f.port.toNat else none
  | _ => none

/-- The sender id of a copy engine's messages (R328). -/
def copySender (c : Capture) : Nat := 0x800 + c.lclu % 1024

/-- Whether an unfinished earlier command of the same context is on the engine (R380). -/
def copyBehind (c : Clu) (j : CCmd) : Bool :=
  (c.copyQ ++ c.streams.map (·.cmd)).any fun x => x.place < j.place && x.cap.ctx == j.cap.ctx

/-- Step 4 of R87: the completion message is asked for, or the command is done. `eng.st` 6 waits for the message. -/
def copyNotify (s : State) (clu : Nat) (j : CCmd) (status : Word) (put : State → Eng → State) (done : State → State) : State :=
  match copyPort j.i with
  | none => done s
  | some p =>
    let w1 := match j.i with
      | .cpy _ => j.b.word
      | _ => 0#64
    let x := engPost s clu 0 j.place j.cap.ctx clu p (taggedMsg [status, w1] j.cap.id (copySender j.cap)) { j.eng with out := [] }
    put x.1 { x.2 with st := 6 }

/-- A unit of a port-window copy as a message (R384). -/
def windowMsg (j : CCmd) (k : Nat) : PMsg :=
  let b := j.b.word.toNat
  let n := Nat.min 64 (cpyCount j.c 0 - 64 * k)
  let bs := (List.range n).map fun y =>
    match j.eng.segs.find? fun d => d.off ≤ 64 * k + y && 64 * k + y < d.off + d.len with
    | some d => d.data.getD (64 * k + y - d.off) 0
    | none => 0
  { words := (List.range (n / 8)).map fun i => BitVec.ofNat 64 (leNat ((bs.drop (8 * i)).take 8))
    tag := field b 55 40
    tagged := b.testBit 39
    sender := copySender j.cap
    arr := 0 }

/-- A CPY whose memory side is done goes through steps 2 to 4 of R87; a port-window copy first posts its units in order. -/
def cpyFinish (s : State) (clu : Nat) (j : CCmd) : State :=
  let st := copyStatus j.cap.id j.eng.fl j.eng.xf j.eng.pz false false
  let leave := fun (s : State) =>
    reserveAll (setStatus (s.modClu clu fun c => { c with copyQ := c.copyQ.filter (·.place != j.place) }) j.cap 0 st) clu
  let put := fun (s : State) (e : Eng) => s.modCopy clu j.place fun j => { j with eng := e }
  let units := if toWindow j.b.word && j.eng.xf.isNone then (cpyCount j.c 0 + 63) / 64 else 0
  if j.eng.st = 6 then
    let x := engPosted s j.eng
    if x.2.out = [] then leave x.1 else put x.1 x.2
  else if j.eng.st != 5 || copyBehind (s.clu clu) j then s
  else if j.eng.out != [] then
    let x := engPosted s j.eng
    put x.1 x.2
  else if j.done < units then
    let b := j.b.word.toNat
    let s' := s.modCopy clu j.place fun j => { j with done := j.done + 1 }
    if field b 38 33 != s.mod.pkg then s'
    else
      let x := engPost s' clu 0 j.place j.cap.ctx (80 * field b 32 30 + field b 29 23) (field b 22 17) (windowMsg j j.done) j.eng
      put x.1 x.2
  else copyNotify (engFinish s clu 0 j.place j.eng) clu j st put leave

/-! ### Streams (R76 to R82, R388) -/

/-- Update a stream. -/
def State.modStream (s : State) (clu place : Nat) (g : Stream → Stream) : State :=
  s.modClu clu fun c => { c with streams := c.streams.map fun x => if x.cmd.place = place then g x else x }

/-- Update branch `i` of a stream. -/
def State.modBranch (s : State) (clu place i : Nat) (g : Branch → Branch) : State :=
  s.modStream clu place fun x => { x with branches := x.branches.zipIdx.map fun b => if b.2 = i then g b.1 else b.1 }

/-- A stream of an engine. -/
def Clu.stream (c : Clu) (place : Nat) : Option Stream := c.streams.find? (·.cmd.place == place)

/-- Z of a stream. -/
def Stream.z (x : Stream) : Nat := cpysZ x.cmd.b

/-- The branches a CPYS opens; none when a cluster it names is no longer in the map (R387). -/
def openBranches (s : State) (clu : Nat) (j : CCmd) : Option (List Branch) :=
  let here := fun (n : Nat) => match mapAt s clu j.cap.ctx n with
    | .ok (p, c) => some (placeIn s.mod.pkg p c)
    | .error _ => none
  (branchesOf j.c).mapM fun x =>
    let r := x.2
    match here (brClu r), (brVaults r).mapM here with
    | some c, some vs => some
        { clu := c, ent := brEnt r, w := 0, f := 0, c := 0, s := brS r, nv := brNv r, base := brBase r, vaults := vs,
          port := if r.testBit 13 then some (field r 19 14) else none, run := [] }
    | _, _ => none

/-- The granules of a branch's ring: its slots' addresses. -/
def Branch.slots (b : Branch) (pkg z : Nat) : List Nat := (List.range b.s).map (ringPa pkg b.vaults b.base z)

/-- The stream-table entry of a branch that opens (R390). -/
def openEntry (j : CCmd) (i r : Nat) : SEnt :=
  { ctx := j.cap.ctx, w := 0, c := 0, f := 0, base := brBase r, cause := 0, pz := false, xf := false, prod := j.cap.lclu,
    port := field r 19 14, ntf := r.testBit 13, zl := field (descWord j.b 0) 2 0, nvl := field r 12 11, sm1 := field r 10 5,
    br := i, st := 1, vc := BitVec.ofNat 64 (field r 99 36) }

/-- Whether a branch's consumer, or a vault of its ring, is on another package. -/
def Branch.abroad (b : Branch) : Bool := 1024 ≤ b.clu || b.vaults.any (1024 ≤ ·)

/-- What is not free on this package for the branches of a stream (R388): an entry, or a ring's part above its Kennel. -/
def notFree (s : State) (j : CCmd) (bs : List Branch) : Bool :=
  bs.any (fun b => b.clu < 1024 && (tget (s.clu b.clu).stab b.ent).isSome) ||
  ((branchesOf j.c).zip bs).any fun x => x.2.vaults.any fun v =>
    v < 1024 && 2 ^ 23 - 128 * (s.clu v).kennel.size < brEnd (cpysZ j.b) x.1.2

/-- The requests by which a stream waits for the slots of its rings (R69, R77). -/
def slotWaits (s : State) (clu : Nat) (j : CCmd) (bs : List Branch) : List Msg :=
  bs.flatMap fun b => (b.slots s.mod.pkg (cpysZ j.b)).map fun a =>
    { Msg.mk0 .waiter (.eng clu 0 j.place) with
      ctx := j.cap.ctx, gen := j.cap.gen, pa := a, len := cpysZ j.b, cls := 1, wr := true, node := homeNode a }

/-- The message by which a stream waits for a slot. -/
def slotWait (s : State) (m : Msg) : Option (Nat × Msg) :=
  s.net.find? fun e => e.2.kind == .waiter && e.2.src == m.src && e.2.pa == m.pa

/-- Whether the full bits of a slot may be cleared now: no hold and no reservation stands there, and no write that waits before it
(R69, R71, R92). -/
def slotClear (s : State) (m : Msg) : Bool :=
  !s.barred m &&
  !((s.queue (queueKey m.node (lineOf m.pa))).takeWhile fun n => (slotWait s m).all (·.1 != n)).any fun n =>
    (s.msg n).any fun e => e.src != m.src && vaultKeeps s e && meets e.pa e.len m.pa m.len

/-- The slots of a stream that something stands in the way of are waited for in their place; the others let what waits pass (R71,
log 124). -/
def awaitSlots (s : State) (ms : List Msg) : State :=
  ms.foldl (fun s m =>
    match slotWait s m with
    | none => if slotClear s m then s else s.send m
    | some (n, w) =>
      if w.st = 1 && w.takes = 0 && !s.barred w then passKey (s.setMsg n { w with takes := 1 }) (queueKey w.node (lineOf w.pa)) else s) s

/-- STREAM_OPEN (R77, R388): the CPYS at the head of the queue takes a stream, or completes with NOPEN. Whether another package's part of
it is free is a free value (log 17). -/
def execStreamOpen (clu : Nat) (s : State) : Host.Outcome State Fault Refusal :=
  let c := s.clu clu
  match copyNext c with
  | none => .next s
  | some j =>
    match j.i with
    | .cpys _ =>
      let z := cpysZ j.b
      let nopen := fun (s : State) => s.modCopy clu j.place fun j => { j with eng := { j.eng with st := 5 } }
      if 4 ≤ c.streams.length + (if (fabRunning c.fab 3).isSome then 1 else 0) then .next s
      else
      match openBranches s clu j with
      | none => .next (nopen s)
      | some bs =>
        let ms := slotWaits s clu j bs
        let gone := fun (s : State) => dropMsgs s fun x => x == .eng clu 0 j.place
        if notFree s j bs then .next (nopen (gone s))
        else if bs.any Branch.abroad && Config.freeChoice s.fresh % 2 = 0 then .next (nopen (gone { s with fresh := s.fresh + 1 }))
        else if !ms.all (slotClear s) then .next (awaitSlots s ms)
        else
          let s := if ms.any fun m => (slotWait s m).isSome then gone s else s
          let s := s.modClu clu fun c => { c with
            copyQ := c.copyQ.filter (·.place != j.place)
            streams := c.streams ++
              [{ cmd := j, branches := bs, read := 0, total := (cpysNt j.b).1 * (cpysNt j.b).2, staging := [], closing := false,
                 xf := none, pz := false }] }
          let s := bs.foldl (fun s b => (b.slots s.mod.pkg z).foldl (fun s a => s.setBits a z false) s) s
          let s := ((branchesOf j.c).zip bs).foldl (fun s x => if 1024 ≤ x.2.clu then s else s.modClu x.2.clu fun c =>
            { c with stab := tset c.stab x.2.ent (openEntry j x.1.1 x.1.2) }) s
          .next (reserveAll (((bs.flatMap (·.vaults)).map (· % 1024)).eraseDups.foldl vaultPass s) clu)
    | _ => .next s

/-- The fewest tiles started into a branch (R78). -/
def Stream.least (x : Stream) : Nat :=
  match x.branches with
  | [] => x.read
  | b :: r => r.foldl (fun m b => Nat.min m b.w) b.w

/-- Drop the tiles that every branch has started (R78). -/
def Stream.trim (x : Stream) : Stream := { x with staging := x.staging.filter (x.least ≤ ·.t) }

/-- The translations of tile `t`, one for each row (R386). -/
def tileTr (s : State) (clu : Nat) (j : CCmd) (t : Nat) : List RowTr :=
  let w := fun (i : Nat) => BitVec.ofNat 64 (descWord j.b i)
  let n0 := (cpysNt j.b).1
  let rb := cpysZ j.b / cpysTr j.b
  let base := j.a + BitVec.ofNat 64 (t % n0) * w 2 + BitVec.ofNat 64 (t / n0) * w 3
  (List.range (cpysTr j.b)).map fun r =>
    engRun s (engAcc j.cap j.eng clu false (match j.i with | .cpys f => f.cls.toNat | _ => 0)) (r * rb) (base + BitVec.ofNat 64 r * w 1) rb 1

/-- Whether a stream may read its next tile (R78). -/
def tileDue (x : Stream) : Bool := !x.closing && x.read < x.total && x.read - x.least < 2

/-- TILE_READ (R78, R388): the next tile is translated and read into staging. -/
def execTileRead (clu cmd : Nat) (s : State) : Host.Outcome State Fault Refusal :=
  match (s.clu clu).stream cmd with
  | none => .next s
  | some x =>
    let j := x.cmd
    let (ctx, gen) := (j.cap.ctx, j.cap.gen)
    let put := fun (y : State × Eng) (st : Nat) =>
      y.1.modStream clu cmd fun x => { x with cmd := { x.cmd with eng := { y.2 with st := st } } }
    if j.eng.st = 0 then
      if !tileDue x then .next s
      else
        let (asks, segs, xf) := engRows (tileTr s clu j x.read)
        if asks != [] then .next (put (engAsk s clu ctx j.eng asks) 0)
        else
          .next (put (engRead s clu 0 cmd ctx gen { Eng.mk0 with segs := segs, xf := xf } fun _ => true) 3)
    else if j.eng.st != 3 then .next s
    else
      let y := engCollect s j.eng
      let y := engRead y.1 clu 0 cmd ctx gen y.2 fun _ => true
      if !(y.2.segs.all (·.st == 1)) || y.2.out != [] then .next (put y 3)
      else
        let z := x.z
        let bytes := (List.range z).map fun i =>
          match y.2.segs.find? fun d => d.off ≤ i && i < d.off + d.len with
          | some d => d.data.getD (i - d.off) 0
          | none => 0
        let tile : Tile := ⟨x.read, bytes, y.2.xf, (List.range (z / 16)).filter fun g => y.2.badAt (16 * g) 16⟩
        .next (y.1.modStream clu cmd fun x =>
          if x.closing then { x with cmd := { x.cmd with eng := Eng.mk0 } }
          else { x with cmd := { x.cmd with eng := Eng.mk0 }, read := x.read + 1, staging := x.staging ++ [tile] })

/-- The tile that could start in a branch now, its token aside (R78). -/
def startable (x : Stream) (i : Nat) : Option (Branch × Tile) :=
  match x.branches[i]? with
  | none => none
  | some b =>
    if x.closing || b.s ≤ b.w - b.f then none
    else (x.staging.find? (·.t == b.w)).map fun t => (b, t)

/-- The slot of the tile that is number `n` of a branch (R76). -/
def Branch.slotOf (b : Branch) (n : Nat) : Nat := n % 2 ^ 32 % b.s

/-- The address of a tile's slot. -/
def tilePa (s : State) (x : Stream) (b : Branch) (n : Nat) : Nat := ringPa s.mod.pkg b.vaults b.base x.z (b.slotOf n)

/-- A tile starts in a branch (R78, R388): its holds are asked for, and the consumer's entry is told. -/
def startTile (s : State) (clu cmd i : Nat) (x : Stream) (b : Branch) (t : Tile) : State :=
  let j := x.cmd
  let s := (s.modBranch clu cmd i fun b => { b with w := b.w + 1, run := b.run ++ [(0, t)] }).modStream clu cmd (·.trim)
  let pa := tilePa s x b b.w
  let s := s.send { engMsg clu 0 cmd j.cap.ctx j.cap.gen .engOwn pa x.z with wr := true }
  if 1024 ≤ b.clu then s else s.send (notice .startNotice b.clu b.ent i ((b.w + 1) % 2 ^ 32) j.cap.ctx j.cap.gen)

/-- Whether an earlier notice of the same kind, place and branch is still on its way (R81). -/
def noticeFirst (s : State) (n : Nat) (m : Msg) : Bool :=
  !(s.net.any fun e => e.1 < n && e.2.kind == m.kind && e.2.node == m.node && e.2.par == m.par && e.2.port == m.port)

/-- START_NOTICE (R388): W of the consumer's entry rises. -/
def execStartNotice (n : Nat) (s : State) : Host.Outcome State Fault Refusal :=
  match s.msg n with
  | none => .next s
  | some m =>
    if m.kind != .startNotice || !noticeFirst s n m then .next s
    else
      let clu := m.node - 9
      let s := s.delMsg n
      match tget (s.clu clu).stab m.par with
      | some e => .next (if e.ctx = m.ctx && fresh s m then
          s.modClu clu fun c => { c with stab := tset c.stab m.par { e with w := m.arg } } else s)
      | none => .next s

/-- The messages of a tile's slot: of a stream, within its slot. -/
def slotMsgs (s : State) (clu cmd pa z : Nat) : List (Nat × Msg) :=
  s.net.filter fun e => e.2.src == .eng clu 0 cmd && pa ≤ e.2.pa && e.2.pa < pa + z &&
    (e.2.kind == .engOwn || e.2.kind == .engWrite || e.2.kind == .reply || e.2.kind == .ack) && (e.2.kind != .reply || e.2.data == [])

/-- The writes of a tile (R79, R388). -/
def tileWrites (s : State) (clu cmd pa : Nat) (x : Stream) (t : Tile) : State :=
  let j := x.cmd
  (List.range (x.z / 64)).foldl (fun s i =>
    let pz := BitVec.ofNat 4 (((List.range 4).map fun g => if t.bad.contains (4 * i + g) then 2 ^ g else 0).foldl (· + ·) 0)
    s.send { engMsg clu 0 cmd j.cap.ctx j.cap.gen .engWrite (pa + 64 * i) 64 with
      wr := true, data := ((t.bytes.drop (64 * i)).take 64).map some, poison := pz }) s

/-- A started tile goes on: its holds are taken and its bytes written, or they have all landed. -/
def tileGo (s : State) (clu cmd i n : Nat) (x : Stream) (b : Branch) (e : Nat × Tile) : State :=
  let pa := tilePa s x b n
  let ms := slotMsgs s clu cmd pa x.z
  let put := fun (s : State) (st : Nat) => s.modBranch clu cmd i fun b => { b with
    run := b.run.map fun y => if y.2.t = e.2.t then (st, y.2) else y }
  let all := fun (k : MKind) => ms.all fun m => m.2.kind == k
  if e.1 = 0 && ms != [] && all .reply then
    put (tileWrites (ms.foldl (fun s m => s.delMsg m.1) s) clu cmd pa x e.2) 1
  else if e.1 = 1 && ms != [] && all .ack then put (ms.foldl (fun s m => s.delMsg m.1) s) 2
  else s

/-- The tile message of R389. -/
def tileMsg (x : Stream) (i : Nat) (b : Branch) (t : Tile) (pkg pa : Nat) : PMsg :=
  let n0 := (cpysNt x.cmd.b).1
  let w0 := t.t % 2 ^ 32 + 2 ^ 32 * b.slotOf t.t + 2 ^ 38 * i + 2 ^ 40 * b.ent
  let w2 := 0xF1 * 2 ^ 56 + 2 ^ 33 * pkg + 2 ^ 30 * field pa 32 30 + 2 ^ 23 * field pa 29 23 + field pa 22 0
  let w3 := 4096 * t.xf.getD 0 + (if t.bad != [] then 256 else 0) + (if t.xf.isSome then 128 else 0)
  taggedMsg [BitVec.ofNat 64 w0, BitVec.ofNat 64 (t.t % n0 + 2 ^ 32 * (t.t / n0)), BitVec.ofNat 64 w2, BitVec.ofNat 64 w3]
    (field (descWord x.cmd.b 5) 15 0 + t.t) (copySender x.cmd.cap)

/-- Holds of one slot end (R79). -/
def releaseSlot (s : State) (clu cmd pa z : Nat) : State :=
  let gs := gransOf pa z
  { s with holds := s.holds.filter fun e => !(gs.contains e.1 && Hold.ofCmd (.eng clu 0 cmd) e.2) }

/-- The oldest tile of a branch completes (R79, R388, R389): full bits, C, and its message. -/
def tileDone (s : State) (clu cmd i : Nat) (x : Stream) (b : Branch) (t : Tile) : State :=
  let pa := tilePa s x b b.c
  let s := vaultPass (releaseSlot (s.setBits pa x.z true) clu cmd pa x.z) (vaultClu pa)
  let s := if 1024 ≤ b.clu then s.modStream clu cmd fun x => { x with xf := x.xf <|> t.xf, pz := x.pz || t.bad != [] }
    else s.modClu b.clu fun c => { c with stab := c.stab.map fun (e : Nat × SEnt) =>
    if e.1 = b.ent then
      let first := t.xf.isSome && !e.2.xf
      (e.1, { e.2 with c := (e.2.c + 1) % 2 ^ 32, xf := e.2.xf || t.xf.isSome, pz := e.2.pz || t.bad != [],
                       cause := if first then t.xf.getD 0 else e.2.cause })
    else e }
  let next := fun (s : State) (run : List (Nat × Tile) → List (Nat × Tile)) =>
    s.modBranch clu cmd i fun b => { b with c := b.c + 1, run := run b.run }
  match b.port.filter fun _ => b.clu < 1024 with
  | none => next s List.tail
  | some p =>
    let n := s.fresh
    let s := askPort s (.eng clu 0 cmd) x.cmd.cap.ctx b.clu p (tileMsg x i b t s.mod.pkg pa) 0
    next s fun r => match r with
      | [] => []
      | e :: r => (3 + n, e.2) :: r

/-- TILE_COMPLETE (R79, R465): the tiles started in a branch go on; the oldest completes once it has landed. -/
def execTileComplete (clu cmd branch : Nat) (s : State) : Host.Outcome State Fault Refusal :=
  match ((s.clu clu).stream cmd).bind fun x => (x.branches[branch]?).map fun b => (x, b) with
  | none => .next s
  | some (x, b) =>
    match b.run with
    | [] => .next s
    | (st, t) :: r =>
      if 3 ≤ st then
        let y := engPosted s { Eng.mk0 with out := [st - 3] }
        .next (if y.2.out = [] then y.1.modBranch clu cmd branch fun b => { b with run := r } else s)
      else if st = 2 then .next (tileDone s clu cmd branch x b t)
      else .next (b.run.foldl (fun s e => tileGo s clu cmd branch e.2.t x b e) s)

/-- FREED_SLOT_NOTICE (R81): the producer's copy of F advances; a stream whose last slot is freed gives its entries back
(R391). -/
def execFreedSlotNotice (n : Nat) (s : State) : Host.Outcome State Fault Refusal :=
  match s.msg n with
  | none => .next s
  | some m =>
    if m.kind != .freedNotice || !noticeFirst s n m then .next s
    else
      let clu := m.node - 9
      .next ((s.delMsg n).modBranch clu m.par m.port fun b =>
        { b with f := b.f + (m.arg + 2 ^ 32 - b.f % 2 ^ 32) % 2 ^ 32 })

/-- CLOSE_NOTICE (R391): no tile is read or started any more. -/
def execCloseNotice (n : Nat) (s : State) : Host.Outcome State Fault Refusal :=
  match s.msg n with
  | none => .next s
  | some m =>
    if m.kind != .closeNotice then .next s
    else .next ((s.delMsg n).modStream (m.node - 9) m.par fun x => { x with closing := true })

/-- Whether a stream has ended (R82). -/
def streamEnded (s : State) (clu : Nat) (x : Stream) : Bool :=
  let transit := s.net.any fun e =>
    ((e.2.kind == .freedNotice || e.2.kind == .closeNotice) && e.2.node == 9 + clu && e.2.par == x.cmd.place) ||
    (e.2.kind == .startNotice && x.branches.any fun b => e.2.node == 9 + b.clu && e.2.par == b.ent)
  x.cmd.eng.st != 3 && !transit && x.branches.all (fun b => b.run = []) &&
    (x.closing || x.branches.all fun b => b.c = x.total && b.f = x.total)

/-- The flags a stream's status carries: sticky over its branches' entries. -/
def streamFlags (s : State) (x : Stream) : Option Nat × Bool :=
  let es := x.branches.filterMap fun b => tget (s.clu b.clu).stab b.ent
  ((es.find? (·.xf)).map (·.cause) <|> x.xf, es.any (·.pz) || x.pz)

/-- A stream that has ended frees its entries (R82, R391), and completes its command once every earlier one of its context has
completed (R380, R385): its message is posted. -/
def streamFinish (s : State) (clu : Nat) (x : Stream) : State :=
  let j := x.cmd
  let leave := fun (st : Word) (s : State) =>
    setStatus (s.modClu clu fun c => { c with streams := c.streams.filter (·.cmd.place != j.place) }) j.cap 0 st
  let put := fun (s : State) (e : Eng) => s.modStream clu j.place fun x => { x with cmd := { x.cmd with eng := e } }
  let status := fun (xf : Option Nat) (pz : Bool) => copyStatus j.cap.id 0#6 xf pz false x.closing
  if j.eng.st = 6 then
    let y := engPosted s j.eng
    if y.2.out = [] then leave (status j.eng.xf j.eng.pz) y.1 else put y.1 y.2
  else if j.eng.st = 7 then
    if copyBehind (s.clu clu) j then s
    else copyNotify s clu j (status j.eng.xf j.eng.pz) put (leave (status j.eng.xf j.eng.pz))
  else if !streamEnded s clu x then s
  else
    let fl := streamFlags s x
    put (x.branches.foldl (fun s b => if 1024 ≤ b.clu then s else s.modClu b.clu fun c => { c with stab := tdel c.stab b.ent }) s)
      { Eng.mk0 with st := 7, xf := fl.1, pz := fl.2 }

/-- A CPYS that could not open completes (R388). -/
def nopenFinish (s : State) (clu : Nat) (j : CCmd) : State :=
  let st := copyStatus j.cap.id 0#6 none false true false
  let leave := fun (s : State) =>
    reserveAll (setStatus (s.modClu clu fun c => { c with copyQ := c.copyQ.filter (·.place != j.place) }) j.cap 0 st) clu
  let put := fun (s : State) (e : Eng) => s.modCopy clu j.place fun j => { j with eng := e }
  if j.eng.st = 6 then
    let y := engPosted s j.eng
    if y.2.out = [] then leave y.1 else put y.1 y.2
  else if j.eng.st != 5 || copyBehind (s.clu clu) j then s
  else copyNotify s clu j st put leave

/-- COPY_COMPLETION (R87, R380, R384, R388): the command completes in order. -/
def execCopyCompletion (clu cmd : Nat) (s : State) : Host.Outcome State Fault Refusal :=
  match (s.clu clu).stream cmd, (s.clu clu).copyQ.find? (·.place == cmd) with
  | some x, _ => .next (if statusWaits s x.cmd.cap then s else streamFinish s clu x)
  | none, some j =>
    match j.i with
    | .cpy _ => .next (if statusWaits s j.cap then s else cpyFinish s clu j)
    | _ => .next (if statusWaits s j.cap then s else nopenFinish s clu j)
  | none, none => .next s

end Sys2Proof.Machine
end

