-- ==== Sys2Proof/Machine/Bucket.lean ====
section
/-! DEFINITION. The tile-start bucket (R402, R403) and the starts that take its tokens: matrix jobs (R314), fabric commands and
layers (R364, R367), CPY portions (R380), stream tiles (R78). -/

namespace Sys2Proof.Machine

/-- Whether a copy engine wants a token (R402). -/
def copyWants (c : Clu) : Bool :=
  (copyStartable c).isSome || c.copyQ.any portionDue ||
  c.streams.any fun x => (List.range x.branches.length).any fun i => (startable x i).isSome

/-- Whether requester `r` of R402's list wants a token: 0 compute pipe, 1 transfer pipe, 2 evaluator, 3 loader, 4 transposer,
5 copy engine. -/
def wants (s : State) (clu r : Nat) : Bool :=
  let c := s.clu clu
  if r ≤ 1 then (pickGrid s clu r).isSome
  else if r = 2 then (fabNext c 2).isSome || (layerDue c).any fun x => !x.2
  else if r ≤ 4 then (fabNext c r).isSome
  else copyWants c

/-- Whether the bucket gives requester `r` a token now: with fewer tokens than requesters, in round-robin order after the one
served last (R402). -/
def mayTake (s : State) (clu r : Nat) : Bool :=
  let c := s.clu clu
  let want := (List.range 6).filter (wants s clu)
  let order := (List.range 6).map fun i => (c.lastTok + 1 + i) % 6
  0 < c.bucket && want.contains r && (want.length ≤ c.bucket || order.find? want.contains == some r)

/-- A token is taken. -/
def takeTok (s : State) (clu r : Nat) : State :=
  s.modClu clu fun c => { c with bucket := c.bucket - 1, lastTok := r }

/-- BUCKET_REFILL (R402): for every period of 256 cycles of the island that has passed, REFILL tokens; beyond 64 they are
lost. -/
def execBucketRefill (island : Nat) (s : State) : Host.Outcome State Fault Refusal :=
  let n := ((tget s.cyc island).getD 0).toNat / 256
  let k := (tget s.mod.refills island).getD 0
  if n ≤ k then .next s
  else
    let r := (tget s.mod.refill island).getD 64
    let s := s.modMod fun m => { m with refills := tset m.refills island (k + 1) }
    let add := fun (e : Nat × Clu) =>
      if islandOf e.1 = island then (e.1, { e.2 with bucket := Nat.min 64 (e.2.bucket + r) }) else e
    .next { s with clus := s.clus.map add }

/-- MATRIX_JOB_START (R314): PickGrid's job starts on its pipe. -/
def execMatrixJobStart (clu pipe : Nat) (s : State) : Host.Outcome State Fault Refusal :=
  if 1 < pipe || !mayTake s clu pipe then .next s
  else
    match pickGrid s clu pipe with
    | none => .next s
    | some (g, p) =>
      match nextJob (s.clu clu) g pipe with
      | none => .next s
      | some j =>
        let s := (takeTok s clu pipe).modClu clu fun c => { c with
          pick := tset c.pick pipe p
          pipeC := if pipe = 0 then some j.place else c.pipeC
          pipeT := if pipe = 1 then some j.place else c.pipeT }
        .next (s.modJob clu j.place fun j => { j with eng := { j.eng with st := 1 } })

/-- FABRIC_COMMAND_START (R364): the next command of a unit, 2 evaluator, 3 loader, 4 transposer. -/
def execFabricCommandStart (clu unit : Nat) (s : State) : Host.Outcome State Fault Refusal :=
  match (if mayTake s clu unit then fabNext (s.clu clu) unit else none) with
  | none => .next s
  | some j => .next (fabStart (takeTok s clu unit) clu j)

/-- LAYER (R358, R367): the running LCRUN evaluates a layer; each after its first takes a token. -/
def execLayer (clu : Nat) (s : State) : Host.Outcome State Fault Refusal :=
  match layerDue (s.clu clu) with
  | none => .next s
  | some (j, true) => .next (runLayer s clu j)
  | some (j, false) => .next (if mayTake s clu 2 then runLayer (takeTok s clu 2) clu j else s)

/-- COPY_START (R83, R380): the CPY that is next in the queue starts with its first token. -/
def execCopyStart (clu : Nat) (s : State) : Host.Outcome State Fault Refusal :=
  match (if mayTake s clu 5 then copyStartable (s.clu clu) else none) with
  | none => .next s
  | some j => .next ((takeTok s clu 5).modCopy clu j.place fun j => { j with portions := 1, eng := { j.eng with st := 1 } })

/-- CPY_PORTION_TOKEN (R380): a running CPY goes on to its next 32 KiB. -/
def execCpyPortionToken (clu cmd : Nat) (s : State) : Host.Outcome State Fault Refusal :=
  match (s.clu clu).copyQ.find? fun j => j.place == cmd && portionDue j with
  | none => .next s
  | some _ =>
    .next (if mayTake s clu 5 then (takeTok s clu 5).modCopy clu cmd fun j => { j with portions := j.portions + 1 } else s)

/-- TILE_START (R78, R380): the oldest staged tile that a branch lacks starts there. -/
def execTileStart (clu cmd branch : Nat) (s : State) : Host.Outcome State Fault Refusal :=
  match ((s.clu clu).stream cmd).bind fun x => (startable x branch).map fun b => (x, b) with
  | none => .next s
  | some (x, b, t) => .next (if mayTake s clu 5 then startTile (takeTok s clu 5) clu cmd branch x b t else s)

end Sys2Proof.Machine
end

