-- ==== Sys2Proof/Machine/System.lean ====
section
/-! DEFINITION. System space (R441 to R443, R448, R450, R451), device accesses (R25, R133), and the supervisor-only SYSTEM
instructions SRR, SRW, TLBINV and CTXKILL (R429 to R434). -/

namespace Sys2Proof.Machine

/-! ### System registers -/

/-- STATE of BSTAT (R442). -/
def Bstate.code : Bstate → Nat
  | .powered => 0
  | .loading => 1
  | .verified => 2
  | .ready => 3
  | .failed => 4

/-- BSTAT (R442). -/
def Module.bstat (m : Module) : Nat := 2 ^ 32 * m.ign + 2 ^ 24 * m.failc + (if m.vbusy then 256 else 0) + m.st.code

/-- The status and identity registers, LOCK and BCTL (R442 to R444): they always respond. -/
def statusReg (m : Module) (off : Nat) : Word :=
  match off with
  | 0x000 => 0x00082D57#64
  | 0x008 => 0x00014100#64
  | 0x010 => bits Config.uid 0 64
  | 0x018 => bits Config.uid 64 64
  | 0x020 => bits Config.keyHash 0 64
  | 0x028 => bits Config.keyHash 64 64
  | 0x030 => bits Config.keyHash 128 64
  | 0x038 => bits Config.keyHash 192 64
  | 0x040 => Config.minSvn.setWidth 64
  | 0x048 => BitVec.ofNat 64 m.bstat
  | 0x080 => bits m.meas 0 64
  | 0x088 => bits m.meas 64 64
  | 0x090 => bits m.meas 128 64
  | 0x098 => bits m.meas 192 64
  | 0x0A0 => m.svn.setWidth 64
  | 0x100 => BitVec.ofNat 64 m.lock
  | _ => 0

/-- An error counter (R450): a die's, or those of the I/O die, which are kept as those of die 8. -/
def errReg (s : State) (off : Nat) : Word :=
  let i := off % 0x1000 / 8
  if off / 0x1000 = 0x18 then BitVec.ofNat 64 (if off % 0x1000 = 0x38 then s.mod.ioErr
    else if 4 ≤ i && i ≤ 6 then (tget (s.die 8).errs i).getD 0 else 0)
  else if i < 7 then BitVec.ofNat 64 ((tget (s.die (off / 0x1000 - 0x10)).errs i).getD 0)
  else 0

/-- REFILL of an island (R402, R451). -/
def Module.refillOf (m : Module) (i : Nat) : Nat := if 16 ≤ i then 0 else (tget m.refill i).getD 64

/-- A power island's register (R451). -/
def islandReg (m : Module) (i : Nat) : Word :=
  BitVec.ofNat 64 (2 ^ 40 * m.refillOf i + 2 ^ 16 * (tget m.freq i).getD 1600 + (tget m.throt i).getD 0)

/-- A mailbox register (R448): CMD is write-only. -/
def mboxReg (b : Mbox) (off : Nat) : Word :=
  if off = 0x40 then BitVec.ofNat 64 (256 * b.result + if b.busy then 1 else 0)
  else if 0x08 ≤ off && off ≤ 0x38 then (tget b.args (off / 8 - 1)).getD 0
  else if 0x48 ≤ off && off ≤ 0x78 then (tget b.res (off / 8 - 9)).getD 0
  else 0

/-- The mailbox of a port: 1 for A, 2 for B. -/
def Module.mbox (m : Module) (port : Nat) : Mbox := (tget m.mboxes port).getD Mbox.reset

/-- The 64-bit system register at an offset of the module as a port reads it, 0 for a thread (R441, R448): mailboxes
answer their own port only, and what does not respond reads zero. -/
def sysReg (s : State) (port off : Nat) : Word :=
  if off < 0x1000 then statusReg s.mod off
  else if s.mod.st != .ready then 0
  else if off / 0x1000 = port && off % 0x1000 ≤ 0x78 then mboxReg (s.mod.mbox port) (off % 0x1000)
  else if 0x10 ≤ off / 0x1000 && off / 0x1000 ≤ 0x18 then errReg s off
  else if 0x20000 ≤ off && off < 0x20000 + 0x1200 && off % 0x100 = 0 then islandReg s.mod ((off - 0x20000) / 0x100)
  else 0

/-- Whether an offset lies in a block of R441's table. -/
def inBlock (off : Nat) : Bool :=
  off < 0x100 || off = 0x100 || off = 0x200 || (0x1000 ≤ off && off < 0x3000) || (0x10000 ≤ off && off < 0x19000) ||
  (0x20000 ≤ off && off < 0x21200) || (0x1000000 ≤ off && off < 0x2000000)

/-- The word of its context's descriptor that a thread reads at an offset outside the blocks of R441 (R20). Where the descriptor
stands there is a free value (log 47). -/
def descAt (s : State) (ctx off : Nat) : Option Word :=
  if inBlock off then none
  else ((List.range 13).find? fun i => Config.descOffset i == off).map fun i => BitVec.ofNat 64 ((s.ctx ctx).word i)

/-- The register that an access of a context's thread to a[55:0] reads (R20, R432, R441): zero unless [49:48] is 11; of another
package it is a free value (log 13). -/
def sysRead (s : State) (ctx a : Nat) : Word :=
  if paKind a != 3 then 0
  else if paPkg a != s.mod.pkg then BitVec.ofNat 64 (leNat ((List.range 8).map fun i => Config.remoteByte s.fresh (a + i)))
  else (descAt s ctx (paOff a)).getD (sysReg s 0 (paOff a))

/-- Bytes of system registers. -/
def sysBytes (s : State) (ctx a n : Nat) : List Byte :=
  (List.range n).map fun i => (leBytes 8 (sysRead s ctx ((a + i) / 8 * 8)).toNat).getD ((a + i) % 8) 0

/-! ### Device accesses (R25, R133) -/

/-- Whether a part waits for its turn as a device access. -/
def Part.device (p : Part) : Bool := p.st == .want && p.pa.isSome && (p.kind == 2 || p.kind == 4)

/-- Whether a tracked instruction waits for its turn as a device access. -/
def Op.device (o : Op) : Bool :=
  o.ans.isNone && !o.nul && ((o.acc.any fun x => x.kind == 0 || x.kind == 4) && o.parts.any Part.device ||
    match o.i with
    | .srr _ => true
    | _ => false)

/-- Whether nothing of a block moves but the device accesses that wait. -/
def Frame.onlyDevices (f : Frame) : Bool :=
  f.transit = [] && f.unread = [] && !((slotStarts f.words 128 0).any f.slotReady) &&
    f.ops.all fun o => !o.open_ f || o.device

/-- Whether no device load of a lower LSID is still to be performed (R133): each has returned or is no device access; one
that has not fired holds the others back while the block can still move without them. -/
def deviceTurn (f : Frame) (l : Nat) : Bool :=
  (f.below l fun w _ => loadWord w).all fun x =>
    f.returned x.1 ||
    match f.op x.1 with
    | some o => (o.parts != [] || o.acc.isNone) && !o.device && o.parts.all fun p => p.pa.isSome
    | none => f.onlyDevices

/-- Perform part `j` of a device load: at its home, or in the system registers. -/
def deviceLoad (s : State) (k q slot j : Nat) : State :=
  match s.thr k, (s.frame k q).bind fun f => (f.op slot).map fun o => (f, o) with
  | some t, some (f, o) =>
    match o.parts[j]?, o.acc with
    | some p, some x =>
      let pa := p.pa.getD 0
      if !p.device then s
      else if p.kind = 4 then gotLoad { s with fresh := s.fresh + 1 } k q slot j (sysBytes s t.ctx pa p.len) false Sig.empty
      else sendPart s k q slot j (slotGrid (gridOfThr k) f.width slot) t
        { partMsg s k q slot j t p pa 5 x .ucLoad with node := 0 }
    | _, _ => s
  | _, _ => s

/-- DEVICE_ACCESS (R25, R133, R432): a device load or SRR of the oldest block is performed in its turn. -/
def execDeviceAccess (thr seq slot : Nat) (s : State) : Host.Outcome State Fault Refusal :=
  match s.thr thr, (s.frame thr seq).bind fun f => (f.op slot).map fun o => (f, o) with
  | some t, some (f, o) =>
    let l := o.lsid.getD 0
    if !o.device || !t.isOldest seq || f.stage != 1 || !acquireOk t f l || !deviceTurn f l || storesDue s thr then .next s
    else
      match takeLock s thr seq with
      | none => .next s
      | some s =>
        let s := touch (dropEager s thr seq) thr seq
        match o.i with
        | .srr _ =>
          let a := o.a.word.toNat % 2 ^ 56
          let s := enter s thr seq a true false
          .next (stepDone { s with fresh := s.fresh + 1 } thr f o (.s (sysRead s t.ctx a)))
        | _ => .next ((List.range o.parts.length).foldl (fun s j => deviceLoad s thr seq slot j) s)
  | _, _ => .next s

/-! ### SRR, SRW, TLBINV, CTXKILL -/

/-- A supervisor-only form in a block fetched with SUP = 0 fails (R429). -/
def stepSup (s : State) (k : Nat) (f : Frame) (o : Op) (go : State) : State :=
  if f.sup then go else stepFail s k f o 0x12 (efaultOf o.slot 0x16 o.lsid)

/-- The check of SRR and SRW (R432). -/
def stepSysOff (s : State) (k : Nat) (f : Frame) (o : Op) (go : State) : State :=
  stepSup s k f o
    (if field o.a.word.toNat 63 56 != 0 || o.a.word.toNat % 8 != 0 then stepFail s k f o 0x06 (efaultOf o.slot 0x32 o.lsid)
    else go)

/-- SRR waits for its turn as a device access (R432). -/
def stepSrr (s : State) (k : Nat) (_ : Thread) (f : Frame) (o : Op) : State := stepSysOff s k f o s

/-- SRW passes its check; a device access, it enters both signatures, and it writes at commit (R108, R432). -/
def stepSrw (s : State) (k : Nat) (_ : Thread) (f : Frame) (o : Op) : State :=
  stepSysOff s k f o (enter (touch (stepOk s k f o) k f.seq) k f.seq (o.a.word.toNat % 2 ^ 56) true true)

/-- TLBINV marks its block; the younger blocks are fetched again after it (R433). -/
def stepTlbinv (s : State) (k : Nat) (t : Thread) (f : Frame) (o : Op) : State :=
  let s' := stepOk s k f o
  stepSup s k f o
    (match t.frames.find? fun y => f.seq < y.seq with
    | some y => discardFrom s' k y.seq
    | none => s')

/-- CTXKILL marks its block (R434). -/
def stepCtxkill (s : State) (k : Nat) (_ : Thread) (f : Frame) (o : Op) : State := stepSup s k f o (stepOk s k f o)

/-- SRR (R432). -/
def execSrr (f : RsF) (s : State) : Host.Outcome State Fault Refusal :=
  fireStep s (.srr f) f.p true false false (some f.lsid.toNat) [f.t0, f.t1] stepSrr

/-- SRW (R432): written at commit. -/
def execSrw (f : LsF) (s : State) : Host.Outcome State Fault Refusal :=
  fireStep s (.srw f) f.p true true false (some f.lsid.toNat) [] stepSrw

/-- TLBINV (R433): performed at commit. -/
def execTlbinv (f : TlbinvF) (s : State) : Host.Outcome State Fault Refusal :=
  fireStep s (.tlbinv f) f.p true false false (some f.lsid.toNat) [] stepTlbinv

/-- CTXKILL (R434): performed at commit. -/
def execCtxkill (f : LsF) (s : State) : Host.Outcome State Fault Refusal :=
  fireStep s (.ctxkill f) f.p true false false (some f.lsid.toNat) [] stepCtxkill

/-- Whether a cluster lies in the instance of a TLBINV scope that holds cluster `clu` (R433). -/
def inScope (scope clu c : Nat) : Bool :=
  if scope = 2 then c == clu else if scope = 3 then dieOf c == dieOf clu else true

/-- Remove a context's translations that `hit` picks within a scope (R32, R433): from the TLBs, with the walk caches and the
walks of the dies; what waits for a walk asks again. -/
def invalidate (s : State) (ctx scope clu : Nat) (hit : Trans → Bool) : State :=
  let keep := fun (l : List Trans) => l.filter fun e => !(e.ctx == ctx && hit e)
  let onDie := fun (d : Nat) => 4 ≤ scope || d == dieOf clu
  let s := s.dies.foldl (fun s d => if onDie d.1 then
      (d.2.walks.filter (·.2.ctx == ctx)).foldl (fun s w => dropWalk s d.1 w.1) s else s) s
  { s with
    grids := s.grids.map fun (e : Nat × Grid) =>
      if inScope scope clu (cluOfGrid e.1) then (e.1, { e.2 with utlb := keep e.2.utlb }) else e
    clus := s.clus.map fun (e : Nat × Clu) =>
      let c := if inScope scope clu e.1 then { e.2 with tlb := keep e.2.tlb } else e.2
      (e.1, { c with misses := if onDie (dieOf e.1) then c.misses.map fun m =>
        if m.ctx = ctx && m.st = 2 then { m with st := 0 } else m else c.misses })
    dies := s.dies.map fun (e : Nat × Die) =>
      if onDie e.1 then (e.1, { e.2 with stlb := keep e.2.stlb, wcache := e.2.wcache.filter (·.1.1 != ctx) }) else e }

/-- TLBINV at commit (R433): MODE 01 takes the translations whose page holds Expand(a). -/
def commitTlbinv (s : State) (k : Nat) (t : Thread) (o : Op) (f : TlbinvF) : State :=
  let page := pageOf (expand (s.ctx t.ctx).pre o.a.word)
  invalidate s t.ctx f.scope.toNat (cluOf k) fun e => f.mode = 0#2 || e.covers t.ctx page

/-- The reason a CTXKILL records (R434). -/
def killReasonOf (a : Word) : Nat := if 0xF0 ≤ a.toNat % 256 then 0xEF else a.toNat % 256

end Sys2Proof.Machine
end

