-- ==== Sys2Proof/Machine/Commit.lean ====
section
/-! DEFINITION. The commit of a block: its conditions (R118, R199, R312, R363, R380), the arbiter (R108 to R110), what it
performs in LSID order with the drains of its releases (R99, R118, R461), and what its end writes (R222, R232, R250 to R252,
R256, R417, R431, R434). -/

namespace Sys2Proof.Machine

/-! ### Conditions -/

/-- Whether a tracked instruction does not hold its block back (R118): loads and atomics have their values, stores and line
operations are prepared, instructions that wait have their results. A prefetch never holds a block. -/
def Op.settled (o : Op) : Bool :=
  o.nul ||
  match o.acc with
  | some x =>
    if x.kind = 7 then true
    else (o.parts.all fun p => match p.st with
        | .got _ _ => true
        | _ => false) && (x.kind = 1 || x.kind = 5 || x.kind = 6 || o.ans.isSome)
  | none => !waitsInBlock o.i || o.ans.isSome

/-- Whether an access of a block has failed. -/
def Frame.failed (f : Frame) : Bool :=
  f.fails != [] || f.ops.any fun o => o.parts.any fun p => match p.st with
    | .fail _ _ => true
    | _ => false

/-- Whether a block holds a fault of any kind (R416). -/
def Frame.faulty (f : Frame) : Bool :=
  f.refused.isSome || f.colls != [] || f.faults != [] || f.failed || 2 ≤ f.shapes.length

/-- Whether a block's commit needs room in the write-through queue: it holds a `.wt` store, or one to a no-allocate page, on a grid
whose queue of 16 is full (R47, R64). -/
def wtBlocked (s : State) (k : Nat) (f : Frame) : Bool :=
  f.ops.any fun o => (o.acc.any fun x => x.kind == 1 || x.kind == 5) && (o.parts.any fun p => (p.cls == 2 && p.kind == 0) || p.kind == 1) &&
    16 ≤ (s.grid (slotGrid (gridOfThr k) f.width o.slot)).wtq.length

/-! ### The writes of a commit (R69, R71, R80, R85, R92) -/

/-- The scope of a Send or Spawn. -/
def sendScope (i : Instr) : Option (BitVec 3) :=
  match i with
  | .send f => some f.scope
  | .sendt f => some f.scope
  | .spawn f => some f.scope
  | .spawnp f => some f.scope
  | _ => none

/-- Whether an instruction carries out steps 1 and 2 of R99 before it is performed (R99, R100, R136, R277, R461): a release, also an
ACAS that does not write (R270), an Issue, and a Free, which every earlier event comes before (R126). -/
def opDrains (t : Thread) (o : Op) : Bool :=
  !o.nul && o.stage != 7 &&
  match o.acc with
  | some x => (x.kind = 1 || x.kind = 2 || x.kind = 5) && isRelease t x
  | none =>
    match o.i with
    | .fence g => fenceRel g
    | .bara _ => true
    | .stfree _ => true
    | i => isIssue i || (sendScope i).any (· != 0#3)

/-- A write that a block's commit makes beyond its core, or a slot that it frees: the instruction's slot, the part, the grid, and the
request by which it waits for its turn. -/
structure Outward where
  slot : Nat
  part : Nat
  grid : Nat
  m : Msg
  deriving DecidableEq, Repr

/-- The writes that a block's commit makes at a home or vault, and the slots that its STFREEs free there, each after those of lower
LSIDs (R69, R80, R85). -/
def outward (s : State) (k : Nat) (t : Thread) (f : Frame) : List Outward :=
  let fence := f.ops.any fun o => !o.nul && match o.i with
    | .fence g => fenceRel g
    | _ => false
  let mk := fun (o : Op) (j pa n cls : Nat) => (⟨o.slot, j, slotGrid (gridOfThr k) f.width o.slot,
    { Msg.mk0 .waiter (.acc k f.seq o.slot j) with
      ctx := t.ctx, gen := (s.ctx t.ctx).gen, pa := pa, len := n, cls := cls, wr := true, node := homeNode pa }⟩ : Outward)
  f.inOrder.flatMap fun o =>
    if o.nul then []
    else
      match o.acc with
      | some x =>
        if x.kind != 1 && x.kind != 5 then []
        else o.parts.zipIdx.filterMap fun p =>
          if p.1.kind = 4 || (p.1.kind = 0 && p.1.cls != 2 && p.1.cls != 4 && !fence && !isRelease t x) then none
          else some (mk o p.2 (p.1.pa.getD 0) p.1.len (if p.1.kind = 2 then 5 else p.1.cls))
      | none =>
        match o.i with
        | .stfree _ =>
          match entryOf s k t o with
          | some e =>
            let x := freedSlot s (cluOf k) e (freedBefore f o)
            [mk o 0 x.1 x.2 0]
          | none => []
        | _ => []

/-- Whether a write may be made now: nothing stands in its way, and no write that waits before it and keeps its place names some of its
bytes (R71, R92). -/
def Outward.clear (s : State) (w : Outward) : Bool :=
  let key := queueKey w.m.node (lineOf w.m.pa)
  let keeps := fun (e : Msg) => if 9 ≤ e.node then vaultKeeps s e else s.keepsPlace e
  !s.barred w.m && !((s.queue key).takeWhile fun n => !(s.msg n).any (·.src == w.m.src)).any fun n =>
    (s.msg n).any fun e => e.src.block != w.m.src.block && keeps e && meets e.pa e.len w.m.pa w.m.len

/-- The dirty lines and write-backs of a core that the drain of a block would find behind another block's reservation (R99, R271). -/
def flushBarred (s : State) (k q : Nat) (gs : List Nat) : Bool :=
  let behind := fun (line : Nat) => s.reserved { Msg.mk0 .siWb (.acc k q 0 0) with pa := 64 * line, len := 64 }
  gs.any (fun g => (s.grid g).l1.any fun l => l.dirty != 0#4 && !l.excl && behind l.line) ||
  s.net.any fun e => e.2.kind == .siWb && gs.any (fun g => e.2.agent == g + 1) && behind (lineOf e.2.pa)

/-- Whether nothing stands in the way of what a block's commit writes, which its grant then makes: its writes may be made and each has a
miss register (R62), and no drain of it finds another block's reservation. -/
def writesClear (s : State) (k : Nat) (t : Thread) (f : Frame) : Bool :=
  ((outward s k t f).all fun w => w.clear s && regReady s w.grid (lineOf w.m.pa)) &&
  !((f.ops.any (opDrains t)) && flushBarred s k f.seq (acqGrids k t f))

/-- The writes of a block that something stands in the way of go to their homes and vaults, each on a miss register, to wait in their
place (R62, R71, R85); a drain that another block's reservation would hold begins (R272). -/
def awaitWrites (s : State) (k : Nat) (t : Thread) (f : Frame) : State :=
  let s := (outward s k t f).foldl (fun s w =>
    if w.clear s || (waiterOf s k f.seq w.slot w.part).isSome || !regReady s w.grid (lineOf w.m.pa) then s
    else sendReg s w.grid w.m) s
  if (f.ops.any (opDrains t)) && flushBarred s k f.seq (acqGrids k t f) then startDrain s (acqGrids k t f) else s

/-- The writes of a block that wait with nothing in their way, while the block cannot commit, let the others pass (log 124). -/
def yieldWrites (s : State) (k q : Nat) : State :=
  let mine := s.net.filter fun e => e.2.kind == .waiter && e.2.src.block == some (k, q) && e.2.st == 1 && e.2.takes == 0 && !s.barred e.2
  let s := mine.foldl (fun s e => s.setMsg e.1 { e.2 with takes := 1 }) s
  ((mine.map fun e => queueKey e.2.node (lineOf e.2.pa)).eraseDups).foldl passKey s

/-- The arbiter has granted a block: its writes keep their places, it holds the vault granules that it writes or frees, and its STFREEs
wait no longer (R68, R69, R80). -/
def claimWrites (s : State) (k : Nat) (t : Thread) (f : Frame) : State :=
  (outward s k t f).foldl (fun s w =>
    let s := if 9 ≤ w.m.node then { s with holds := (gransOf w.m.pa w.m.len).foldl (fun h g =>
        if (tget h g).isSome then h else tset h g (.block k f.seq false)) s.holds } else s
    match waiterOf s k f.seq w.slot w.part with
    | none => s
    | some (n, m) =>
      if (f.op w.slot).any (·.acc.isNone) then leaveReg ((s.unqueue (queueKey m.node (lineOf m.pa)) n).delMsg n) (m.agent - 1) n
      else s.setMsg n { m with takes := 0 }) s

/-- Whether a leader's preceding block has fired the exit that selects this copy of a member's (R171). -/
def leaderChose (s : State) (t : Thread) (f : Frame) : Bool :=
  match t.pack, f.lead with
  | .following l, some _ =>
    match s.thr l with
    | none => true
    | some u =>
      if t.pos < u.pos then true
      else if t.pos = u.pos then u.pc = f.addr
      else (u.frames[t.pos - 1 - u.pos]?).any fun g => g.exit.any (·.dest == f.addr)
  | _, _ => true

/-- The commit conditions of the oldest block of a thread, its queue entries and the turns of its writes aside (R118, R199); a Waiting
member commits nothing (R176), nor a thread whose leash has run out (R181). -/
def commitable (s : State) (k : Nat) (t : Thread) (f : Frame) : Bool :=
  f.stage == 1 && !f.faulty && f.exit.isSome && f.mapFired && f.below_ 32 &&
  (wrEntries f.hdr).all (fun e => (f.wrTok e.1).isSome) && f.ops.all Op.settled &&
  f.ops.all (fun o => match o.acc with
    | some x => !(x.kind == 1 || x.kind == 5) || o.nul || storeReady s t k f o x
    | none => true) &&
  (match t.pack with | .waiting _ => false | _ => true) && !leashOut s k t && !wtBlocked s k f && leaderChose s t f

/-- The commit conditions of the oldest block of a thread, its queue entries aside: nothing stands in the way of its writes (R69, R73,
R80, R85). -/
def commitReady (s : State) (k : Nat) (t : Thread) (f : Frame) : Bool := commitable s k t f && writesClear s k t f

/-! ### The arbiter (R109, R110) -/

/-- Whether a block must be squashed. -/
def conflicts (c : Clu) (k : Nat) (f : Frame) : Bool :=
  match f.s0 with
  | none => false
  | some s0 =>
    let since := fun (n : Nat) => (n + 2 ^ 32 - s0) % 2 ^ 32
    64 < since c.seqC.toNat || c.hist.any fun h =>
      0 < since h.seq && since h.seq ≤ 64 && h.core != k && (f.rsig.meet h.sig || f.wsig.meet h.sig)

/-- Whether another block's lock keeps a block from its grant (R110). -/
def lockedOut (s : State) (k : Nat) (f : Frame) : Bool :=
  match (s.clu (cluOf k)).lock with
  | none => false
  | some l => l != (k, f.seq) && (s.frame l.1 l.2).any fun g => f.wsig.meet g.rsig || f.wsig.meet g.wsig

/-- The grid at which a thread's requests reach the arbiter (R109). -/
def requestGrid (k : Nat) (t : Thread) : Nat := coreGrid0 (gridOfThr k) t.width

/-- Whether a thread's request waits at its arbiter. -/
def requests (s : State) (k : Nat) : Bool :=
  match s.thr k with
  | none => false
  | some t => t.oldest.any fun f => f.s0.isSome && commitReady s k t f && (reserve s k f).isSome && !lockedOut s k f

/-- Where a thread's request stands in the arbiter's order: its grid after the one granted last, then its context after the
one granted last on that grid (R109). -/
def arbRank (s : State) (k : Nat) (t : Thread) : Nat :=
  let g := requestGrid k t
  4 * ((g % 8 + 15 - (s.clu (cluOf k)).lastGrid) % 8) + (k % 4 + 7 - (s.grid g).lastCtx) % 4

/-- Whether the arbiter takes a thread's request before every other that waits. -/
def arbFirst (s : State) (k : Nat) (t : Thread) : Bool :=
  s.thrs.all fun e => e.1 == k || cluOf e.1 != cluOf k || !requests s e.1 || arbRank s k t < arbRank s e.1 e.2

/-- The arbiter grants a block's commit: C advances, a nonempty write signature is recorded (R109). A block without an access
asks for no grant. -/
def grantCommit (s : State) (k : Nat) (t : Thread) (f : Frame) : State :=
  match f.s0 with
  | none => s
  | some _ =>
    let g := requestGrid k t
    let s := s.modClu (cluOf k) fun c =>
      let n := c.seqC + 1#32
      let h := if f.wsig.isEmpty then c.hist else c.hist ++ [⟨n.toNat, k, f.wsig⟩]
      { c with seqC := n, hist := h.drop (h.length - 64), lastGrid := g % 8 }
    s.modGrid g fun x => { x with lastCtx := k % 4 }

/-! ### What a commit performs (R118) -/

/-- Whether an instruction can begin to be performed now: no store of the thread to an atomic's line is on its way (R120, R271), a
line operation has its miss registers (R62), and an SRW, which follows every store of the thread, the lock (R110, R133). -/
def opReady (s : State) (k : Nat) (t : Thread) (f : Frame) (o : Op) : Bool :=
  o.nul ||
  match o.acc with
  | some x =>
    if x.kind = 2 then o.parts.all fun p => !storeInFlight s k (lineOf (p.pa.getD 0))
    else x.kind != 6 || lineOpReady s (acqGrids k t f) o
  | none =>
    match o.i with
    | .srw _ => !storesDue s k && (takeLock s k f.seq).isSome
    | _ => true

/-- The signature a Send or Spawn takes (R99, R100, R141). R349 and R400 name steps 1 to 3 of R99 only; here it clears the pending
signatures as step 5 has it (log 119). -/
def takeSig (s : State) (k : Nat) (t : Thread) (gs : List Nat) (sc : BitVec 3) : State × Option Sig :=
  if sc = 0#3 then (s, none) else (endFence (clearPend s gs) k, some (releaseSig s t gs))

/-- The drain of a command's issue is over: the command can start (R136). -/
def drainedIssue (s : State) (k : Nat) (t : Thread) (o : Op) : State :=
  let clu := cluOf k
  let id := ((o.ans.getD .null).word).toNat
  let go := fun (c : Capture) (e : Eng) => if c.uid = t.ser && c.id = id && e.st = 9 then { e with st := 0 } else e
  if isLcell o.i then s.modClu clu fun c => { c with
    fab := { c.fab with q := c.fab.q.map fun j => { j with eng := go j.cap j.eng } } }
  else if isCopy o.i then s.modClu clu fun c => { c with copyQ := c.copyQ.map fun j => { j with eng := go j.cap j.eng } }
  else s.modClu clu fun c => { c with jobs := c.jobs.map fun j => { j with eng := go j.cap j.eng } }

/-- Perform an instruction other than a store at its place in the commit (R118). -/
def performOp (s : State) (k : Nat) (t : Thread) (f : Frame) (o : Op) : State :=
  let q := f.seq
  let gs := acqGrids k t f
  if o.nul then s
  else
    match o.acc with
    | some x =>
      if x.kind = 2 then commitAtomic s k q o x
      else if x.kind = 6 then commitLine s k q o (match o.i with
        | .linv _ => true
        | _ => false)
      else if x.kind = 0 && x.fe = 2 then commitClear s o
      else s
    | none =>
      match o.i with
      | .fence g => commitFence s k q o g
      | .bara g => commitBara s k q o g
      | .barw g =>
        if o.ans = some (.s 1) then
          s.modThr k fun t => { t with arrive := tdel t.arrive (16 * g.scope.toNat + g.bid.toNat) }
        else s
      | .send g => let r := takeSig s k t gs g.scope; commitPort r.1 k o r.2
      | .sendt g => let r := takeSig s k t gs g.scope; commitPort r.1 k o r.2
      | .spawn g => let r := takeSig s k t gs g.scope; commitSpawn r.1 k q o r.2
      | .spawnp g => let r := takeSig s k t gs g.scope; commitSpawn r.1 k q o r.2
      | .stfree _ => commitStfree s k t o
      | .stclose _ => commitStclose s k t o
      | .tlbinv g => commitTlbinv s k t o g
      | .srw _ => dropEager (sysWrite ((takeLock s k q).getD s) (o.a.word.toNat % 2 ^ 56) 8) k q
      | i => if isIssue i then drainedIssue s k t o else commitPort s k o none

/-- The commands of a block and its changes of the slot table are issued in LSID order as its commit is granted: the cluster's one
issue order is that of the commits (R310, R363, R380). Its reservations end, for its commands hold the entries. -/
def issueAll (s : State) (k : Nat) (t : Thread) (f : Frame) : State :=
  unreserve ((f.inOrder.filter (!·.nul)).foldl (fun s o =>
    if isLcell o.i then commitFabric s k t f o
    else if isCopy o.i then commitCopy s k t f o
    else if ofMatrix o.i then commitMatrix s k t f o
    else s) s) k f.seq

/-! ### The end of a commit -/

/-- Kill the registers that a mask names: dead and zero (R251, R252). -/
def killRegs (t : Thread) (m : Word) : Thread :=
  let gm := BitVec.ofNat 128 (((List.range 128).map fun r => if kills m r then 2 ^ r else 0).foldl (· + ·) 0)
  let vm := BitVec.ofNat 64 (((List.range 64).map fun r => if kills m (128 + r) then 2 ^ r else 0).foldl (· + ·) 0)
  { t with
    g := t.g.filter fun e => !kills m e.1
    v := t.v.filter fun e => !kills m (128 + e.1)
    gdead := t.gdead ||| gm
    vdead := t.vdead ||| vm }

/-- Write a special register (R188, R417). -/
def writeSpec (x : Spec) (r : Nat) (w : Word) : Spec :=
  let w := w &&& specMask r
  match r with
  | 192 => { x with fcr := w }
  | 193 => { x with conv := w }
  | 195 => { x with ftab := w }
  | 196 => { x with ftlen := w }
  | 197 => { x with srkey := w }
  | 202 => { x with leash := w }
  | 203 => { x with jseed := w }
  | 204 => { x with tstat := w }
  | 205 => { x with epc := w }
  | 206 => { x with ecause := w }
  | 207 => { x with efault := w }
  | _ => x

/-- A write entry's token goes to its register; a null token leaves it (R164, R251). -/
def writeReg (t : Thread) (r : Nat) (x : Tok) : Thread :=
  if x.isNull || r = 0 then t
  else if r < 128 then { t with
    g := tset t.g r x.word
    gdead := t.gdead &&& ~~~BitVec.ofNat 128 (2 ^ r) }
  else if r < 192 then { t with
    v := tset t.v (r - 128) x.vec
    vdead := t.vdead &&& ~~~BitVec.ofNat 64 (2 ^ (r - 128)) }
  else { t with spec := writeSpec t.spec r x.word }

/-- Whether a block writes a register, and with what. -/
def written (f : Frame) (r : Nat) : Option Word :=
  ((f.entryOf r).bind f.wrTok).bind fun x => if x.isNull then none else some x.word

/-- The registers a commit leaves (R164, R222, R232, R233, R250 to R252): write entries, the flags ORed into `fcr`, the key a
new seed gives, `dmask`'s kill, the link, and the kill of a call or return by the `conv` its block had. -/
def commitRegs (t : Thread) (f : Frame) (cyc : Word) : Thread :=
  let conv := ((t.regFor cyc f.seq 193).getD .null).word
  let kind : Nat := (f.exit.map (·.kind)).getD 0
  let t := (wrEntries f.hdr).foldl (fun t e => writeReg t e.2 ((f.wrTok e.1).getD .null)) t
  let t := { t with spec := { t.spec with fcr := fcrMerge t.spec.fcr f.flags } }
  let t := match written f 203 with
    | some w => if (written f 197).isSome then t else { t with spec := { t.spec with srkey := seedKey t w } }
    | none => t
  let t := { t with ord := if (written f 197).isSome || (written f 203).isSome then 0 else t.ord + 1 }
  let t := match written f 194 with
    | some m => killRegs t m
    | none => t
  let t := if kind = 1 then writeReg t 3 (.s (f.retAddr.setWidth 64)) else t
  if kind = 1 || kind = 2 then killRegs t conv else t

/-- A committed block leaves its thread: counters, the next block address, the squash count (R110, R166, R435). -/
def commitThread (t : Thread) (f : Frame) (x : Exit) (cyc : Word) : Thread :=
  let t := ((commitRegs t f cyc).count 0 1 |>.count 4 f.nfired).count 5 f.l1miss
  { t with
    pc := x.dest
    pos := t.pos + 1
    arbSq := 0
    lockNext := false
    post := .idle
    frames := t.frames.filter (·.seq != f.seq) }

/-- The holds of a committed block end; those that waited for its granules go on (R68, R71). -/
def endHolds (s : State) (k q : Nat) : State :=
  let mine := fun (h : Hold) => match h with
    | .block t q' _ => t == k && q' == q
    | .eng _ _ _ => false
  let cs := ((s.holds.filter fun e => mine e.2).map fun e => vaultClu (16 * e.1)).eraseDups
  cs.foldl vaultPass { s with holds := s.holds.filter fun e => !mine e.2 }

/-- The width and pack forms of a committed block (R167, R168, R173 to R175). -/
def commitShape (s : State) (k : Nat) (f : Frame) : State :=
  f.ops.foldl (fun s o =>
    if o.nul then s
    else
      match o.i with
      | .compose _ => commitWidth s k o
      | .decomp _ => commitWidth s k o
      | .follow _ => commitFollow s k o
      | .unfollow _ => commitUnfollow s k
      | .rejoin _ => commitRejoin s k o
      | _ => s) s

/-- How a committed block's thread goes on: it is killed with its context (R434), ends (R352, R410), enters the system call
(R256), returns from a trap (R431), or runs on. -/
def commitExit (s : State) (k : Nat) (f : Frame) (x : Exit) (tstat epc : Word) : State :=
  let kill := f.ops.findSome? fun o => if o.nul then none else match o.i with
    | .ctxkill _ => some (killReasonOf o.a.word)
    | _ => none
  let ends := f.ops.any fun o => !o.nul && match o.i with
    | .hend _ => true
    | .tend _ => true
    | _ => false
  match kill with
  | some r => killCtx s ((s.thr k).elim 0 (·.ctx)) r
  | none =>
    if ends then endThread (endHandler s k) k
    else if x.kind = 3 then takeTrap s k 0x10 (BitVec.ofNat 64 x.arg) f.retAddr
    else if x.kind = 4 then s.modThr k (·.eret tstat epc)
    else s

/-- Whether a committing block whose operations have all been performed is still in flight: for the acknowledgement of a device store
or line operation (R133, R269). -/
def commitHeld (s : State) (k : Nat) : Bool :=
  s.net.any fun e => (match e.2.src with
    | .store _ t => t == k
    | _ => false) && (e.2.cls == 5 || e.2.kind == .ownWb || e.2.kind == .siWb || (e.2.kind == .ack && e.2.data.length == 64))

/-- The end of a commit: every operation of the block has been performed. A kill of its context that waited for it goes on (R146). -/
def finishCommit (s : State) (k q : Nat) : State :=
  match s.thr k, s.frame k q with
  | some t, some f =>
    let now := s.cycThr k
    let x := f.exit.getD ⟨0, t.pc, 0, 0⟩
    let tstat := ((t.regFor f.cyc q 204).getD .null).word
    let epc := ((t.regFor f.cyc q 205).getD .null).word
    let s := s.setThr k (commitThread t f x now)
    let s := relock (s.modClu (cluOf k) fun c => { c with lock := if c.lock = some (k, q) then none else c.lock }) (cluOf k)
    let s := endHolds s k q
    let s := commitExit (commitShape s k f) k f x tstat epc
    match (s.ctx t.ctx).dying with
    | some r => killCtx s t.ctx r
    | none => s
  | _, _ => s

/-- Mark a tracked instruction performed. -/
def markDone (s : State) (k q slot : Nat) : State := s.modFrame k q (·.modOp slot fun o => { o with stage := 9 })

/-- The instruction of a committing block that comes next in LSID order. -/
def Frame.nextOp (f : Frame) : Option Op := f.inOrder.find? (·.stage != 9)

/-- Perform what remains of a committing block, in LSID order, until something waits: a release for its drain, a store or STFREE for its
line or slot, the end for an acknowledgement. `drained` says that the drain of the next instruction is done. -/
def commitRun (s : State) (k q : Nat) (drained : Bool) : Nat → State
  | 0 => s
  | fuel + 1 =>
    match s.thr k, s.frame k q with
    | some t, some f =>
      match f.nextOp with
      | none => if commitHeld s k then s else finishCommit s k q
      | some o =>
        let gs := acqGrids k t f
        let done := fun (s : State) => commitRun (markDone s k q o.slot) k q false fuel
        let go := fun (s : State) =>
          match (if o.nul then none else o.acc) with
          | some x =>
            if x.kind = 1 || x.kind = 5 then
              let r := commitStore s k q o x
              if r.2 then done r.1 else r.1
            else done (performOp s k t f o)
          | none => done (performOp s k t f o)
        if !opReady s k t f o then s
        else if opDrains t o && !drained then
          let s' := startDrain s gs
          if drainDue s' k gs then s'.modThr k fun t => { t with post := .release } else go s'
        else go s
    | _, _ => s

/-- A block that meets its commit conditions asks the arbiter: squashed, or granted and performed (R109). Its grant is the commit that
the leash counts from (R181; log 49). -/
def commitNow (s : State) (k : Nat) (t : Thread) (f : Frame) : State :=
  let locked := (s.clu (cluOf k)).lock == some (k, f.seq)
  if !locked && conflicts (s.clu (cluOf k)) k f then arbSquash s k f.seq
  else
    let s := (claimWrites (grantCommit s k t f) k t f).modThr k fun t => { t with leash0 := s.cycThr k }
    let s := issueAll s k t f
    commitRun (s.modFrame k f.seq fun f => { f with stage := 2 }) k f.seq false 40

/-- COMMIT_REQUEST (R109, R199): the oldest block reserves its queue entries and, when nothing stands in the way of its writes and the
arbiter takes its request, is committed or squashed; a block that is being performed goes on. -/
def execCommitRequest (thr : Nat) (s : State) : Host.Outcome State Fault Refusal :=
  match s.thr thr, (s.thr thr).bind (·.oldest) with
  | some t, some f =>
    if f.stage = 2 then .next (if t.post = .idle then commitRun s thr f.seq false 40 else s)
    else if !commitable s thr t f then .next (yieldWrites s thr f.seq)
    else
      match reserve s thr f with
      | none => .next (yieldWrites s thr f.seq)
      | some s' =>
        if lockedOut s' thr f then .next (yieldWrites s' thr f.seq)
        else if !writesClear s' thr t f then .next (awaitWrites (yieldWrites s' thr f.seq) thr t f)
        else if (f.s0.isSome && !arbFirst s' thr t) then .next s' else .next (commitNow s' thr t f)
  | _, _ => .next s

/-- RELEASE_DRAIN_END (R99, R461): every acknowledgement the drain waited for has come; the release is performed and the
commit goes on. -/
def execReleaseDrainEnd (thr : Nat) (s : State) : Host.Outcome State Fault Refusal :=
  match s.thr thr, (s.thr thr).bind (·.oldest) with
  | some t, some f =>
    if t.post = .release && !drainDue s thr (acqGrids thr t f) && f.stage = 2 then
      .next (commitRun (s.modThr thr fun t => { t with post := .idle }) thr f.seq true 40)
    else .next s
  | _, _ => .next s

end Sys2Proof.Machine
end

