-- ==== Sys2Proof/Machine/Faults.lean ====
section
/-! DEFINITION. Which fault the oldest block of a thread raises (R204, R205, R38, R416), the fault record (R39), the Leash trap
(R181, R420), and the events that take them; each takes the trap of R413 through `trapBlock` and `takeTrap`. -/

namespace Sys2Proof.Machine

/-! ### The fault record (R38, R39) -/

/-- Insert into a list of failures by page; a page that is there keeps its first failure. -/
def insertFail (x : XFail) : List XFail → List XFail
  | [] => [x]
  | y :: r => if x.page < y.page then x :: y :: r else if x.page = y.page then y :: r else y :: insertFail x r

/-- The failures of one instruction, in page order, at most 16 (R38, R267). -/
def opFails (l : Nat) (o : Op) : List XFail :=
  match o.acc with
  | none => []
  | some x =>
    (o.parts.foldl (fun r p => match p.st with
      | .fail c lv => insertFail ⟨l, pageOf p.va, c, x.kind, lv⟩ r
      | _ => r) []).take 16

/-- The entries of a block's record: its fetch failures, then its data failures in LSID order (R38). -/
def Frame.record (f : Frame) : List XFail :=
  f.fails.foldl (fun r x => insertFail x r) [] ++
  (List.range 32).flatMap fun l => (f.ops.filter (·.lsid == some l)).flatMap (opFails l)

/-- The bytes of a record (R39). -/
def recordBytes (addr : VAddr) (ctx gen : Nat) (cyc : Word) (es : List XFail) : List Byte :=
  leBytes 8 (addr.toNat % 2 ^ 64) ++ leBytes 8 (addr.toNat / 2 ^ 64) ++
  leBytes 8 (es.length + 2 ^ 10 * ctx + 2 ^ 22 * gen) ++ leBytes 8 cyc.toNat ++ leBytes 32 0 ++
  es.flatMap fun e => leBytes 8 e.page ++ leBytes 8 (e.cause + 16 * e.kind + 128 * e.lsid + 4096 * e.level)

/-- The address of a context's fault area (R20). -/
def faultArea (c : Ctx) : Nat := field (c.word 2) 55 14 * 2 ^ 14

/-! ### Choosing (R416) -/

/-- Whether nothing of a block can move any more: its fetch has got all it can get, or no instruction of it can fire. -/
def Frame.still (f : Frame) : Bool := if f.stage = 0 then f.missing = [] && f.needed = [] && f.fails != [] else f.quiet

/-- The held fault of the lowest rank, the first one standing. -/
def lowest (l : List Held) (rank : Held → Nat) : Option Held :=
  l.foldl (fun a h => match a with
    | none => some h
    | some x => if rank h < rank x then some h else a) none

/-- The fault that two or more width and pack forms of one block make (R169, R406). -/
def Frame.shapeFault (f : Frame) : List Held :=
  if 2 ≤ f.shapes.length then
    let i := f.shapes.headD 0
    [⟨0x0D, BitVec.ofNat 64 (efaultOf i 0x13 none), none, i⟩]
  else []

/-- Class and `efault` of the fault that a block holds and that comes first in R416's order. -/
def Frame.first (f : Frame) : Option (Nat × Word) :=
  match f.refused, f.colls with
  | some e, _ => some (if field e.toNat 15 9 = 0 then 0x03 else 0x02, e)
  | none, c :: _ => some (0x04, BitVec.ofNat 64 (c.2 + 512 * c.1))
  | none, [] =>
    if f.failed then some (0x01, BitVec.ofNat 64 f.record.length)
    else
      let some_ := fun (h : Option Held) => h.map fun h => (h.cls, h.efault)
      let rank := fun (h : Held) => (h.lsid.map (· + 1)).getD 0
      some_ (lowest (f.faults.filter (·.cls == 0x08)) rank) <|>
      some_ (lowest (f.faults.filter fun h => h.cls != 0x08 && h.lsid.isSome) rank) <|>
      some_ (lowest ((f.faults.filter fun h => h.cls != 0x08 && h.lsid.isNone) ++ f.shapeFault) (·.slot))

/-- The fault that the oldest block of a thread raises now: a refused block at once, any other once nothing of it can move, or
when the leash runs out (R416). -/
def raises (s : State) (k : Nat) : Option (Thread × Frame × Nat × Word) :=
  match s.thr k, (s.thr k).bind (·.oldest) with
  | some t, some f =>
    if f.stage != 2 && (f.refused.isSome || f.still || leashOut s k t) then f.first.map fun x => (t, f, x.1, x.2) else none
  | _, _ => none

/-! ### Taking -/

/-- Whether the record of a translation fault waits: an engine owns a line of the fault area, or another block's reservation stands on
it (R85, R271). The faulting block's own reservations end with it. -/
def recordWaits (s : State) (k : Nat) (t : Thread) (f : Frame) : Bool :=
  let c := s.ctx t.ctx
  hwBlocked (discardFrom s k f.seq) (faultArea c) (recordBytes f.addr t.ctx c.gen (s.cycThr k) f.record).length

/-- Take the fault of the oldest block: a translation fault writes its record first (R38), a data error is counted (R450); in
a handler that has not cleared EXL it is a double fault (R418). -/
def raiseFault (s : State) (k : Nat) (t : Thread) (f : Frame) (cls : Nat) (efault : Word) : State :=
  let cyc := s.cycThr k
  let c := s.ctx t.ctx
  if !t.spec.tstat.getLsbD 2 && cls == 0x01 && recordWaits s k t f then s
  else
  let s :=
    if t.spec.tstat.getLsbD 2 then s
    else if cls = 0x01 then
      hwStore (discardFrom s k f.seq) (faultArea c) (recordBytes f.addr t.ctx c.gen cyc f.record)
    else if cls = 0x08 then s.modDie (dieOf (cluOf k)) fun d =>
      { d with errs := tset d.errs 6 (Nat.min ((tget d.errs 6).getD 0 + 1) 0xFFFFFFFF) }
    else s
  trapBlock s k f cls efault

/-- The event of one or two classes. -/
def faultEvent (s : State) (k : Nat) (p : Nat → Bool) : Host.Outcome State Fault Refusal :=
  match raises s k with
  | some (t, f, cls, e) => .next (if p cls then raiseFault s k t f cls e else s)
  | none => .next s

/-- REFUSED_BLOCK (R204). -/
def execRefusedBlock (thr : Nat) (s : State) : Host.Outcome State Fault Refusal :=
  faultEvent s thr fun c => c = 0x02 || c = 0x03
/-- TOKEN_COLLISION (R205). -/
def execTokenCollision (thr : Nat) (s : State) : Host.Outcome State Fault Refusal := faultEvent s thr (· == 0x04)
/-- TRANSLATION_FAULT (R38). -/
def execTranslationFault (thr : Nat) (s : State) : Host.Outcome State Fault Refusal := faultEvent s thr (· == 0x01)
/-- SIGNATURE_FAULT (R255). -/
def execSignatureFault (thr : Nat) (s : State) : Host.Outcome State Fault Refusal := faultEvent s thr (· == 0x05)
/-- MEMORY_OPERAND_FAULT (R273, R432). -/
def execMemoryOperandFault (thr : Nat) (s : State) : Host.Outcome State Fault Refusal := faultEvent s thr (· == 0x06)
/-- FULL_EMPTY_MISUSE (R67, R332). -/
def execFullEmptyMisuse (thr : Nat) (s : State) : Host.Outcome State Fault Refusal := faultEvent s thr (· == 0x07)
/-- DATA_ERROR (R65). -/
def execDataError (thr : Nat) (s : State) : Host.Outcome State Fault Refusal := faultEvent s thr (· == 0x08)
/-- MATRIX_FAULT (R305, R306). -/
def execMatrixFault (thr : Nat) (s : State) : Host.Outcome State Fault Refusal := faultEvent s thr (· == 0x09)
/-- PORT_FAULT (R348). -/
def execPortFault (thr : Nat) (s : State) : Host.Outcome State Fault Refusal := faultEvent s thr (· == 0x0A)
/-- LOOKUP_FAULT (R362). -/
def execLookupFault (thr : Nat) (s : State) : Host.Outcome State Fault Refusal := faultEvent s thr (· == 0x0B)
/-- STREAM_FAULT (R379). -/
def execStreamFault (thr : Nat) (s : State) : Host.Outcome State Fault Refusal := faultEvent s thr (· == 0x0C)
/-- THREAD_STATE_FAULT (R406, R169). -/
def execThreadStateFault (thr : Nat) (s : State) : Host.Outcome State Fault Refusal := faultEvent s thr (· == 0x0D)
/-- CLUSTER_MAP_FAULT (R178). -/
def execClusterMapFault (thr : Nat) (s : State) : Host.Outcome State Fault Refusal := faultEvent s thr (· == 0x0E)
/-- TRAP_INSTRUCTION (R430). -/
def execTrapInstruction (thr : Nat) (s : State) : Host.Outcome State Fault Refusal := faultEvent s thr (· == 0x11)
/-- PRIVILEGED_INSTRUCTION (R429). -/
def execPrivilegedInstruction (thr : Nat) (s : State) : Host.Outcome State Fault Refusal := faultEvent s thr (· == 0x12)

/-- What a thread waits on, as `efault` of a Leash trap numbers it (R415): 1 full/empty, 2 ownership or reservation, 3 BARW, 4 SEND under
BLOCK, 5 a queue entry or the bucket, 6 follow Waiting, 7 anything else. -/
def waitsOn (s : State) (k : Nat) (t : Thread) : List Nat :=
  let on := fun (n : Nat) (b : Bool) => if b then [n] else []
  let ofBlock := match t.oldest with
    | none => []
    | some f =>
      let ms := (s.net.filter fun e => e.2.src.block == some (k, f.seq)).map (·.2)
      let barw := fun (o : Op) => match o.i with
        | .barw _ => o.ans.isNone && !o.nul
        | _ => false
      on 1 (ms.any fun m => m.kind == .vault && m.sub != 0) ++
      on 2 (ms.any fun m => m.kind == .ownership || m.kind == .waiter || (m.wr && m.st == 1 && s.barred m)) ++
      on 3 (f.ops.any barw) ++ on 4 (ms.any fun m => m.kind == .grantReq) ++ on 5 ([0, 1, 2].any fun g => needsOf s k f g != [])
  let l := ofBlock ++ match t.pack with
    | .waiting _ => [6]
    | _ => []
  if l = [] then [7] else l

/-- What the hardware last saw a thread wait on (R415): 0, not known, or one of the things it waits on; which is a free value (log 10). -/
def waitSeen (s : State) (k : Nat) (t : Thread) : Word :=
  let l := 0 :: waitsOn s k t
  BitVec.ofNat 64 (l.getD ((Config.freeWaitKind s.fresh).toNat % l.length) 0)

/-- A Leash trap (R181, R344, R420): counted; a handler no longer counts toward its pattern; the oldest block and the younger
ones are discarded, or, with no block in flight, nothing is. -/
def leashTake (s : State) (k : Nat) (t : Thread) : State :=
  let e := waitSeen s k t
  let s := { s with fresh := s.fresh + 1 }
  if t.spec.tstat.getLsbD 2 then killCtx s t.ctx 0xFE
  else
    let s := (endHandler s k).modThr k fun t => { t.count 7 1 with pat := none }
    match t.oldest with
    | some f => trapBlock s k f 0x0F e
    | none => takeTrap s k 0x0F e t.pc

/-- LEASH_TRAP (R420, R416, R422): a fault the oldest block holds is raised in its place; a block that is being performed
completes first; a pre-emption stop comes before it. -/
def execLeashTrap (thr : Nat) (s : State) : Host.Outcome State Fault Refusal :=
  match s.thr thr with
  | none => .next s
  | some t =>
    if !leashOut s thr t || t.stop || t.oldest.any (·.stage == 2) then .next s
    else
      match raises s thr with
      | some (t, f, cls, e) => .next (raiseFault s thr t f cls e)
      | none => .next (leashTake s thr t)

end Sys2Proof.Machine
end

