-- ==== Sys2Proof/Machine/FpScalar.lean ====
section
/-! DEFINITION. The scalar floating-point instructions (R246 to R248). -/

namespace Sys2Proof.Machine

/-- A floating-point operand in a token: FP64 whole, FP32 in bits [31:0] (R246). -/
def fpBits (F : Fmt) (x : Tok) : Nat := x.word.toNat % 2 ^ fmtWidth F

/-- A two- or one-operand instruction: it rounds under `fcr`.RM at element 0 (R246, R233). -/
def fscalar (f : GF) (s : State) (F : Fmt) (op : FOp) (two : Bool) : Host.Outcome State Fault Refusal :=
  fireEnv s f.p true two false [f.t0, f.t1] fun v a b _ =>
    let r := fop op F (rmOfFcr v.fcr) v 0 (fpBits F a) (fpBits F b) 0
    (.s (BitVec.ofNat 64 r.1), r.2)

/-- FFMA: a × b + c, rounded once (R248); never predicated. -/
def ffma (f : FmaF) (s : State) (F : Fmt) : Host.Outcome State Fault Refusal :=
  fireEnv s 0#2 true true true [f.t0, f.t1] fun v a b c =>
    let r := fop .fma F (rmOfFcr v.fcr) v 0 (fpBits F a) (fpBits F b) (fpBits F c)
    (.s (BitVec.ofNat 64 r.1), r.2)

/-- FCMP: 1 when the relation holds, else 0 (R247). -/
def fcmpOp (f : GF) (s : State) (F : Fmt) (r : Rel) : Host.Outcome State Fault Refusal :=
  fireEnv s f.p true true false [f.t0, f.t1] fun v a b _ =>
    let x := fcmp r F v (fpBits F a) (fpBits F b)
    (.s (tok x.1), x.2)

/-- FCVT between the types `src` and `dst` of R210, under `fcr`.RM or always toward zero (R220, R246). -/
def fconv (f : GF) (s : State) (src dst : Nat) (rm : Option Rm) : Host.Outcome State Fault Refusal :=
  fireEnv s f.p true false false [f.t0, f.t1] fun v a _ _ =>
    let r := convElem src dst true (rm.getD (rmOfFcr v.fcr)) v 0 (a.word.toNat % 2 ^ laneWidth src)
    (.s (BitVec.ofNat 64 r.1), r.2)

/-- FADD.f64 (R246). -/
def execFaddF64 (f : GF) (s : State) : Host.Outcome State Fault Refusal :=
  fscalar f s fmtF64 .add true

/-- FSUB.f64 (R246). -/
def execFsubF64 (f : GF) (s : State) : Host.Outcome State Fault Refusal :=
  fscalar f s fmtF64 .sub true

/-- FMUL.f64 (R246). -/
def execFmulF64 (f : GF) (s : State) : Host.Outcome State Fault Refusal :=
  fscalar f s fmtF64 .mul true

/-- FDIV.f64 (R246). -/
def execFdivF64 (f : GF) (s : State) : Host.Outcome State Fault Refusal :=
  fscalar f s fmtF64 .div true

/-- FMIN.f64 (R246). -/
def execFminF64 (f : GF) (s : State) : Host.Outcome State Fault Refusal :=
  fscalar f s fmtF64 .min true

/-- FMAX.f64 (R246). -/
def execFmaxF64 (f : GF) (s : State) : Host.Outcome State Fault Refusal :=
  fscalar f s fmtF64 .max true

/-- FSQRT.f64 (R246). -/
def execFsqrtF64 (f : GF) (s : State) : Host.Outcome State Fault Refusal :=
  fscalar f s fmtF64 .sqrt false

/-- FFMA.f64 (R248): c arrives at the predicate port. -/
def execFfmaF64 (f : FmaF) (s : State) : Host.Outcome State Fault Refusal :=
  ffma f s fmtF64

/-- FCMP.eq.f64 (R247). -/
def execFcmpEqF64 (f : GF) (s : State) : Host.Outcome State Fault Refusal :=
  fcmpOp f s fmtF64 .eq

/-- FCMP.lt.f64 (R247). -/
def execFcmpLtF64 (f : GF) (s : State) : Host.Outcome State Fault Refusal :=
  fcmpOp f s fmtF64 .lt

/-- FCMP.le.f64 (R247). -/
def execFcmpLeF64 (f : GF) (s : State) : Host.Outcome State Fault Refusal :=
  fcmpOp f s fmtF64 .le

/-- FCMP.un.f64 (R247). -/
def execFcmpUnF64 (f : GF) (s : State) : Host.Outcome State Fault Refusal :=
  fcmpOp f s fmtF64 .un

/-- FADD.f32 (R246). -/
def execFaddF32 (f : GF) (s : State) : Host.Outcome State Fault Refusal :=
  fscalar f s fmtF32 .add true

/-- FSUB.f32 (R246). -/
def execFsubF32 (f : GF) (s : State) : Host.Outcome State Fault Refusal :=
  fscalar f s fmtF32 .sub true

/-- FMUL.f32 (R246). -/
def execFmulF32 (f : GF) (s : State) : Host.Outcome State Fault Refusal :=
  fscalar f s fmtF32 .mul true

/-- FDIV.f32 (R246). -/
def execFdivF32 (f : GF) (s : State) : Host.Outcome State Fault Refusal :=
  fscalar f s fmtF32 .div true

/-- FMIN.f32 (R246). -/
def execFminF32 (f : GF) (s : State) : Host.Outcome State Fault Refusal :=
  fscalar f s fmtF32 .min true

/-- FMAX.f32 (R246). -/
def execFmaxF32 (f : GF) (s : State) : Host.Outcome State Fault Refusal :=
  fscalar f s fmtF32 .max true

/-- FSQRT.f32 (R246). -/
def execFsqrtF32 (f : GF) (s : State) : Host.Outcome State Fault Refusal :=
  fscalar f s fmtF32 .sqrt false

/-- FFMA.f32 (R248): c arrives at the predicate port. -/
def execFfmaF32 (f : FmaF) (s : State) : Host.Outcome State Fault Refusal :=
  ffma f s fmtF32

/-- FCMP.eq.f32 (R247). -/
def execFcmpEqF32 (f : GF) (s : State) : Host.Outcome State Fault Refusal :=
  fcmpOp f s fmtF32 .eq

/-- FCMP.lt.f32 (R247). -/
def execFcmpLtF32 (f : GF) (s : State) : Host.Outcome State Fault Refusal :=
  fcmpOp f s fmtF32 .lt

/-- FCMP.le.f32 (R247). -/
def execFcmpLeF32 (f : GF) (s : State) : Host.Outcome State Fault Refusal :=
  fcmpOp f s fmtF32 .le

/-- FCMP.un.f32 (R247). -/
def execFcmpUnF32 (f : GF) (s : State) : Host.Outcome State Fault Refusal :=
  fcmpOp f s fmtF32 .un

/-- FCVT.f64.f32 (R246): exact widening. -/
def execFcvtF64F32 (f : GF) (s : State) : Host.Outcome State Fault Refusal :=
  fconv f s 9 8 none

/-- FCVT.f32.f64 (R246). -/
def execFcvtF32F64 (f : GF) (s : State) : Host.Outcome State Fault Refusal :=
  fconv f s 8 9 none

/-- FCVT.i64.f64 (R220). -/
def execFcvtI64F64 (f : GF) (s : State) : Host.Outcome State Fault Refusal :=
  fconv f s 8 3 none

/-- FCVT.f64.i64 (R246). -/
def execFcvtF64I64 (f : GF) (s : State) : Host.Outcome State Fault Refusal :=
  fconv f s 3 8 none

/-- FCVT.i64.f32 (R220). -/
def execFcvtI64F32 (f : GF) (s : State) : Host.Outcome State Fault Refusal :=
  fconv f s 9 3 none

/-- FCVT.f32.i64 (R246). -/
def execFcvtF32I64 (f : GF) (s : State) : Host.Outcome State Fault Refusal :=
  fconv f s 3 9 none

/-- FCVT.i64.f64.rtz (R220): always toward zero. -/
def execFcvtI64F64Rtz (f : GF) (s : State) : Host.Outcome State Fault Refusal :=
  fconv f s 8 3 (some .rtz)

/-- FCVT.i64.f32.rtz (R220): always toward zero. -/
def execFcvtI64F32Rtz (f : GF) (s : State) : Host.Outcome State Fault Refusal :=
  fconv f s 9 3 (some .rtz)

end Sys2Proof.Machine
end

