-- ==== Sys2Proof/Machine/Outside.lean ====
section
/-! DEFINITION. What reaches the module from outside (chapter 19): memory accesses of hosts and other modules (R91, R113, R437),
posts to the port window (R14, R15, R438), bring-up (R443 to R447), links (R440), temperature (R451) and register writes
(R441). The mailbox commands are in `Mailbox`. -/

namespace Sys2Proof.Machine

/-- The module as a bring-up step leaves it. -/
def ready (s : State) : Bool := s.mod.st == .ready

/-! ### Accesses to memory -/

/-- The source of an access through an agent: 64 and 65 are host ports A and B, below 64 a peer port's host-origin access
from that package (R113). -/
def hostSrc (agent : Nat) : Src := .ext (if agent < 64 then 128 + agent else agent)

/-- The physical address an agent names: a host's device address is an HBM offset (R437); a peer names package offsets. -/
def hostPa (s : State) (agent pa : Nat) : Nat := if agent < 64 then pa else s.mod.pkg * 2 ^ 50 + pa

/-- Whether an agent's request of `n` bytes lies in the memory exposed to it (R437), no vault of which is (R18), and the module serves it
(R445). -/
def exposed (s : State) (agent pa n : Nat) : Bool :=
  ready s && pa % 64 + n ≤ 64 &&
  if agent < 64 then paPkg pa = s.mod.pkg && paKind pa < 2 && populated s.mod.cxl pa else pa < 2 ^ 40

/-- Send an access from outside and let it enter its home, behind the earlier ones of its origin (R439); a request that takes a
copy first needs its place in the remote filter (R112). -/
def enterHome (s : State) (m : Msg) : State :=
  let n := s.fresh
  let s := s.send m
  if overtakes s n m then s
  else if 9 ≤ m.node then vaultArrive s n m (nowAt s m)
  else if (m.kind = .atomic || m.kind = .engOwn) && writeComing s (lineOf m.pa) then s
  else if m.holdsOut && !filterRoom s (lineOf m.pa) then filterEvict s (lineOf m.pa)
  else homeArrive s n m (nowAt s m)

/-- A completion that carries no memory: a poisoned read, or a discarded write (R437). -/
def emptyAnswer (s : State) (kind : MKind) (src : Src) (pa n : Nat) : State :=
  s.send { Msg.mk0 kind src with pa := pa, len := n, poison := 15#4, data := (List.replicate n 0#8).map some }

/-- HOST_HDM_READ (R437, R439, R474): a line or part of one is read at its home; `len` 0 asks for the whole line to own it. -/
def execHostHdmRead (agent pa len : Nat) (s : State) : Host.Outcome State Fault Refusal :=
  if !exposed s agent pa len then .next (emptyAnswer s .reply (hostSrc agent) pa len)
  else
    let a := hostPa s agent pa
    .next (enterHome s { Msg.mk0 (if len = 0 then .ownership else .ownLoad) (hostSrc agent) with
      pa := if len = 0 then a / 64 * 64 else a, len := if len = 0 then 64 else len, cls := 1, scope := 5,
      node := homeNode a })

/-- HOST_WRITE (R91, R113, R437): bytes of a line, without a signature; the link may bring them poisoned (R65). -/
def execHostWrite (agent pa : Nat) (x : LinkData) (s : State) : Host.Outcome State Fault Refusal :=
  if !exposed s agent pa x.bytes.length then .next (emptyAnswer s .ack (hostSrc agent) pa 0)
  else
    let a := hostPa s agent pa
    .next (enterHome s { Msg.mk0 .wtUcStore (hostSrc agent) with
      pa := a, len := x.bytes.length, data := x.bytes.map some, cls := 4, scope := 5, wr := true, node := homeNode a, poison := x.pz })

/-- The request that an access of another module makes at its home (R91, R113): 0 load, 1 store, 2 load or 3 store that is
qualified `.fe`, 4 load `.fec` or 5 store `.fs`, 8 an engine's ownership or hold, 9 an engine's write, 16 + n the atomic n of
R270. An `.own` store asks for the line; a release writes at the home, as this package's does. -/
def peerReq (kind cls : Nat) (vault rel : Bool) : MKind × Nat × Bool :=
  if 16 ≤ kind then (.atomic, kind - 16, true)
  else if kind = 8 then (.engOwn, 0, true)
  else if kind = 9 then (.engWrite, 0, true)
  else if vault then (.vault, kind / 2 % 3, kind % 2 = 1)
  else if kind % 2 = 0 then (if cls = 1 then .ownLoad else if cls = 4 then .ucLoad else .wtSiLoad, 0, false)
  else (if rel then .wtUcStore else if cls = 1 then .ownership else if cls = 3 then .siWb else .wtUcStore, 0, true)

/-- An engine command of another module completes in a vault (R87, R113): the bits of its destination granules are set and their
holds end, in one step. -/
def peerEngineDone (s : State) (pkg pa n : Nat) : State :=
  let gs := gransOf pa n
  let s := s.setBits pa n true
  passAt { s with holds := s.holds.filter fun e => !(gs.contains e.1 && Hold.ofCmd (.ext pkg) e.2) } pa

/-- The owner of another package's line takes it back from this package's proxy (R95, R112): by BISnpInv, or by BISnpData where the
proxy keeps it shared. -/
def peerRecall (s : State) (pkg pa : Nat) (inval : Bool) : State :=
  let line := lineOf pa
  if !s.foreign line || paPkg pa != pkg || (s.dir 0 line).up = .i then s
  else enterHome s { Msg.mk0 .recall (.ext pkg) with pa := 64 * line, len := 64, wr := inval, takes := 1 }

/-- PEER_ACCESS (R113): it acts at its home as the same access of the home's own package, with its class, scope and signature.
Kind 10 is the completion of an engine's command in a vault; 32 and 33 recall a line of the sender's own memory. -/
def execPeerAccess (pkg kind pa cls scope len : Nat) (x : LinkData) (sig : Option (BitVec 1024 × Nat × Bool))
    (s : State) : Host.Outcome State Fault Refusal :=
  let n := Nat.min len (64 - pa % 64)
  if kind = 32 || kind = 33 then .next (if ready s then peerRecall s (pkg % 64) pa (kind = 32) else s)
  else if !ready s || paPkg pa != s.mod.pkg || paKind pa = 3 || !populated s.mod.cxl pa then
    .next (emptyAnswer s (if kind % 2 = 0 || 16 ≤ kind then .reply else .ack) (.ext (pkg % 64)) pa n)
  else
    let r := peerReq kind cls (paKind pa == 2) sig.isSome
    let whole := r.1 = .ownLoad || r.1 = .ownership || r.1 = .wtSiLoad || (r.1 = .engOwn && paKind pa != 2)
    if kind = 10 then .next (peerEngineDone s (pkg % 64) pa len)
    else if r.1 = .engWrite then
      .next (s.send { Msg.mk0 .engWrite (.ext (pkg % 64)) with
        pa := pa, len := n, data := (x.bytes.take n).map some, cls := cls, wr := true, node := homeNode pa, poison := x.pz })
    else .next (enterHome s { Msg.mk0 r.1 (.ext (pkg % 64)) with
      pa := if whole then pa / 64 * 64 else pa, len := if whole then 64 else n, data := (x.bytes.take n).map some, cls := cls,
      scope := scope, sub := r.2.1, wr := r.2.2, arg := leNat (x.bytes.drop n),
      sig := sig.map fun g => ⟨g.1, g.2.1, g.2.2⟩, node := homeNode pa, poison := x.pz })

/-! ### The port window (R14, R15, R438) -/

/-- The fields of a post: cluster key, port, tagged, tag, and whether every rule of its address holds. -/
structure Window where
  clu : Nat
  port : Nat
  tagged : Bool
  tag : Nat
  ok : Bool
  deriving DecidableEq, Repr

/-- The port-window fields of an address: a BAR2 offset of a host port (R438), or a virtual address of a peer's write (R10). -/
def windowOf (agent addr : Nat) : Window :=
  if 64 ≤ agent then
    { clu := 80 * field addr 38 36 + field addr 35 29, port := field addr 28 23, tagged := addr.testBit 22,
      tag := field addr 21 6,
      ok := addr % 64 = 0 && addr < 2 ^ 39 && field addr 35 29 ≤ 79 && (addr.testBit 22 || field addr 21 6 = 0) }
  else
    { clu := 80 * field addr 32 30 + field addr 29 23, port := field addr 22 17, tagged := addr.testBit 39,
      tag := field addr 55 40,
      ok := field addr 16 0 = 0 && field addr 71 56 = 0 && field addr 29 23 ≤ 79 && (addr.testBit 39 || field addr 55 40 = 0) }

/-- The sender id of a post (R15). -/
def windowSender (agent : Nat) : Nat := if agent = 64 then 0xFF1 else if agent = 65 then 0xFF2 else 0xE00 + agent

/-- A post discarded by the I/O die is counted (R14, R450). -/
def countIo (s : State) : State := s.modMod fun m => { m with ioErr := Nat.min (m.ioErr + 1) 0xFFFFFFFF }

/-- The whole words of a run of bytes, each little-endian (R14). -/
def wordsLe (bs : List Byte) : List Word :=
  (List.range (bs.length / 8)).map fun i => BitVec.ofNat 64 (leNat ((bs.drop (8 * i)).take 8))

/-- PORT_WINDOW_POST (R14, R333, R438): a write of 1 to 8 whole words becomes a message in the posting queue; one that breaks a rule, or
that comes before READY (R445), is discarded and counted. With the queue full the write is not taken yet. -/
def execPortWindowPost (agent addr : Nat) (bytes : List Byte) (s : State) : Host.Outcome State Fault Refusal :=
  let w := windowOf agent addr
  if !ready s || !w.ok || bytes.length % 8 != 0 || bytes.length = 0 || 64 < bytes.length || 65 < agent then .next (countIo s)
  else if 64 ≤ s.mod.postq.length then .next s
  else
    let n := s.fresh
    let s := askPort s (.ext agent) 0xFFF w.clu w.port ⟨wordsLe bytes, w.tag, w.tagged, windowSender agent, 0⟩ 5
    .next (s.modMod fun m => { m with postq := m.postq ++ [n] })

/-- Whether a posted write of host port 1 (A) or 2 (B) is still to be performed; its later register writes wait (R439). -/
def posting (s : State) (port : Nat) : Bool := s.mod.postq.any fun n => (s.msg n).any (·.src == .ext (63 + port))

/-! ### Links and temperature -/

/-- PEER_LINK_DOWN (R440): the packages that can no longer be reached leave the presence mask. -/
def execPeerLinkDown (lost : Word) (s : State) : Host.Outcome State Fault Refusal :=
  let own := BitVec.ofNat 64 (2 ^ s.mod.pkg)
  .next (s.modMod fun m => { m with presence := m.presence &&& ~~~(lost &&& ~~~own) })

/-- The owner of LOCK lets it go: a load it has not committed with GO fails (R443, R445). -/
def freeLock (m : Module) (port : Nat) : Module :=
  if m.lock != port then m
  else if m.st = .loading && !m.vbusy then { m with lock := 0, st := .failed, failc := 0x07 }
  else { m with lock := 0 }

/-- HOST_LINK_DOWN (R443, R445): the link of port 1 (A) or 2 (B) goes down, or the port is reset. -/
def execHostLinkDown (port : Nat) (s : State) : Host.Outcome State Fault Refusal :=
  .next (if port = 0 then s else s.modMod (freeLock · port))

/-- The island's clock and REFILL under the present limit: free values within R451's ranges (log 5). -/
def setIsland (m : Module) (i : Nat) (lower : Bool) : Module :=
  let t := (tget m.throt i).getD 0
  let old := (tget m.freq i).getD 1600
  let f := Nat.max 400 (Nat.min 1600 (Config.freeFreq i m.power t).toNat)
  let r := Nat.max 1 (Nat.min 64 (Config.freeRefill i m.power t).toNat)
  { m with
    freq := tset m.freq i (if lower then Nat.min old f else f)
    refill := if 16 ≤ i then m.refill else tset m.refill i (if lower then Nat.min (m.refillOf i) r else r) }

/-- THERMAL_REDUCTION (R451): the island's clock and REFILL are lowered, and the reduction is counted. -/
def execThermalReduction (island : Nat) (s : State) : Host.Outcome State Fault Refusal :=
  if 18 ≤ island then .next s
  else .next (s.modMod fun m =>
    setIsland { m with throt := tset m.throt island (Nat.min ((tget m.throt island).getD 0 + 1) 0xFFFF) } island true)

/-! ### Bring-up (R443 to R446) -/

/-- A module reset (R445): everything is as after power-up; the model's counter and agenda go on. -/
def moduleReset (s : State) : State := { State.reset with agenda := s.agenda, fresh := s.fresh }

/-- POWER_UP (R445). -/
def execPowerUp (s : State) : Host.Outcome State Fault Refusal := .next (moduleReset s)

/-- FUNDAMENTAL_RESET of both ports (R445). -/
def execFundamentalReset (s : State) : Host.Outcome State Fault Refusal := .next (moduleReset s)

/-- Take LOCK, if it is free (R443). -/
def takeMgmt (m : Module) (port : Nat) : Module := if m.lock = 0 then { m with lock := port } else m

/-- ACQ of port 1 (A) or 2 (B) (R443); it waits for the port's earlier posted writes (R439). -/
def execAcq (port : Nat) (s : State) : Host.Outcome State Fault Refusal :=
  .next (if posting s port || port = 0 || 2 < port then s else s.modMod (takeMgmt · port))

/-- REL (R443): by its owner. -/
def execRel (port : Nat) (s : State) : Host.Outcome State Fault Refusal :=
  .next (if posting s port || port = 0 then s else s.modMod (freeLock · port))

/-- START with a length (R445): what is not in the table has no effect. -/
def startLoad (m : Module) (len : Nat) : Module :=
  if m.st != .powered && m.st != .failed then m
  else if 0x2000 ≤ len && len ≤ 0x1000000 then { m with st := .loading, failc := 0, len := len, win := [], winBad := false, vbusy := false }
  else { m with st := .failed, failc := 0x03 }

/-- START (R444, R445). -/
def execStart (port : Nat) (len : BitVec 25) (s : State) : Host.Outcome State Fault Refusal :=
  .next (if posting s port then s
    else if s.mod.lock != port || port = 0 then s.modMod ignored else s.modMod (startLoad · len.toNat))

/-- The image that the load window holds. -/
def image (m : Module) : List Byte := mread m.win 0 m.len

/-- GO in LOADING: MEAS is the digest of the image and the checks begin (R446). -/
def startVerify (m : Module) : Module :=
  if m.st = .loading && !m.vbusy then { m with vbusy := true, meas := Config.sha256 (image m) } else m

/-- GO (R444, R445). -/
def execGo (port : Nat) (s : State) : Host.Outcome State Fault Refusal :=
  .next (if posting s port then s
    else if s.mod.lock != port || port = 0 then s.modMod ignored else s.modMod startVerify)

/-- RESET (R444, R445). -/
def execReset (port : Nat) (s : State) : Host.Outcome State Fault Refusal :=
  .next (if posting s port then s else if s.mod.lock != port || port = 0 then s.modMod ignored else moduleReset s)

/-- A write of the lock owner to the load window (R445): bytes at or beyond LEN are ignored. -/
def loadWrite (m : Module) (port off : Nat) (bytes : List Byte) : Module :=
  if m.st != .loading then m
  else if m.lock != port || port = 0 then ignored m
  else if m.vbusy then m
  else { m with win := mwrite m.win off (bytes.take (m.len - off)) }

/-- LOAD_WINDOW_WRITE (R445) at an offset within the window. -/
def execLoadWindowWrite (port off : Nat) (bytes : List Byte) (s : State) : Host.Outcome State Fault Refusal :=
  .next (if posting s port then s else s.modMod (loadWrite · port off bytes))

/-- The check of R446 that an image without an uncorrectable error fails first; 0 when it passes. -/
def checkImage (img : List Byte) : Nat :=
  let w := fun (o n : Nat) => leNat ((img.drop o).take n)
  let key := (img.drop 0x10).take 32
  let body := img.drop 0x2000
  if w 0 4 != 0x5A474657 || w 6 2 != 0 || w 8 4 + 0x2000 != img.length || w 0xC 4 != 0 || w 0x1EE0 288 != 0 then 0x08
  else if Config.sha256 key != Config.keyHash then 0x02
  else if w 4 2 < Config.minSvn.toNat then 0x04
  else if !Config.slhDsaVerify key (img.take 0x30 ++ body) ((img.drop 0x30).take 7856) then 0x01
  else 0

/-- VERIFICATION_COMPLETE (R445, R446). -/
def execVerificationComplete (s : State) : Host.Outcome State Fault Refusal :=
  .next (s.modMod fun m =>
    if m.st = .loading && m.vbusy then
      let c := if m.winBad then 0x06 else checkImage (image m)
      if c = 0 then { m with st := .verified, vbusy := false, svn := BitVec.ofNat 16 (leNat (((image m).drop 4).take 2)) }
      else { m with st := .failed, vbusy := false, failc := c }
    else m)

/-- The Kennel entries of a KSIZE code: 0, 64, 128 or 256 KiB in entries of 128 bytes (R332). -/
def kennelSize (code : Nat) : Nat := if code % 4 = 0 then 0 else 256 * 2 ^ (code % 4)

/-- The ranges of tier two that the Sheepdog gives the CXL devices it finds (R17, R58; log 11): free, above the module's own. -/
def cxlFound : List (Nat × Nat) := Config.cxlRanges.filter fun r => 2 ^ 40 ≤ r.1 && r.1 + r.2 ≤ 2 ^ 48

/-- FIRMWARE_INITIALISATION (R17, R332, R445): memory is trained and every Sheepdog started, which maps the CXL devices and gives
each Kennel its size; or it fails. -/
def execFirmwareInitialisation (ok : Bool) (kennel : Nat) (s : State) : Host.Outcome State Fault Refusal :=
  if s.mod.st != .verified then .next s
  else if !ok then .next (s.modMod fun m => { m with st := .failed, failc := 0x05 })
  else
    let s := s.modMod fun m => { m with st := .ready, cxl := cxlFound }
    .next (if kennelSize kennel = 0 then s
      else (List.range 640).foldl (fun s c => s.modClu c fun u => { u with kennel := ⟨kennelSize kennel, 0, 0, []⟩ }) s)

/-- Update a mailbox. -/
def State.modMbox (s : State) (port : Nat) (f : Mbox → Mbox) : State :=
  s.modMod fun m => { m with mboxes := tset m.mboxes port (f (m.mbox port)) }

/-- The module as its SPDM responder presents it (R447): measurement 1 is MEAS, 2 KEYHASH and MINSVN, 3 ID1, 4 SVN. -/
def spdmDevice (m : Module) : Config.SpdmDevice :=
  { caps := [.cert, .chal, .meas, .measSig, .keyEx, .encrypt, .mac]
    hash := .sha256, sign := .slhDsaSha2128s, kex := .mlKem768, aead := .aes256Gcm
    identity := Config.uid, firmware := m.meas
    measurements := [(1, leBytes 32 m.meas.toNat), (2, leBytes 32 Config.keyHash.toNat ++ leBytes 2 Config.minSvn.toNat),
      (3, leBytes 8 (statusReg m 8).toNat), (4, leBytes 2 m.svn.toNat)] }

/-- A mailbox after an SPDM request: its answer, session and link keys. -/
def spdmAnswered (m : Module) (request : List Byte) (b : Mbox) : Mbox :=
  let r := Config.spdmAnswer (spdmDevice m) b.session b.ide request
  { b with doe := r.1, session := r.2.1, ide := r.2.2 }

/-- SPDM_REQUEST (R437, R447): the DOE mailbox of host port 1 (A) or 2 (B), or 3 + p of peer port p, answers what it supports, before
VERIFIED discovery only; to anything else it gives no answer. -/
def execSpdmRequest (port : Nat) (request : List Byte) (s : State) : Host.Outcome State Fault Refusal :=
  let m := s.mod
  let up := m.st = .verified || m.st = .ready
  if port = 0 || 10 < port then .next s
  else .next (s.modMbox port fun b =>
    match Config.doeKind request with
    | .discovery => { b with doe := Config.doeDiscovery request }
    | .spdm => if up then spdmAnswered m request b else { b with doe := [] }
    | .cdat => { b with doe := if up && port ≤ 2 then Config.doeCdat request else [] }
    | .secured => if up && port ≤ 2 then spdmAnswered m request b else { b with doe := [] }
    | .other => { b with doe := [] })

/-! ### Register writes (R441, R443, R444, R448) -/

/-- The commands of R449. -/
def isCommand (c : Nat) : Bool := (1 ≤ c && c ≤ 6) || (0x10 ≤ c && c ≤ 0x12)

/-- A write to a mailbox register by its own port (R448): CMD with BUSY 0 starts a command; one that R449 does not name is a
bad argument (log 22). -/
def mboxWrite (s : State) (port r : Nat) (v : Word) : State :=
  let c := v.toNat % 256
  if r = 0 then
    if (s.mod.mbox port).busy then s
    else if !isCommand c then s.modMbox port fun b => { b with result := 1 }
    else (s.modMbox port fun b => { b with cmd := c, busy := true, began := false }).modMod fun m =>
      { m with queue := m.queue ++ [port] }
  else if 0x08 ≤ r && r ≤ 0x38 && r % 8 = 0 then s.modMbox port fun b => { b with args := tset b.args (r / 8 - 1) v }
  else s

/-- A write of BCTL (R444): it acts on the highest of RESET, GO and START that it sets. -/
def bctlWrite (s : State) (port : Nat) (v : Word) : State :=
  if s.mod.lock != port || port = 0 then s.modMod ignored
  else if v.getLsbD 2 then moduleReset s
  else if v.getLsbD 1 then s.modMod startVerify
  else if v.getLsbD 0 then s.modMod (startLoad · (field v.toNat 56 32))
  else s

/-- A write of LOCK (R443). -/
def lockWrite (m : Module) (port : Nat) (v : Word) : Module :=
  if v.getLsbD 8 && m.lock = 0 then takeMgmt m port else if v.getLsbD 9 then freeLock m port else m

/-- REGISTER_WRITE (R441): a BAR0 write of port 1 (A) or 2 (B), behind its earlier posted writes (R439). Registers that are
read-only, and offsets that name none, ignore it. -/
def execRegisterWrite (port : Nat) (off value : Word) (s : State) : Host.Outcome State Fault Refusal :=
  let o := off.toNat
  if posting s port || port = 0 || 2 < port then .next s
  else if o = 0x100 then .next (s.modMod (lockWrite · port value))
  else if o = 0x200 then .next (bctlWrite s port value)
  else if ready s && o / 0x1000 = port && o % 0x1000 ≤ 0x78 then .next (mboxWrite s port (o % 0x1000) value)
  else if 0x1000000 ≤ o && o < 0x2000000 then .next (s.modMod (loadWrite · port (o - 0x1000000) (leBytes 8 value.toNat)))
  else .next s

/-! ### Errors of storage (R58, R65, R446, R450) -/

/-- An error counter of a die, or of the I/O die (8), counts one more (R450). -/
def countErr (s : State) (d i : Nat) : State :=
  s.modDie d fun y => { y with errs := tset y.errs i (Nat.min ((tget y.errs i).getD 0 + 1) 0xFFFFFFFF) }

/-- The die whose structure holds the bytes of an address at their home: the I/O die for module LPDDR. -/
def memDie (pa : Nat) : Nat := if paKind pa = 2 then vaultClu pa / 80 else if paKind pa = 0 then homeDie pa else 8

/-- The die whose L2 slice a node is for a line: the line's home slice, or a proxy slice (R51, R52). -/
def sliceDie (node line : Nat) : Nat := if node = 0 then homeDie (64 * line) else node - 1

/-- An uncorrectable error in a granule of an L1 line (R65). A clean copy is discarded: with other dirty granules, or as its owner's, once
a write-back buffer entry is free for the line (R64). -/
def l1Error (s : State) (g line gran : Nat) : State :=
  match (s.grid g).line line with
  | none => s
  | some l =>
    if !l.dirty.getLsbD gran && l.dirty != 0#4 && 8 ≤ (s.grid g).wb.length then s
    else
      let s := countErr s (dieOf (cluOfGrid g)) 5
      if l.dirty.getLsbD gran then
        s.modGrid g (·.setLine { l with poison := l.poison ||| BitVec.ofNat 4 (2 ^ gran) })
      else
        let s := if l.dirty != 0#4 || l.excl then writeBack s g l false (l.dirty != 0#4) else s
        lineLeaves (s.modGrid g (·.dropLine line)) g line

/-- An uncorrectable error in a granule of a line in an L2 slice (R65): data at its home, or a proxy's own, is poisoned; a proxy's clean
copy is only counted, as its bytes are the home's (log 13). -/
def l2Error (s : State) (node line gran : Nat) : State :=
  if !s.l2.contains (nodeKey node line) || 8 < node then s
  else
    let s := countErr s (sliceDie node line) 5
    if node = 0 || (s.dir node line).up = .e then { s with poison := addOnce s.poison (4 * line + gran % 4) } else s

/-- An error of storage (R65): a corrected one is only counted. Of an uncorrectable one, a clean copy is discarded, to be fetched
again from its home, and dirty data or data at its home is poisoned. -/
def storageError (s : State) (e : MemErr) : State :=
  match e with
  | .corrected d i => if (d < 8 && i < 5) || (d = 8 && i = 4) then countErr s d i else s
  | .l1 g line gran => l1Error s g line gran
  | .bc g line =>
    if (tget (s.grid g).bc line).isNone then s
    else (countErr s (dieOf (cluOfGrid g)) 5).modGrid g fun x => { x with bc := tdel x.bc line }
  | .l2 node line gran => l2Error s node line gran
  | .gran a =>
    if !populated s.mod.cxl a || !s.holdsLine (lineOf a) then s
    else { countErr s (memDie a) 5 with poison := addOnce s.poison (a / 16) }
  | .piece a =>
    if 2 ^ 21 * 640 ≤ a then s else { countErr s (dieOf (a / 2 ^ 21)) 5 with opoison := addOnce s.opoison (a / 16) }
  | .window => if s.mod.st != .loading then s else (countErr s 8 5).modMod fun m => { m with winBad := true }
  | .device i => s.modMod fun m => { m with cxl := m.cxl.eraseIdx i }

/-! ### Other inputs -/

/-- A read of the port window completes as an unsupported request (R14): a reply without bytes, marked 1. -/
def windowRead (s : State) (agent addr : Nat) : State :=
  s.send { Msg.mk0 .reply (.ext agent) with pa := addr, sub := 1 }

/-- A BAR0 read of the 64-bit register at an offset (R437, R441), behind every earlier posted write of its port (R439). -/
def barRead (s : State) (port off : Nat) : State :=
  if posting s port || port = 0 || 2 < port then s
  else s.send { Msg.mk0 .reply (.ext (63 + port)) with pa := off, len := 8, data := (leBytes 8 (sysReg s port off).toNat).map some }

/-- The key under which a spawn request of another package stands: no thread of this package has it. -/
def farThread (tag : Nat) : Nat := 2 ^ 32 + tag

/-- A spawn request of a thread of another package reaches an allocator and is answered (R400); a firing comes first (R399). -/
def farSpawn (s : State) (pkg clu tag : Nat) (x : Spawn) : State :=
  let answer := fun (v : Nat) (s : State) => s.send { Msg.mk0 .spawnAns (.ext (pkg % 64)) with ctx := x.ctx, sub := v, arg := tag }
  if !ready s || 640 ≤ clu || (arbitrate s clu).isSome || ((s.clu clu).spawns.any fun e => e.2.thr == farThread tag) then s
  else if !(s.ctx x.ctx).alive then answer 0 s
  else match allotSpawn s clu x with
    | some s => answer (descThid x.desc) s
    | none => answer 0 s

/-- Update the requests of another package's thread at an allocator. -/
def modFarSpawns (s : State) (clu tag : Nat) (f : Spawn → Spawn) : State :=
  s.modClu clu fun c => { c with spawns := c.spawns.map fun e => if e.2.thr = farThread tag then (e.1, f e.2) else e }

/-- A stream of another package opens a branch here (R77, R388): the entry and its ring are reserved, and the slots' full bits cleared. The
input changes nothing while the entry is not free or something stands in the way of a slot (R69). -/
def farOpen (s : State) (clu ent : Nat) (e : SEnt) : State :=
  let z := 2 ^ (e.zl + 9)
  let vs := entVaults s clu e
  let slots := ((List.range (e.sm1 + 1)).map (ringPa s.mod.pkg vs e.base z)).filter fun a => paPkg a = s.mod.pkg
  let here := (vs.filter (· < 1024)).eraseDups
  let top := e.base + (e.sm1 + vs.length) / vs.length * z
  if !ready s || 640 ≤ clu || 16 ≤ ent || !(s.ctx e.ctx).alive || vs = [] || (tget (s.clu clu).stab ent).isSome ||
      here.any (fun v => 2 ^ 23 - 128 * (s.clu v).kennel.size < top) ||
      slots.any fun a => s.barred { Msg.mk0 .waiter .dog with pa := a, len := z, node := homeNode a } then s
  else
    let s := slots.foldl (fun s a => s.setBits a z false) s
    let s := s.modClu clu fun c => { c with
      stab := tset c.stab ent { e with w := 0, c := 0, f := 0, cause := 0, pz := false, xf := false, st := 1 } }
    here.foldl vaultPass s

/-- Update the stream-table entry of a branch whose stream is on another package. -/
def modFarEntry (s : State) (clu ent : Nat) (f : SEnt → SEnt) : State :=
  match tget (s.clu clu).stab ent with
  | some e => if (producerOf s clu ent e).isSome then s else s.modClu clu fun c => { c with stab := tset c.stab ent (f e) }
  | none => s

/-- A tile of another package's stream completes here: C rises, and XF and PZ are sticky (R79). -/
def farTile (xf : Option Nat) (pz : Bool) (e : SEnt) : SEnt :=
  { e with c := (e.c + 1) % 2 ^ 32, xf := e.xf || xf.isSome, pz := e.pz || pz, cause := if e.xf then e.cause else xf.getD e.cause }

/-- An input that no row of the opcode table names. -/
def takeInput (s : State) (e : Input) : State :=
  match e with
  | .windowRead agent addr => windowRead s agent addr
  | .barRead port off => barRead s port off
  | .spawn pkg clu tag ctx pack entry arg desc parent =>
    farSpawn s pkg clu tag
      { ctx := ctx, gen := (s.ctx ctx).gen, entry := entry, arg := arg, desc := desc, pack := pack, thr := farThread tag, seq := 0,
        slot := 0, parent := parent, got := [], firm := false, sig := Sig.empty }
  | .spawnFirm clu tag sig => modFarSpawns s clu tag fun x => { x with firm := true, sig := sig }
  | .spawnGone clu tag =>
    s.modClu clu fun c => { c with spawns := c.spawns.filter fun e => e.2.thr != farThread tag || e.2.firm }
  | .freed clu cmd branch f =>
    s.modBranch clu cmd branch fun b =>
      if b.abroad then { b with f := Nat.min b.c (b.f + (f + 2 ^ 32 - b.f % 2 ^ 32) % 2 ^ 32) } else b
  | .closed clu cmd =>
    s.modStream clu cmd fun x => if x.branches.any Branch.abroad then { x with closing := true } else x
  | .opened clu ent e => farOpen s clu ent e
  | .started clu ent => modFarEntry s clu ent fun e => { e with w := (e.w + 1) % 2 ^ 32 }
  | .tileDone clu ent xf pz => modFarEntry s clu ent (farTile xf pz)
  | .ended clu ent =>
    match tget (s.clu clu).stab ent with
    | some e => if (producerOf s clu ent e).isSome then s else s.modClu clu fun c => { c with stab := tdel c.stab ent }
    | none => s
  | .message sender clu port ctx m sig =>
    if !ready s || 640 ≤ clu then s
    else s.send { Msg.mk0 .grantReq (.grid (5120 + sender)) with
      ctx := ctx, gen := (s.ctx ctx).gen, node := 9 + clu, port := port % 64, pm := some m, scope := 5, cls := 4, pa := 2 ^ 49,
      par := 2 ^ 64 + sender, sig := sig }
  | .arrival ctx bid target sig =>
    let key := ctx * 2 ^ 32 + 5 * 2 ^ 24 + bid % 16
    if (s.ctx ctx).alive then { s with bars := tset s.bars key ((s.bar key).arrival target sig) } else s
  | .tlbinv ctx va => invalidate s ctx 5 0 fun e => va.all fun a => e.covers ctx (pageOf a.toNat)

end Sys2Proof.Machine
end

