-- ==== Sys2Proof/Machine/Save.lean ====
section
/-! DEFINITION. Pre-emption and what it saves: the stop of a thread (R423), thread save records (R424), resuming (R106, R425),
logical-cluster records (R426), and the move of a logical cluster (R12, R179, R278, R359, R390). -/

namespace Sys2Proof.Machine

/-! ### Thread save records (R424) -/

/-- Bytes of a 64-bit word. -/
def wordBytes (w : Word) : List Byte := leBytes 8 w.toNat
/-- Zero bytes. -/
def zeros (n : Nat) : List Byte := List.replicate n 0

/-- PACK of `tstat` (R417). -/
def packCode (p : Pack) : Nat :=
  match p with
  | .none => 0
  | .leader => 1
  | .following _ => 2
  | .stray _ => 3
  | .waiting _ => 3

/-- The width code of `tstat` (R417). -/
def widthCode (w : Nat) : Nat := if w = 8 then 3 else if w = 4 then 2 else if w = 2 then 1 else 0

/-- The leader a member names. -/
def Pack.leaderKey (p : Pack) : Option Nat :=
  match p with
  | .following l => some l
  | .stray l => some l
  | .waiting l => some l
  | .none => Option.none
  | .leader => Option.none

/-- STATE of a record. -/
def stateWord (s : State) (k : Nat) (t : Thread) : Nat :=
  let lead := ((t.pack.leaderKey.bind s.thr).map (·.spec.thid.toNat)).getD 0
  let wait := match t.pack with
    | .waiting _ => 1
    | _ => 0
  widthCode t.width + 4 * (gridOfThr k % 8) + 32 * packCode t.pack + 128 * wait + 256 * (lead % 2 ^ 32)

/-- CNT of a record. -/
def cntWord (t : Thread) : Nat :=
  t.ord % 2 ^ 33 + 2 ^ 40 * (t.cnts.1 % 256) + 2 ^ 48 * (t.cnts.2.1 % 256) + 2 ^ 56 * (t.cnts.2.2 % 256)

/-- The statuses of one unit's ids. -/
def statusBytes (t : Thread) (unit : Nat) : List Byte :=
  (List.range 256).flatMap fun j => wordBytes ((tget t.status (256 * unit + j)).getD 0)

/-- The bytes of a thread's record (R424): all other bytes are zero. -/
def saveBytes (s : State) (k : Nat) (t : Thread) : List Byte :=
  let now := s.cycThr k
  let psig := Sig.ors ((coreGrids (gridOfThr k) t.width).map fun g => (s.grid g).pend)
  leBytes 8 t.pc.toNat ++ leBytes 8 (t.pc.toNat / 2 ^ 64) ++ leBytes 8 (stateWord s k t) ++ leBytes 8 (cntWord t) ++
  leBytes 16 t.gdead.toNat ++ leBytes 8 t.vdead.toNat ++ leBytes 8 (t.ctx + 4096 * t.gen) ++ zeros 0xC0 ++
  ((List.range 16).flatMap fun i => wordBytes (regCommitted t now (192 + i)).word) ++
  ((List.range 8).flatMap fun i => wordBytes ((tget t.perf i).getD 0)) ++ zeros 0x40 ++
  psig.image ++ zeros 0x78 ++ (t.fence.getD Sig.empty).image ++ leBytes 8 (if t.fence.isSome then 1 else 0) ++ zeros 0x70 ++
  ((List.range 128).flatMap fun i =>
    if i = 0 || t.gdead.getLsbD i then zeros 8 else wordBytes ((tget t.g i).getD 0)) ++
  ((List.range 80).flatMap fun i => leBytes 4 (match tget t.arrive (16 + i) with
    | some e => e % 65536 + 65536
    | none => 0)) ++ zeros 0x6C0 ++
  ((List.range 64).flatMap fun i =>
    if t.vdead.getLsbD i then zeros 64 else leBytes 64 ((tget t.v i).getD 0).toNat) ++
  statusBytes t 1 ++ statusBytes t 2 ++ statusBytes t 0 ++ zeros 0x800

/-- Whether byte `o` of a thread's record is written: the places of dead registers are not (R423, R424). -/
def recordWrites (t : Thread) (o : Nat) : Bool :=
  if 0x408 ≤ o && o < 0x800 then !t.gdead.getLsbD ((o - 0x400) / 8)
  else if 0x1000 ≤ o && o < 0x2000 then !t.vdead.getLsbD ((o - 0x1000) / 64)
  else true

/-- What is written of a thread's record. -/
def recordData (s : State) (k : Nat) (t : Thread) : List (Option Byte) :=
  (saveBytes s k t).zipIdx.map fun x => if recordWrites t x.2 then some x.1 else none

/-- The lowest record that holds no thread: R424 leaves the choice to the Sheepdog (log 65). -/
def freeRecord (c : Ctx) : Option Nat := (List.range (field (c.word 12) 15 0)).find? fun n => (tget c.saved n).isNone

/-- A thread that leaves without ending: its context and its core's grids are free. -/
def freeThread (s : State) (k : Nat) : State :=
  { s with
    thrs := tdel s.thrs k
    grids := s.grids.map fun (e : Nat × Grid) => (e.1, { e.2 with
      held := if e.2.held = some k then none else e.2.held }) }

/-- Steps 3 to 5 of R423, the drain done: the record is written, once no engine and no reservation holds it, and the thread leaves. -/
def saveThread (s : State) (k : Nat) (t : Thread) : State :=
  let c := s.ctx t.ctx
  match freeRecord c with
  | none => s
  | some n =>
    if hwBlocked s (recordAt c n) 0x4000 then s
    else
    let s := hwPut s (recordAt c n) (recordData s k t)
    (freeThread s k).modCtx t.ctx fun c => { c with saved := tset c.saved n ⟨t.lclu, t.pat, t.ser⟩ }

/-! ### Stopping (R423) -/

/-- Step 1 of R423: a granted handler becomes a thread to save, a fault raised comes first (R422), and fetch stops. -/
def stopThread (s : State) (k : Nat) : State :=
  let s := startHandler s k
  let s := match raises s k with
    | some (t, f, cls, e) => if f.refused.isSome || f.still then raiseFault s k t f cls e else s
    | none => s
  s.modThr k fun t => { t with stop := true }

/-- Step 2 of R423: blocks that meet their commit conditions are committed in order; the first that does not is discarded with
every younger one. A block that is being performed goes on by its own events. -/
def stopBlocks (s : State) (k : Nat) : Nat → State
  | 0 => s
  | fuel + 1 =>
    match s.thr k, (s.thr k).bind (·.oldest) with
    | some t, some f =>
      if f.stage = 2 then s
      else
        match (if commitReady s k t f then reserve s k f else none) with
        | none => discardFrom s k f.seq
        | some s' =>
          if lockedOut s' k f then discardFrom s k f.seq
          else
            let s' := commitNow s' k t f
            if s'.live k f.seq then s' else stopBlocks s' k fuel
    | _, _ => s

/-- One step of the pre-emption of a thread (R106, R176, R423): its blocks, its drain, its record. A leader leaves after its
members. -/
def stopStep (s : State) (k : Nat) : State :=
  let s := stopBlocks s k 64
  match s.thr k with
  | none => s
  | some t =>
    if t.frames != [] then s
    else if t.post = .idle then
      let s := if t.pack = .leader then strayAll s k else s
      (startDrain s (coreGrids (gridOfThr k) t.width)).modThr k fun t => { t with post := .preempt }
    else if t.post = .preempt && !drainDue s k (coreGrids (gridOfThr k) t.width) && members s k = [] then saveThread s k t
    else s

/-! ### Resuming (R425) -/

/-- A 64-bit word of a record. -/
def recWord (bs : List Byte) (off : Nat) : Nat := leNat ((bs.drop off).take 8)

/-- The statuses that a record holds. -/
def recStatus (bs : List Byte) : Tab Word :=
  [(0, 0x3000), (1, 0x2000), (2, 0x2800)].flatMap fun (u : Nat × Nat) =>
    (List.range 256).map fun j => (256 * u.1 + j, BitVec.ofNat 64 (recWord bs (u.2 + 8 * j)))

/-- The special registers that a record holds, reserved fields zero. -/
def recSpec (bs : List Byte) : Spec :=
  let w := fun (r : Nat) => BitVec.ofNat 64 (recWord bs (0x100 + 8 * (r - 192))) &&& specMask r
  { fcr := w 192, conv := w 193, ftab := w 195, ftlen := w 196, srkey := w 197, thid := w 198, leash := w 202,
    jseed := w 203, tstat := w 204, epc := w 205, ecause := w 206, efault := w 207 }

/-- The thread that a record holds (R424, R425): dead registers read zero. -/
def loadThread (bs : List Byte) (ctx gen : Nat) (pack : Pack) (x : Saved) : Thread :=
  let st := recWord bs 0x10
  let cnt := recWord bs 0x18
  let gdead := BitVec.ofNat 128 (leNat ((bs.drop 0x20).take 16))
  let vdead := BitVec.ofNat 64 (recWord bs 0x30)
  let live := fun (n : Nat) (dead : Nat → Bool) => (List.range n).filter fun i => !dead i
  let arr := (List.range 80).filterMap fun i =>
    let e := leNat ((bs.drop (0x800 + 4 * i)).take 4)
    if e.testBit 16 then some (16 + i, e % 65536) else none
  let held := recWord bs 0x388 % 2 = 1
  { Thread.reset with
    ser := x.ser, run := true, ctx := ctx, gen := gen, lclu := x.lclu, width := 2 ^ (st % 4), pack := pack
    g := ((live 128 gdead.getLsbD).filter (· != 0)).map fun i => (i, BitVec.ofNat 64 (recWord bs (0x400 + 8 * i)))
    v := (live 64 vdead.getLsbD).map fun i => (i, BitVec.ofNat 512 (leNat ((bs.drop (0x1000 + 64 * i)).take 64)))
    gdead := gdead, vdead := vdead, spec := recSpec bs
    pc := BitVec.ofNat 80 (recWord bs 0 + 2 ^ 64 * recWord bs 8)
    ord := cnt % 2 ^ 33, cnts := (field cnt 47 40, field cnt 55 48, field cnt 63 56), status := recStatus bs
    fence := if held then some (Sig.ofImage ((bs.drop 0x300).take 0x88)) else none, fenceScope := if held then 5 else 0
    arrive := arr, perf := (List.range 8).map fun i => (i, BitVec.ofNat 64 (recWord bs (0x180 + 8 * i)))
    pat := x.pat }

/-- The free place for a thread of a width: on its old home grid if that has room, for a pack's thread on a grid without
another of the pack's context, else by the allocator's order (R399, R425). -/
def placeOf (s : State) (ctx clu width home : Nat) (pack : Bool) : Option Nat :=
  let busy := fun (g : Nat) => pack && s.thrs.any fun e => gridOfThr e.1 == 8 * clu + g && e.2.ctx == ctx && e.2.pack != .none
  let pool := ((List.range 8).map fun g => if busy g then 0 else 2 ^ g).foldl (· + ·) 0
  if width = 1 then allocate s clu 1 pool ((home + 7) % 8)
  else allocate s clu width (((List.range width).map fun i => 2 ^ (home / width * width + i)).foldl (· + ·) 0) 7 <|>
    allocate s clu width 0xFF 7

/-- The grids of a resumed core drop their clean `.wt` and `.si` lines and take the saved pending signature (R106). -/
def resumeGrids (s : State) (gs : List Nat) (x : Sig) : State :=
  gs.foldl (fun s g => (dropClean s g).modGrid g fun y => { y with pend := y.pend.or x }) s

/-- The pack state that a resumed thread takes (R176, R425): a member is Stray; none while its leader is still saved. -/
def resumePack (s : State) (ctx clu : Nat) (st : Nat) (saved : List Nat) : Option Pack :=
  let code := field st 6 5
  if code = 0 then some .none
  else if code = 1 then some .leader
  else
    let lead := field st 39 8
    match s.thrs.find? fun e => cluOf e.1 == clu && e.2.ctx == ctx && e.2.pack == .leader && e.2.spec.thid.toNat % 2 ^ 32 == lead with
    | some e => some (.stray e.1)
    | none => if saved.contains lead then none else some .none

/-- Resume one saved thread, if its leader and its logical cluster's fabric are there and a place is free; its leash count starts (R359,
R425). -/
def resumeOne (s : State) (ctx n : Nat) : State :=
  let c := s.ctx ctx
  match tget c.saved n with
  | none => s
  | some x =>
    match mapCluster s c x.lclu with
    | .error _ => s
    | .ok (_, clu) =>
      if hwBlocked s (recordAt c n) 0x4000 || (tget c.fabs x.lclu).isSome then s
      else
      let (s, bs) := hwRead s (recordAt c n) 0x4000
      let st := recWord bs 0x10
      let rest := (c.saved.filter (·.1 != n)).map fun e => leNat (s.readHome (recordAt c e.1 + 0x130) 4)
      match resumePack s ctx clu st rest with
      | none => s
      | some pack =>
        match placeOf s ctx clu (2 ^ (st % 4)) (field st 4 2) (pack != .none) with
        | none => s
        | some k =>
          let t := loadThread bs ctx c.gen pack x
          let s := (s.setThr k t).modThr k fun t => { t with leash0 := s.cycThr k }
          let s := resumeGrids s (coreGrids (gridOfThr k) t.width) (Sig.ofImage ((bs.drop 0x200).take 0x88))
          s.modCtx ctx fun c => { c with saved := tdel c.saved n }

/-! ### Logical-cluster records (R426) and moves (R179) -/

/-- The address of a logical cluster's record. -/
def cluRecord (c : Ctx) (n : Nat) : Nat := field (c.word 12) 55 22 * 2 ^ 22 + 2 ^ 22 * n

/-- The word of a slot name (R426). -/
def nameWord (x : SlotName) : Nat :=
  2 ^ 32 * x.ser + 2 ^ 25 * ((x.rows - 1) % 128) + 2 ^ 15 * ((x.cols - 1) % 1024) + 2 ^ 10 * x.fmt +
    (if x.shaped then 512 else 0) + (if x.claimed then 256 else 0) + (if x.pair then 128 else 0)

/-- The words of a stream-table entry (R390). -/
def entWords (e : SEnt) : List Nat :=
  [2 ^ 32 * e.c + e.w, 2 ^ 32 * e.base + e.f,
   2 ^ 44 * e.ctx + 2 ^ 40 * e.cause + (if e.pz then 2 ^ 39 else 0) + (if e.xf then 2 ^ 38 else 0) + 2 ^ 22 * e.prod +
     2 ^ 16 * e.port + (if e.ntf then 2 ^ 15 else 0) + 2 ^ 12 * e.zl + 2 ^ 10 * e.nvl + 2 ^ 4 * e.sm1 + 4 * e.br + e.st,
   e.vc.toNat]

/-- The word of a free stream-table entry (R390). -/
def freeEntWords : List Nat := [0, 0, 0xFFF * 2 ^ 44, 0]

/-- A bank of the fabric as its image holds it: 0 P, 1 C, 2 N. -/
def bankBytes (x : Fabric) (bank : Nat) : List Byte :=
  (List.range 8192).flatMap fun w =>
    leBytes 32 (if bank = 2 then (tget x.n w).getD (BitVec.ofNat 256 (Config.freeBits x.epoch (32768 + w))) else x.wire bank w).toNat

/-- The fabric's part of a record (R365, R426). -/
def saveFabric (s : State) (base : Nat) (x : Fabric) : State :=
  let s := hwStore s (base + 0x200000) (bankBytes x 0)
  let s := hwStore s (base + 0x240000) (bankBytes x 2)
  let s := hwStore s (base + 0x280000) (bankBytes x 1)
  let s := (List.range 6).foldl (fun s i =>
    let s := hwStore s (base + 0x2C0000 + 0x28000 * i) ((List.range (Nat.min (x.slot i).nc 8192)).flatMap fun j => leBytes 20 (x.cell i j))
    hwStore s (base + 0x3B0208 + 8 * i) (leBytes 8 ((x.slot i).nc % 2 ^ 14))) s
  let loaded := ((List.range 6).map fun i => if (x.slot i).loaded then 2 ^ (8 + i) else 0).foldl (· + ·) 0
  hwStore s (base + 0x3B0200) (leBytes 8 (x.sel % 8 + loaded))

/-- A barrier's part of a record: arrivals, target, episode and the episode's signature. -/
def barBytes (b : Bar) : List Byte :=
  leBytes 16 (b.count % 65536 + 65536 * (b.target % 65536) + 2 ^ 32 * (b.episode % 65536)) ++ b.sig.image

/-- The slot names, stream entries and barriers of a record (R426). -/
def saveTables (s : State) (ctx n clu base : Nat) : State :=
  let c := s.ctx ctx
  let s := hwStore s (base + 0x3B0000) ((List.range 64).flatMap fun i => leBytes 8 (nameWord (slotAt c.names n i)))
  let s := hwStore s (base + 0x3B0400) ((List.range 16).flatMap fun e =>
    (match (tget (s.clu clu).stab e).filter fun (x : SEnt) => x.ctx == ctx with
      | some x => entWords x
      | none => freeEntWords).flatMap (leBytes 8))
  let key := fun (i b : Nat) =>
    ctx * 2 ^ 32 + (if i = 2 then 2 * 2 ^ 24 + 16 * n else 2 ^ 24 + 16 * (2 * n + i)) + b
  (List.range 48).foldl (fun s j => hwStore s (base + 0x3B1000 + 0x100 * j) (barBytes (s.bar (key (j / 16) (j % 16))))) s

/-- A context's slots on a cluster are written to their images and given up (R427). -/
def saveSlots (s : State) (ctx clu : Nat) : State :=
  let mine := (s.clu clu).phys.filterMap fun e => e.2.owner.bind fun w => if w.1 = ctx then some (e.1, w, e.2.dirty) else none
  let s := mine.foldl (fun s e => if e.2.2 then savePhys s clu e.1 else s) s
  mine.foldl (fun s e => evictSlot s clu e.2.1 [e.1]) s

/-- A cluster's part of vault storage moves: bytes below the Kennel, their bits and their poison (R12). -/
def moveVault (s : State) (p q : Nat) : State :=
  let a := vaultPa s.mod.pkg p 0
  let b := vaultPa s.mod.pkg q 0
  let n := 2 ^ 23 - 128 * Nat.max (s.clu p).kennel.size (s.clu q).kennel.size
  let move := fun (l : List Nat) =>
    (l.filter fun g => !(b / 16 ≤ g && g < (b + n) / 16)) ++
      ((l.filter fun g => a / 16 ≤ g && g < (a + n) / 16).map fun g => g - a / 16 + b / 16)
  { s with mem := mwrite s.mem b (mread s.mem a n), full := move s.full, poison := move s.poison }

/-- The arrival number of a message that moves to another cluster: the messages that move with it keep their order there, and come
before every later arrival (R331). -/
def restamp (moved : List PMsg) (arr : Nat) (m : PMsg) : PMsg :=
  { m with arr := (arr + (moved.filter (·.arr < m.arr)).length) % 2 ^ 32 }

/-- Ports and patterns of a context move to the same numbers, with what is in them and on the way to them. Messages of the old Kennel keep
entries in the new one, beyond its size if need be, on which R332 is silent (log 67). -/
def movePorts (s : State) (ctx p q : Nat) : State :=
  let c := s.clu p
  let free := fun (i : Nat) => ((s.clu q).port i).owner = 0xFFF
  let ports := c.ports.filter fun e => e.2.owner == ctx && free e.1
  let pats := c.pats.filter fun e => e.2.owner == ctx && ((s.clu q).pat e.1).owner = 0xFFF
  let mine := fun (i : Nat) => ports.any (·.1 == i)
  let ents := c.kennel.ents.filter fun e => mine e.2.1
  let moved := ports.flatMap (·.2.res) ++ ents.map (·.2.2)
  let s := s.modClu q fun d =>
    { d with
      arr := (d.arr + moved.length) % 2 ^ 32
      ports := ports.foldl (fun t e => tset t e.1 { e.2 with res := e.2.res.map (restamp moved d.arr) }) d.ports
      pats := pats.foldl (fun t e => tset t e.1 e.2) d.pats
      kennel := { d.kennel with
        tail := d.kennel.tail + ents.length
        ents := ents.zipIdx.foldl (fun t e => tset t (d.kennel.tail + e.2) (e.1.2.1, restamp moved d.arr e.1.2.2)) d.kennel.ents } }
  let s := s.modClu p fun d =>
    { d with
      ports := ports.foldl (fun t e => tset t e.1 Port.reset) d.ports
      pats := pats.foldl (fun t e => tset t e.1 { Pat.reset with serial := e.2.serial + 1 }) d.pats
      kennel := d.kennel.keep fun e => !mine e.2.1 }
  let s := { s with net := s.net.map fun (e : Nat × Msg) =>
      if e.2.node = 9 + p && mine e.2.port && (e.2.kind = .grantReq || e.2.kind = .grantStatus || e.2.kind = .deliver) then
        (e.1, { e.2 with node := 9 + q })
      else e }
  settleAll (settleAll s p) q

/-- Whether an engine of a cluster has a command of a context, or a stream is bringing a tile into the cluster for it: a move
waits for them (R359). -/
def cluBusy (s : State) (ctx p : Nat) : Bool :=
  let c := s.clu p
  (c.jobs ++ c.moves).any (·.cap.ctx == ctx) || c.fab.q.any (·.cap.ctx == ctx) || c.copyQ.any (·.cap.ctx == ctx) ||
  c.saving != [] || c.streams.any (·.cmd.cap.ctx == ctx) ||
  s.clus.any fun e => e.2.streams.any fun x => x.cmd.cap.ctx == ctx && x.branches.any fun b =>
    (b.clu == p || b.vaults.contains p) && b.run != []

/-- The fabric of a cluster is saved into its owner's area, as that of logical cluster `n`, and is unallotted (R359). -/
def putFabric (s : State) (n p : Nat) : State :=
  let x := (s.clu p).fab
  let s := (saveFabric s (cluRecord (s.ctx x.owner) n) x).modClu p fun c => { c with fab := { Fabric.reset with epoch := s.fresh } }
  { s with fresh := s.fresh + 1 }.modCtx x.owner fun c => { c with fabs := tset c.fabs n x }

/-- Whether a fabric is to be saved but its queue is not empty yet, or its owner's record cannot be written yet (R85, R271, R359). A
fabric whose owner is running there is not taken (log 129). -/
def fabricWaits (s : State) (q : Nat) : Bool :=
  let x := (s.clu q).fab
  x.owner != 0xFFF && !runningOn s x.owner q &&
    (x.q != [] || (logicalOf s x.owner q).any fun n => hwBlocked s (cluRecord (s.ctx x.owner) n) (2 ^ 22))

/-- The Sheepdog takes a fabric to give it to another context, if it can (R359): it is unallotted, or its owner is not running there
and its queue is empty, and then it is saved. -/
def takeFabric (s : State) (q : Nat) : Option State :=
  let x := (s.clu q).fab
  if x.owner = 0xFFF then some s
  else if runningOn s x.owner q || fabricWaits s q then none
  else (logicalOf s x.owner q).map fun n => putFabric s n q

/-- The fabric of a logical cluster is restored on a physical cluster, if that one's can be taken (R359). LAYERS, which a record does not
hold, is kept (log 128). -/
def giveFabric (s : State) (ctx n q : Nat) : State :=
  match tget (s.ctx ctx).fabs n, takeFabric s q with
  | some x, some s => (s.modClu q fun c => { c with fab := x }).modCtx ctx fun c => { c with fabs := tdel c.fabs n }
  | _, _ => s

/-- Where a logical cluster stands in this package: where its map entry says, or where it was when the entry was last valid (R179). -/
def standsAt (s : State) (ctx n : Nat) : Option Nat :=
  match mapCluster s (s.ctx ctx) n with
  | .ok (pk, p) => if pk = s.mod.pkg then some p else none
  | .error _ => tget (s.ctx ctx).parked n

/-- The slots, the tables and the fabric of a logical cluster that stands at `p` are saved (R359, R426, R427). -/
def saveCluster (s : State) (ctx n p : Nat) : State :=
  let s := saveTables (saveSlots s ctx p) ctx n p (cluRecord (s.ctx ctx) n)
  if (s.clu p).fab.owner = ctx then putFabric s n p else s

/-- A logical cluster whose entry is no longer valid stays where it stands. -/
def parkCluster (s : State) (ctx n p : Nat) : State :=
  (saveCluster s ctx n p).modCtx ctx fun c => { c with parked := tset c.parked n p }

/-- A logical cluster goes to another package, where its record is read: its fabric, ports, patterns, stream entries and spawn requests
leave this one (log 17). -/
def sendCluster (s : State) (ctx n p : Nat) : State :=
  let s := killPorts (saveCluster s ctx n p) ctx p
  let s := s.modClu p fun c => { c with
    stab := c.stab.filter (·.2.ctx != ctx)
    spawns := c.spawns.filter (·.2.ctx != ctx) }
  s.modCtx ctx fun c => { c with fabs := tdel c.fabs n, parked := tdel c.parked n }

/-- Logical cluster `n` of a context moves from a physical cluster to another (R12, R179, R278, R359, R390, R426): its record is
written, and its vault contents, fabric, stream entries, ports, patterns and firm spawn requests go along. -/
def moveCluster (s : State) (ctx n p q : Nat) : State :=
  let s := saveCluster s ctx n p
  let s := movePorts (moveVault (giveFabric s ctx n q) p q) ctx p q
  let es := (s.clu p).stab.filter (·.2.ctx == ctx)
  let firm := (s.clu p).spawns.filter (·.2.ctx == ctx)
  let s := s.modClu p fun c => { c with
    stab := c.stab.filter (·.2.ctx != ctx)
    spawns := c.spawns.filter (·.2.ctx != ctx) }
  let s := s.modClu q fun c => { c with
    stab := es.foldl (fun t e => tset t e.1 e.2) c.stab
    spawns := firm.zipIdx.foldl (fun t e => tset t (c.nextSpawn + e.2) { e.1.2 with got := [] }) c.spawns
    nextSpawn := c.nextSpawn + firm.length }
  let swap := fun (c : Nat) => if c = p then q else c
  let s := { s with clus := s.clus.map fun (e : Nat × Clu) => (e.1, { e.2 with
    streams := e.2.streams.map fun (y : Stream) =>
      if y.cmd.cap.ctx != ctx then y
      else { y with branches := y.branches.map fun (b : Branch) => { b with clu := swap b.clu, vaults := b.vaults.map swap } } }) }
  let kept := fun (x : Saved) => { x with pat := x.pat.filter fun p => ((s.clu q).pat p.1).owner == ctx }
  s.modCtx ctx fun c => { c with
    saved := c.saved.map fun e => if e.2.lclu = n then (e.1, kept e.2) else e
    parked := tdel c.parked n }

end Sys2Proof.Machine
end

