-- ==== Sys2Proof/Machine/Mailbox.lean ====
section
/-! DEFINITION. The mailbox commands of R449. Each is performed by its own event, once its port's command is the first of those
that wait; one that takes time is performed by repeated events and keeps BUSY at 1 until it is complete (R448). -/

namespace Sys2Proof.Machine

/-- Whether the command that is next belongs to a port and has a code (R449). -/
def turn (s : State) (port code : Nat) : Bool :=
  ready s && s.mod.queue.head? == some port && (s.mod.mbox port).busy && (s.mod.mbox port).cmd == code

/-- An argument of a port's command. -/
def argOf (s : State) (port i : Nat) : Nat := ((tget (s.mod.mbox port).args i).getD 0).toNat

/-- A command is complete: RESULT and the results are written, and the next command may begin (R448, R449). -/
def finish (s : State) (port result : Nat) (res : List Word) : State :=
  (s.modMbox port fun b => { b with
    busy := false, began := false, result := result, res := res.zipIdx.map fun e => (e.2, e.1) }).modMod fun m =>
    { m with queue := m.queue.drop 1 }

/-- A command has begun. -/
def begin_ (s : State) (port : Nat) : State := s.modMbox port fun b => { b with began := true }

/-- Perform a command when it is its turn. -/
def command (s : State) (port code : Nat) (go : State) : Host.Outcome State Fault Refusal :=
  .next (if turn s port code then go else s)

/-- A command that needs LOCK (R449). -/
def locked (s : State) (port : Nat) (go : State) : State := if s.mod.lock = port then go else finish s port 2 []

/-! ### Contexts: create, kill, query -/

/-- The bits of a descriptor word that are not reserved (R20, R177, R314, R338, R397, R419). -/
def descMask (i : Nat) : Word :=
  match i with
  | 0 => 0x00FFFFFFFFFFFFFF#64
  | 1 => 0x00000000FFFFFFFF#64
  | 2 => 0x00FFFFFFFFFFC000#64
  | 3 => 0x00FFFFFFFFFFFF00#64
  | 4 => 0x000000000000FFFF#64
  | 5 => 0x00000000FFFFFFFF#64
  | 6 => 0x00FFFFFFFFFFFFF0#64
  | 7 => 0x00000000000007FF#64
  | 8 => 0xFFFFFFFFFFFFFFFF#64
  | 9 => 0xFFFFFFFFFFFFFF80#64
  | 10 => 0x00000000FFFF003F#64
  | 11 => 0x00FFFFFFFFFFC000#64
  | 12 => 0x00FFFFFFFFC0FFFF#64
  | _ => 0

/-- The descriptor words of an image, with the id and generation in place of the image's (R20, R449); reserved bits are zero (R6). -/
def descWords (bs : List Byte) (id gen : Nat) : List Word :=
  (List.range 13).map fun i => descMask i &&&
    if i = 1 then BitVec.ofNat 64 (id + 4096 * gen) else BitVec.ofNat 64 (recWord bs (8 * i))

/-- Whether the fields of a descriptor lie in their ranges (R8, R177, R338). -/
def descOk (ws : List Word) : Bool :=
  let w := fun (i : Nat) => (ws.getD i 0).toNat
  field (w 0) 15 8 ≤ 0xEF && 1 ≤ field (w 4) 15 0 && field (w 4) 15 0 ≤ 40960 && field (w 7) 10 0 ≤ 1024

/-- The Sheepdog allots a port (`unit` 0), a pattern (1) or the fabric (2) of a cluster to a context, if it is unallotted, the fabric
also if its owner is not running there (R329, R359). -/
def allotOne (s : State) (id : Nat) (a : Nat × Nat × Nat) : State :=
  let c := s.clu a.1
  if a.2.1 = 0 then
    if (c.port a.2.2).owner = 0xFFF && a.2.2 < 64 then s.modPort a.1 a.2.2 fun _ => { Port.reset with owner := id } else s
  else if a.2.1 = 1 then
    if (c.pat a.2.2).owner = 0xFFF && a.2.2 < 32 then
      s.modPat a.1 a.2.2 fun p => { Pat.reset with owner := id, serial := p.serial }
    else s
  else match takeFabric s a.1 with
    | some s => { s with fresh := s.fresh + 1 }.modClu a.1 fun c => { c with fab := { Fabric.reset with owner := id, epoch := s.fresh } }
    | none => s

/-- Whether a request, an engine's among them, or a walk of a context id with a generation is outstanding (R21). -/
def tagInUse (s : State) (id gen : Nat) : Bool :=
  (s.net.any fun e => e.2.ctx == id && e.2.gen == gen && (e.2.agent != 0 || match e.2.src with
    | .eng _ _ _ => true
    | .walk _ _ => true
    | _ => false)) ||
  (s.dies.any fun d => d.2.walks.any fun w => w.2.ctx == id && w.2.gen == gen)

/-- CTX_CREATE (R329, R398, R449): the lowest id from 1 on without a context, 0 being the Sheepdog's own (R19); while a request of
that id with the generation it would have is outstanding, the command waits (R21), as it does for a fabric it is to give (R359). The
launch port is enabled and open to all. -/
def create (s : State) (port : Nat) (allot : List (Nat × Nat × Nat)) : State :=
  let off := argOf s port 0
  let l := argOf s port 1
  let clu := 80 * field l 2 0 + field l 9 3
  let pa := s.mod.pkg * 2 ^ 50 + off
  let r := hwRead s pa 104
  match (List.range 0xFFF).find? fun i => i != 0 && !(s.ctx i).alive with
  | none => finish s port 1 []
  | some id =>
    let gen := (s.ctx id).gen
    if tagInUse s id gen || hwBlocked s pa 104 || allot.any (fun a => 2 ≤ a.2.1 && fabricWaits s a.1) then s else
    let ws := descWords r.2 id gen
    if 2 ^ 40 < off + 104 || 79 < field l 9 3 || ((s.clu clu).port (field l 15 10)).owner != 0xFFF || !descOk ws then
      finish s port 1 []
    else
      let s := r.1.modCtx id fun c => { c with
        alive := true, words := ws, stopped := [], dying := none, names := [], saved := [], fabs := [], parked := [] }
      let s := s.modPort clu (field l 15 10) fun _ => { Port.reset with owner := id, en := true, open_ := true }
      finish (allot.foldl (fun s a => allotOne s id a) s) port 0 [BitVec.ofNat 64 (id + 4096 * gen)]

/-- CTX_CREATE (R449). `allot` is what the Sheepdog gives the context beside its launch port: (cluster, unit, number). -/
def execCtxCreate (port : Nat) (allot : List (Nat × Nat × Nat)) (s : State) : Host.Outcome State Fault Refusal :=
  command s port 0x01 (create s port allot)

/-- Whether a command names a context that is assigned and not killed (R428, R449). -/
def known (s : State) (c : Nat) : Bool := (s.ctx c).alive && (s.ctx c).dying.isNone

/-- CTX_KILL (R428, R449): reason 0xF0; complete once the blocks that the arbiter had granted are done and the kill with them (R448). -/
def execCtxKill (port : Nat) (s : State) : Host.Outcome State Fault Refusal :=
  let c := argOf s port 0
  let done := fun (s : State) => if (s.ctx c).alive then s else finish s port 0 []
  command s port 0x02
    (if (s.mod.mbox port).began then done s
    else if !(s.ctx c).alive then finish s port 3 []
    else done (killCtx (begin_ s port) c 0xF0))

/-- KILL_QUERY (R449): RESULT 3 only for an id that has not been assigned since module reset. -/
def execKillQuery (port : Nat) (s : State) : Host.Outcome State Fault Refusal :=
  let c := argOf s port 0
  command s port 0x06
    (if (tget s.ctxs c).isNone then finish s port 3 []
    else match (s.ctx c).killReason with
      | some (r, g) => finish s port 0 [BitVec.ofNat 64 (r + 256 * g)]
      | none => finish s port 0 [0])

/-! ### Pre-emption (R423), resuming (R425) and moving (R179) -/

/-- The threads of a context on the logical clusters from `first`, `n` of them. -/
def threadsOn (s : State) (c first n : Nat) : List Nat :=
  (s.thrs.filter fun e => e.2.ctx == c && first ≤ e.2.lclu && e.2.lclu < first + n).map (·.1)

/-- CTX_PREEMPT's beginning: its clusters stop and every thread of the context there stops. -/
def preemptBegin (s : State) (port c first n : Nat) : State :=
  let ks := threadsOn s c first n
  let s := s.modCtx c fun x => { x with stopped := x.stopped ++ (List.range n).map (first + ·) }
  ks.foldl stopThread (begin_ s port)

/-- CTX_PREEMPT goes on, one step of each thread; complete when every thread has been saved. -/
def preemptGo (s : State) (port c first n : Nat) : State :=
  let s := (threadsOn s c first n).foldl stopStep s
  if threadsOn s c first n = [] then finish s port 0 [] else s

/-- CTX_PREEMPT (R423, R449): RESULT 4 when a cluster named is stopped already, or when save records are too few. -/
def execCtxPreempt (port : Nat) (s : State) : Host.Outcome State Fault Refusal :=
  let c := argOf s port 0
  let first := argOf s port 1
  let n := argOf s port 2
  let x := s.ctx c
  command s port 0x03
    (if !known s c then finish s port 3 []
    else if field (x.word 4) 15 0 < first + n then finish s port 1 []
    else if (s.mod.mbox port).began then preemptGo s port c first n
    else if (x.stopped.any fun l => first ≤ l && l < first + n) ||
        field (x.word 12) 15 0 < x.saved.length + (threadsOn s c first n).length then finish s port 4 []
    else preemptGo (preemptBegin s port c first n) port c first n)

/-- Whether a logical cluster maps to a cluster of this package. -/
def mapsHere (s : State) (x : Ctx) (l : Nat) : Bool :=
  match mapCluster s x l with
  | .ok (p, _) => p = s.mod.pkg
  | .error _ => false

/-- The fabrics of a context's clusters that were saved are restored where they can be; a cluster whose fabric is there, or was not saved,
runs again (R359, R425). -/
def resumeFabrics (s : State) (c first n : Nat) : State :=
  let s := ((s.ctx c).fabs.filter fun e => first ≤ e.1 && e.1 < first + n).foldl (fun s e =>
    match mapCluster s (s.ctx c) e.1 with
    | .ok (pk, q) => if pk = s.mod.pkg then giveFabric s c e.1 q else s
    | .error _ => s) s
  s.modCtx c fun x => { x with stopped := x.stopped.filter fun l => l < first || first + n ≤ l || (mapsHere s x l && (tget x.fabs l).isSome) }

/-- CTX_RESUME goes on: every saved thread that can be placed is placed; complete when every one is, and every cluster named runs. -/
def resumeGo (s : State) (port c first n : Nat) : State :=
  let s := resumeFabrics s c first n
  let mine := fun (s : State) => (s.ctx c).saved.filter fun e => first ≤ e.2.lclu && e.2.lclu < first + n
  let s := (mine s).foldl (fun s e => resumeOne s c e.1) s
  if mine s = [] && !((s.ctx c).stopped.any fun l => first ≤ l && l < first + n) then finish s port 0 [] else s

/-- CTX_RESUME (R425, R449): RESULT 4 when a cluster named is not stopped, or has a thread to place and no cluster of this
package. -/
def execCtxResume (port : Nat) (s : State) : Host.Outcome State Fault Refusal :=
  let c := argOf s port 0
  let first := argOf s port 1
  let n := argOf s port 2
  let x := s.ctx c
  command s port 0x04
    (if !known s c then finish s port 3 []
    else if field (x.word 4) 15 0 < first + n then finish s port 1 []
    else if (s.mod.mbox port).began then resumeGo s port c first n
    else if !((List.range n).all fun i => x.stopped.contains (first + i)) ||
        x.saved.any fun e => first ≤ e.2.lclu && e.2.lclu < first + n && !mapsHere s x e.2.lclu then finish s port 4 []
    else resumeGo (begin_ s port) port c first n)

/-- Whether a new map entry is a good argument (R178, R179): it is not valid, or it names a cluster that no other valid entry of
the map names, on which the entries of the context's stream table are free. -/
def mapArg (s : State) (c l e : Nat) : Bool :=
  let x := s.ctx c
  let key := 80 * field e 9 7 + field e 6 0
  l < field (x.word 4) 15 0 && e < 2 ^ 32 && field e 30 16 = 0 &&
  (field e 31 31 = 0 || field e 6 0 ≤ 79 &&
    (field e 15 10 != s.mod.pkg || (standsAt s c l).all fun p =>
      p = key || (s.clu p).stab.all fun y => y.2.ctx != c || (tget (s.clu key).stab y.1).isNone) &&
    ((List.range (field (x.word 4) 15 0)).all fun n => n = l ||
      match mapCluster s x n with
      | .ok (p, k) => !(p == field e 15 10 && k == key)
      | .error _ => true))

/-- CTX_MAP (R179, R449): with every thread of the context stopped, its engines idle on the cluster and its record free to be written, the
cluster moves, stays or leaves as the new entry says, and the entry is rewritten. -/
def remap (s : State) (port c l e : Nat) : State :=
  let at_ := field ((s.ctx c).word 3) 55 8 * 256 + 4 * l
  let write := fun (s : State) => finish (flushMaps (hwStore s at_ (leBytes 4 e))) port 0 []
  let q := 80 * field e 9 7 + field e 6 0
  let here := e.testBit 31 && field e 15 10 = s.mod.pkg
  if hwBlocked s at_ 4 then s
  else match standsAt s c l with
  | none => write s
  | some p =>
    if here && p = q then write (s.modCtx c fun x => { x with parked := tdel x.parked l })
    else if cluBusy s c p || hwBlocked s (cluRecord (s.ctx c) l) (2 ^ 22) || (here && fabricWaits s q) then s
    else if here then write (moveCluster s c l p q)
    else if e.testBit 31 then write (sendCluster s c l p)
    else write (parkCluster s c l p)

/-- CTX_MAP (R179, R449). -/
def execCtxMap (port : Nat) (s : State) : Host.Outcome State Fault Refusal :=
  let c := argOf s port 0
  command s port 0x05
    (if !known s c then finish s port 3 []
    else if !mapArg s c (argOf s port 1) (argOf s port 2) then finish s port 1 []
    else if s.thrs.any fun e => e.2.ctx == c then finish s port 4 []
    else remap s port c (argOf s port 1) (argOf s port 2))

/-! ### The module -/

/-- The module's own memory takes its new package number (R17, R440). -/
def rekey (s : State) (old new : Nat) : State :=
  let at_ := fun (a : Nat) => if paPkg a = old then a - old * 2 ^ 50 + new * 2 ^ 50 else a
  let gr := fun (g : Nat) => at_ (16 * g) / 16
  { s with
    mem := s.mem.foldl (fun m c => mput m (at_ c.1) c.2) []
    poison := s.poison.map gr
    full := s.full.map gr
    l2 := s.l2.map fun l => at_ (64 * l) / 64 }

/-- POD_SET (R440, R449): the module's package number and the presence mask. -/
def execPodSet (port : Nat) (s : State) : Host.Outcome State Fault Refusal :=
  let p := argOf s port 0 % 64
  command s port 0x10 (locked s port
    (finish ((rekey s s.mod.pkg p).modMod fun m => { m with pkg := p, presence := BitVec.ofNat 64 (argOf s port 1) })
      port 0 []))

/-- POWER_SET (R449, R451): the limit is divided among the islands. -/
def execPowerSet (port : Nat) (s : State) : Host.Outcome State Fault Refusal :=
  let w := argOf s port 0
  command s port 0x11 (locked s port
    (if w < 1000 || 5200 < w then finish s port 1 []
    else finish (s.modMod fun m => (List.range 18).foldl (fun m i => setIsland m i false) { m with power := w }) port 0 []))

/-- ERR_CLEAR (R449, R450): every error counter is zero. -/
def execErrClear (port : Nat) (s : State) : Host.Outcome State Fault Refusal :=
  let clear := { s with dies := s.dies.map fun (e : Nat × Die) => (e.1, { e.2 with errs := [] }) }
  command s port 0x12 (locked s port (finish (clear.modMod fun m => { m with ioErr := 0 }) port 0 []))

end Sys2Proof.Machine
end

