-- ==== Sys2Proof/Machine/Scalar.lean ====
section
/-! DEFINITION. The scalar instructions: integer arithmetic, logic, bit fields, tests, immediates, moves, constants and
hints (R202, R237 to R245). -/

namespace Sys2Proof.Machine

/-- Bits [31:0], as the `.w` tests compare them (R241). -/
def lo32 (a : Word) : BitVec 32 := bits a 0 32

/-- A G-format instruction on operands a and b. -/
def scalar2 (f : GF) (s : State) (op : Word → Word → Word) : Host.Outcome State Fault Refusal :=
  firePure s f.p true true false [f.t0, f.t1] fun a b _ => .s (op a.word b.word)

/-- A G-format instruction on operand a only. -/
def scalar1 (f : GF) (s : State) (op : Word → Word) : Host.Outcome State Fault Refusal :=
  firePure s f.p true false false [f.t0, f.t1] fun a _ _ => .s (op a.word)

/-- IMM14 sign-extended (R191). -/
def immSx (f : IF) : Word := f.imm.signExtend 64
/-- IMM14 zero-extended (R191). -/
def immZx (f : IF) : Word := f.imm.setWidth 64

/-- An I-format instruction: operand a and the immediate. -/
def scalarI (f : IF) (s : State) (imm : IF → Word) (op : Word → Word → Word) : Host.Outcome State Fault Refusal :=
  firePure s f.p true false false [f.t0] fun a _ _ => .s (op a.word (imm f))

/-- ADD (R237). -/
def execAdd (f : GF) (s : State) : Host.Outcome State Fault Refusal :=
  scalar2 f s fun a b => a + b

/-- SUB (R237). -/
def execSub (f : GF) (s : State) : Host.Outcome State Fault Refusal :=
  scalar2 f s fun a b => a - b

/-- MUL (R237). -/
def execMul (f : GF) (s : State) : Host.Outcome State Fault Refusal :=
  scalar2 f s fun a b => a * b

/-- MULH (R237). -/
def execMulh (f : GF) (s : State) : Host.Outcome State Fault Refusal :=
  scalar2 f s fun a b => aluMulh a b

/-- MULHZ (R237). -/
def execMulhz (f : GF) (s : State) : Host.Outcome State Fault Refusal :=
  scalar2 f s fun a b => aluMulhz a b

/-- DIV (R238). -/
def execDiv (f : GF) (s : State) : Host.Outcome State Fault Refusal :=
  scalar2 f s fun a b => aluDiv a b

/-- DIVZ (R238). -/
def execDivz (f : GF) (s : State) : Host.Outcome State Fault Refusal :=
  scalar2 f s fun a b => aluDivz a b

/-- REM (R238). -/
def execRem (f : GF) (s : State) : Host.Outcome State Fault Refusal :=
  scalar2 f s fun a b => aluRem a b

/-- REMZ (R238). -/
def execRemz (f : GF) (s : State) : Host.Outcome State Fault Refusal :=
  scalar2 f s fun a b => aluRemz a b

/-- MIN (R237). -/
def execMin (f : GF) (s : State) : Host.Outcome State Fault Refusal :=
  scalar2 f s fun a b => aluMin a b

/-- MAX (R237). -/
def execMax (f : GF) (s : State) : Host.Outcome State Fault Refusal :=
  scalar2 f s fun a b => aluMax a b

/-- MINZ (R237). -/
def execMinz (f : GF) (s : State) : Host.Outcome State Fault Refusal :=
  scalar2 f s fun a b => aluMinz a b

/-- MAXZ (R237). -/
def execMaxz (f : GF) (s : State) : Host.Outcome State Fault Refusal :=
  scalar2 f s fun a b => aluMaxz a b

/-- ABS (R237). -/
def execAbs (f : GF) (s : State) : Host.Outcome State Fault Refusal :=
  scalar1 f s fun a => aluAbs a

/-- NEG (R237). -/
def execNeg (f : GF) (s : State) : Host.Outcome State Fault Refusal :=
  scalar1 f s fun a => -a

/-- ADD_W (R237). -/
def execAddW (f : GF) (s : State) : Host.Outcome State Fault Refusal :=
  scalar2 f s fun a b => aluW (· + ·) a b

/-- SUB_W (R237). -/
def execSubW (f : GF) (s : State) : Host.Outcome State Fault Refusal :=
  scalar2 f s fun a b => aluW (· - ·) a b

/-- MUL_W (R237). -/
def execMulW (f : GF) (s : State) : Host.Outcome State Fault Refusal :=
  scalar2 f s fun a b => aluW (· * ·) a b

/-- MULH_W (R237). -/
def execMulhW (f : GF) (s : State) : Host.Outcome State Fault Refusal :=
  scalar2 f s fun a b => aluW aluMulh32 a b

/-- MULHZ_W (R237). -/
def execMulhzW (f : GF) (s : State) : Host.Outcome State Fault Refusal :=
  scalar2 f s fun a b => aluW aluMulhz32 a b

/-- DIV_W (R238). -/
def execDivW (f : GF) (s : State) : Host.Outcome State Fault Refusal :=
  scalar2 f s fun a b => aluW aluDiv a b

/-- DIVZ_W (R238). -/
def execDivzW (f : GF) (s : State) : Host.Outcome State Fault Refusal :=
  scalar2 f s fun a b => aluW aluDivz a b

/-- REM_W (R238). -/
def execRemW (f : GF) (s : State) : Host.Outcome State Fault Refusal :=
  scalar2 f s fun a b => aluW aluRem a b

/-- REMZ_W (R238). -/
def execRemzW (f : GF) (s : State) : Host.Outcome State Fault Refusal :=
  scalar2 f s fun a b => aluW aluRemz a b

/-- MIN_W (R237). -/
def execMinW (f : GF) (s : State) : Host.Outcome State Fault Refusal :=
  scalar2 f s fun a b => aluW aluMin a b

/-- MAX_W (R237). -/
def execMaxW (f : GF) (s : State) : Host.Outcome State Fault Refusal :=
  scalar2 f s fun a b => aluW aluMax a b

/-- MINZ_W (R237). -/
def execMinzW (f : GF) (s : State) : Host.Outcome State Fault Refusal :=
  scalar2 f s fun a b => aluW aluMinz a b

/-- MAXZ_W (R237). -/
def execMaxzW (f : GF) (s : State) : Host.Outcome State Fault Refusal :=
  scalar2 f s fun a b => aluW aluMaxz a b

/-- ABS_W (R237). -/
def execAbsW (f : GF) (s : State) : Host.Outcome State Fault Refusal :=
  scalar1 f s fun a => aluW (fun x _ => aluAbs x) a a

/-- NEG_W (R237). -/
def execNegW (f : GF) (s : State) : Host.Outcome State Fault Refusal :=
  scalar1 f s fun a => aluW (fun x _ => -x) a a

/-- AND (R239). -/
def execAnd (f : GF) (s : State) : Host.Outcome State Fault Refusal :=
  scalar2 f s fun a b => a &&& b

/-- OR (R239). -/
def execOr (f : GF) (s : State) : Host.Outcome State Fault Refusal :=
  scalar2 f s fun a b => a ||| b

/-- XOR (R239). -/
def execXor (f : GF) (s : State) : Host.Outcome State Fault Refusal :=
  scalar2 f s fun a b => a ^^^ b

/-- ANDN (R239). -/
def execAndn (f : GF) (s : State) : Host.Outcome State Fault Refusal :=
  scalar2 f s fun a b => a &&& ~~~b

/-- ORN (R239). -/
def execOrn (f : GF) (s : State) : Host.Outcome State Fault Refusal :=
  scalar2 f s fun a b => a ||| ~~~b

/-- SHL (R239). -/
def execShl (f : GF) (s : State) : Host.Outcome State Fault Refusal :=
  scalar2 f s fun a b => aluShl a b

/-- SHR (R239). -/
def execShr (f : GF) (s : State) : Host.Outcome State Fault Refusal :=
  scalar2 f s fun a b => aluShr a b

/-- SAR (R239). -/
def execSar (f : GF) (s : State) : Host.Outcome State Fault Refusal :=
  scalar2 f s fun a b => aluSar a b

/-- ROL (R239). -/
def execRol (f : GF) (s : State) : Host.Outcome State Fault Refusal :=
  scalar2 f s fun a b => aluRol a b

/-- ROR (R239). -/
def execRor (f : GF) (s : State) : Host.Outcome State Fault Refusal :=
  scalar2 f s fun a b => aluRor a b

/-- CLZ (R240). -/
def execClz (f : GF) (s : State) : Host.Outcome State Fault Refusal :=
  scalar1 f s fun a => aluClz a

/-- CTZ (R240). -/
def execCtz (f : GF) (s : State) : Host.Outcome State Fault Refusal :=
  scalar1 f s fun a => aluCtz a

/-- POPC (R240). -/
def execPopc (f : GF) (s : State) : Host.Outcome State Fault Refusal :=
  scalar1 f s fun a => aluPopc a

/-- BREV (R240). -/
def execBrev (f : GF) (s : State) : Host.Outcome State Fault Refusal :=
  scalar1 f s fun a => aluBrev a

/-- BSWAP (R240). -/
def execBswap (f : GF) (s : State) : Host.Outcome State Fault Refusal :=
  scalar1 f s fun a => aluBswap a

/-- EXTS (R240). -/
def execExts (f : GF) (s : State) : Host.Outcome State Fault Refusal :=
  scalar2 f s fun a b => aluExts a b

/-- EXTZ (R240). -/
def execExtz (f : GF) (s : State) : Host.Outcome State Fault Refusal :=
  scalar2 f s fun a b => aluExtz a b

/-- INS (R240). -/
def execIns (f : GF) (s : State) : Host.Outcome State Fault Refusal :=
  scalar2 f s fun a b => aluIns a b

/-- TEQ (R241). -/
def execTeq (f : GF) (s : State) : Host.Outcome State Fault Refusal :=
  scalar2 f s fun a b => tok (a == b)

/-- TNE (R241). -/
def execTne (f : GF) (s : State) : Host.Outcome State Fault Refusal :=
  scalar2 f s fun a b => tok (a != b)

/-- TLT (R241). -/
def execTlt (f : GF) (s : State) : Host.Outcome State Fault Refusal :=
  scalar2 f s fun a b => tok (a.slt b)

/-- TLE (R241). -/
def execTle (f : GF) (s : State) : Host.Outcome State Fault Refusal :=
  scalar2 f s fun a b => tok (a.sle b)

/-- TLTZ (R241). -/
def execTltz (f : GF) (s : State) : Host.Outcome State Fault Refusal :=
  scalar2 f s fun a b => tok (a.ult b)

/-- TLEZ (R241). -/
def execTlez (f : GF) (s : State) : Host.Outcome State Fault Refusal :=
  scalar2 f s fun a b => tok (a.ule b)

/-- TEQ_W (R241). -/
def execTeqW (f : GF) (s : State) : Host.Outcome State Fault Refusal :=
  scalar2 f s fun a b => tok (lo32 a == lo32 b)

/-- TNE_W (R241). -/
def execTneW (f : GF) (s : State) : Host.Outcome State Fault Refusal :=
  scalar2 f s fun a b => tok (lo32 a != lo32 b)

/-- TLT_W (R241). -/
def execTltW (f : GF) (s : State) : Host.Outcome State Fault Refusal :=
  scalar2 f s fun a b => tok ((lo32 a).slt (lo32 b))

/-- TLE_W (R241). -/
def execTleW (f : GF) (s : State) : Host.Outcome State Fault Refusal :=
  scalar2 f s fun a b => tok ((lo32 a).sle (lo32 b))

/-- TLTZ_W (R241). -/
def execTltzW (f : GF) (s : State) : Host.Outcome State Fault Refusal :=
  scalar2 f s fun a b => tok ((lo32 a).ult (lo32 b))

/-- TLEZ_W (R241). -/
def execTlezW (f : GF) (s : State) : Host.Outcome State Fault Refusal :=
  scalar2 f s fun a b => tok ((lo32 a).ule (lo32 b))

/-- ADDI (R242, R191). -/
def execAddi (f : IF) (s : State) : Host.Outcome State Fault Refusal :=
  scalarI f s immSx fun a m => a + m

/-- MULI (R242, R191). -/
def execMuli (f : IF) (s : State) : Host.Outcome State Fault Refusal :=
  scalarI f s immSx fun a m => a * m

/-- ANDI (R242, R191). -/
def execAndi (f : IF) (s : State) : Host.Outcome State Fault Refusal :=
  scalarI f s immZx fun a m => a &&& m

/-- ORI (R242, R191). -/
def execOri (f : IF) (s : State) : Host.Outcome State Fault Refusal :=
  scalarI f s immZx fun a m => a ||| m

/-- XORI (R242, R191). -/
def execXori (f : IF) (s : State) : Host.Outcome State Fault Refusal :=
  scalarI f s immZx fun a m => a ^^^ m

/-- TEQI (R242, R191). -/
def execTeqi (f : IF) (s : State) : Host.Outcome State Fault Refusal :=
  scalarI f s immSx fun a m => tok (a == m)

/-- TNEI (R242, R191). -/
def execTnei (f : IF) (s : State) : Host.Outcome State Fault Refusal :=
  scalarI f s immSx fun a m => tok (a != m)

/-- TLTI (R242, R191). -/
def execTlti (f : IF) (s : State) : Host.Outcome State Fault Refusal :=
  scalarI f s immSx fun a m => tok (a.slt m)

/-- TLEI (R242, R191). -/
def execTlei (f : IF) (s : State) : Host.Outcome State Fault Refusal :=
  scalarI f s immSx fun a m => tok (a.sle m)

/-- TLTZI (R242, R191). -/
def execTltzi (f : IF) (s : State) : Host.Outcome State Fault Refusal :=
  scalarI f s immZx fun a m => tok (a.ult m)

/-- TLEZI (R242, R191). -/
def execTlezi (f : IF) (s : State) : Host.Outcome State Fault Refusal :=
  scalarI f s immZx fun a m => tok (a.ule m)

/-- ADDIW (R242, R191). -/
def execAddiw (f : IF) (s : State) : Host.Outcome State Fault Refusal :=
  scalarI f s immSx fun a m => aluW (· + ·) a m

/-- SHLI (R242): SHL with the count of IMM14[5:0]. -/
def execShli (f : ShF) (s : State) : Host.Outcome State Fault Refusal :=
  firePure s f.p true false false [f.t0] fun a _ _ => .s (aluShl a.word (f.cnt.setWidth 64))

/-- SHRI (R242): SHR with the count of IMM14[5:0]. -/
def execShri (f : ShF) (s : State) : Host.Outcome State Fault Refusal :=
  firePure s f.p true false false [f.t0] fun a _ _ => .s (aluShr a.word (f.cnt.setWidth 64))

/-- SARI (R242): SAR with the count of IMM14[5:0]. -/
def execSari (f : ShF) (s : State) : Host.Outcome State Fault Refusal :=
  firePure s f.p true false false [f.t0] fun a _ _ => .s (aluSar a.word (f.cnt.setWidth 64))

/-- MOV (R243): operand a unchanged, of either width. -/
def execMov (f : GF) (s : State) : Host.Outcome State Fault Refusal :=
  firePure s f.p true false false [f.t0, f.t1] fun a _ _ => a

/-- SEL (R243): b when a is not zero, a null token when it is. -/
def execSel (f : GF) (s : State) : Host.Outcome State Fault Refusal :=
  firePure s f.p true true false [f.t0, f.t1] fun a b _ => if a.word != 0#64 then b else .null

/-- NULL (R243): null to both targets. -/
def execNull (f : GF) (s : State) : Host.Outcome State Fault Refusal :=
  firePure s f.p false false false [f.t0, f.t1] fun _ _ _ => .null

/-- MOVI (R244): CONST16 sign-extended; never predicated (R190). -/
def execMovi (f : CF) (s : State) : Host.Outcome State Fault Refusal :=
  firePure s 0#2 false false false [f.t0] fun _ _ _ => .s (f.k.signExtend 64)

/-- APPI (R244): (a << 16) OR CONST16; never predicated (R190). -/
def execAppi (f : CF) (s : State) : Host.Outcome State Fault Refusal :=
  firePure s 0#2 true false false [f.t0] fun a _ _ => .s ((a.word <<< 16) ||| f.k.setWidth 64)

/-- MOV4 (R245): operand a unchanged to four targets. -/
def execMov4 (f : Mov4F) (s : State) : Host.Outcome State Fault Refusal :=
  firePure s f.p true false false [f.t0, f.t1, f.t2, f.t3] fun a _ _ => a

/-- HINT (R202): the GZ-8 implements no hint, so each acts as MOV; operand b is ignored and not waited for. -/
def execHint (f : HintF) (s : State) : Host.Outcome State Fault Refusal :=
  firePure s f.p true false false [f.t0, f.t1] fun a _ _ => a

end Sys2Proof.Machine
end

