-- ==== Sys2Proof/Machine/Vector.lean ====
section
/-! DEFINITION. The vector instructions (R281 to R297). -/

namespace Sys2Proof.Machine

/-- PRED of a vector form: one that takes operand c is never predicated (R283). -/
def vecPred (f : VecF) (c : Bool) : BitVec 2 := if c then 0#2 else f.p

/-- A vector form whose result depends on its operands alone; `b` and `c` say which operands it takes. -/
def vecPure (f : VecF) (s : State) (b c : Bool) (g : Tok → Tok → Tok → Tok) : Host.Outcome State Fault Refusal :=
  firePure s (vecPred f c) true b c [f.t0, f.t1] g

/-- A vector form that reads `fcr` and `srkey` (R283). -/
def vecEnv (f : VecF) (s : State) (b c : Bool) (g : FEnv → Tok → Tok → Tok → Tok × Flags) :
    Host.Outcome State Fault Refusal :=
  fireEnv s (vecPred f c) true b c [f.t0, f.t1] g

/-- A vector form on integer lanes whose only flag is IS (R286). -/
def vecFlags (f : VecF) (s : State) (b : Bool) (g : Vec → Vec → Vec × Flags) : Host.Outcome State Fault Refusal :=
  fireWith s f.p true b false (fun _ x => nullResult s [f.t0, f.t1] x)
    (fun _ x a b _ =>
      let r := g a.vec b.vec
      let x := (x.fireAt s.cur.2.2).send [f.t0, f.t1] (.v r.1)
      s.putFrame { x with flags := x.flags ||| r.2 })

/-- A VINT form of two operands (R285, R286). -/
def vecInt (f : VecF) (s : State) (op : Int → Int → Int) : Host.Outcome State Fault Refusal :=
  vecFlags f s true (vintOp f op)

/-- A VINT form of one operand (R285, R286). -/
def vecInt1 (f : VecF) (s : State) (op : Int → Int) : Host.Outcome State Fault Refusal :=
  vecFlags f s false fun a _ => vintOp f (fun x _ => op x) a a

/-- A VFP form: each lane computes exactly and rounds once (R288, R289). -/
def vecFp (f : VecF) (s : State) (op : FOp) (b c : Bool) : Host.Outcome State Fault Refusal :=
  vecEnv f s b c fun v x y z => let r := vfpOp f op v x.vec y.vec z.vec; (.v r.1, r.2)

/-- VADD (R285), saturating under SAT (R286). -/
def execVaddInt (f : VecF) (s : State) : Host.Outcome State Fault Refusal :=
  vecInt f s fun x y => x + y

/-- VSUB (R285), saturating under SAT (R286). -/
def execVsubInt (f : VecF) (s : State) : Host.Outcome State Fault Refusal :=
  vecInt f s fun x y => x - y

/-- VMUL (R285), saturating under SAT (R286). -/
def execVmulInt (f : VecF) (s : State) : Host.Outcome State Fault Refusal :=
  vecInt f s fun x y => x * y

/-- VMULH (R285): the high half of the exact product. -/
def execVmulh (f : VecF) (s : State) : Host.Outcome State Fault Refusal :=
  vecInt f s fun x y => x * y / 2 ^ laneWidth f.ty.toNat

/-- VMIN (R285). -/
def execVminInt (f : VecF) (s : State) : Host.Outcome State Fault Refusal :=
  vecInt f s fun x y => if x ≤ y then x else y

/-- VMAX (R285). -/
def execVmaxInt (f : VecF) (s : State) : Host.Outcome State Fault Refusal :=
  vecInt f s fun x y => if x ≤ y then y else x

/-- VABS (R285), saturating under SAT (R286). -/
def execVabsInt (f : VecF) (s : State) : Host.Outcome State Fault Refusal :=
  vecInt1 f s fun x => if x < 0 then -x else x

/-- VNEG (R285), saturating under SAT (R286). -/
def execVnegInt (f : VecF) (s : State) : Host.Outcome State Fault Refusal :=
  vecInt1 f s fun x => -x

/-- VAND (R285). -/
def execVand (f : VecF) (s : State) : Host.Outcome State Fault Refusal :=
  vecPure f s true false fun a b _ => .v (a.vec &&& b.vec)

/-- VOR (R285). -/
def execVor (f : VecF) (s : State) : Host.Outcome State Fault Refusal :=
  vecPure f s true false fun a b _ => .v (a.vec ||| b.vec)

/-- VXOR (R285). -/
def execVxor (f : VecF) (s : State) : Host.Outcome State Fault Refusal :=
  vecPure f s true false fun a b _ => .v (a.vec ^^^ b.vec)

/-- VSHL (R285). -/
def execVshl (f : VecF) (s : State) : Host.Outcome State Fault Refusal :=
  vecPure f s true false fun a b _ => .v (vshiftOp f shlLane a.vec b.vec).1

/-- VSHR (R285). -/
def execVshr (f : VecF) (s : State) : Host.Outcome State Fault Refusal :=
  vecPure f s true false fun a b _ => .v (vshiftOp f shrLane a.vec b.vec).1

/-- VSAR (R285). -/
def execVsar (f : VecF) (s : State) : Host.Outcome State Fault Refusal :=
  vecPure f s true false fun a b _ => .v (vshiftOp f sarLane a.vec b.vec).1

/-- VCMP on integer lanes (R285, R287). -/
def execVcmpInt (f : VecF) (s : State) : Host.Outcome State Fault Refusal :=
  vecPure f s true false fun a b _ => .v (vcmpIntOp f a.vec b.vec).1

/-- VSEL (R285). -/
def execVsel (f : VecF) (s : State) : Host.Outcome State Fault Refusal :=
  vecPure f s true true fun a b c => .v (vselOp a.vec b.vec c.vec)

/-- VADD (R288). -/
def execVaddFp (f : VecF) (s : State) : Host.Outcome State Fault Refusal :=
  vecFp f s .add true false

/-- VSUB (R288). -/
def execVsubFp (f : VecF) (s : State) : Host.Outcome State Fault Refusal :=
  vecFp f s .sub true false

/-- VMUL (R288). -/
def execVmulFp (f : VecF) (s : State) : Host.Outcome State Fault Refusal :=
  vecFp f s .mul true false

/-- VMIN (R288). -/
def execVminFp (f : VecF) (s : State) : Host.Outcome State Fault Refusal :=
  vecFp f s .min true false

/-- VMAX (R288). -/
def execVmaxFp (f : VecF) (s : State) : Host.Outcome State Fault Refusal :=
  vecFp f s .max true false

/-- VFMA (R288). -/
def execVfma (f : VecF) (s : State) : Host.Outcome State Fault Refusal :=
  vecFp f s .fma true true

/-- VFMS (R288). -/
def execVfms (f : VecF) (s : State) : Host.Outcome State Fault Refusal :=
  vecFp f s .fms true true

/-- VABS (R288). -/
def execVabsFp (f : VecF) (s : State) : Host.Outcome State Fault Refusal :=
  vecFp f s .abs false false

/-- VNEG (R288). -/
def execVnegFp (f : VecF) (s : State) : Host.Outcome State Fault Refusal :=
  vecFp f s .neg false false

/-- VCMP on floating-point lanes (R287, R288). -/
def execVcmpFp (f : VecF) (s : State) : Host.Outcome State Fault Refusal :=
  vecEnv f s true false fun v a b _ => let r := vcmpFpOp f v a.vec b.vec; (.v r.1, r.2)

/-- VRCP (R289). -/
def execVrcp (f : VecF) (s : State) : Host.Outcome State Fault Refusal :=
  vecFp f s .rcp false false

/-- VRSQ (R289). -/
def execVrsq (f : VecF) (s : State) : Host.Outcome State Fault Refusal :=
  vecFp f s .rsq false false

/-- VEXP2 (R289). -/
def execVexp2 (f : VecF) (s : State) : Host.Outcome State Fault Refusal :=
  vecFp f s .exp2 false false

/-- VLOG2 (R289). -/
def execVlog2 (f : VecF) (s : State) : Host.Outcome State Fault Refusal :=
  vecFp f s .log2 false false

/-- VCVT (R290). -/
def execVcvt (f : VecF) (s : State) : Host.Outcome State Fault Refusal :=
  vecEnv f s false false fun v a _ _ => let r := vcvtOp f v a.vec; (.v r.1, r.2)

/-- VSHUF (R291). -/
def execVshuf (f : VecF) (s : State) : Host.Outcome State Fault Refusal :=
  vecPure f s true false fun a b _ => .v (vshufOp f a.vec b.vec)

/-- VBCAST (R291). -/
def execVbcast (f : VecF) (s : State) : Host.Outcome State Fault Refusal :=
  vecPure f s false false fun a _ _ => .v (vbcastOp f a.word)

/-- VINS (R291). -/
def execVins (f : VecF) (s : State) : Host.Outcome State Fault Refusal :=
  vecPure f s true false fun a b _ => .v (vinsOp f a.vec b.word)

/-- VEXT (R291). -/
def execVext (f : VecF) (s : State) : Host.Outcome State Fault Refusal :=
  vecPure f s false false fun a _ _ => .s (vextOp f a.vec)

/-- VRED (R293). -/
def execVred (f : VecF) (s : State) : Host.Outcome State Fault Refusal :=
  vecEnv f s false false fun v a _ _ => let r := vredOp f v a.vec; (.s r.1, r.2)

/-- VSCAN (R293). -/
def execVscan (f : VecF) (s : State) : Host.Outcome State Fault Refusal :=
  vecEnv f s true false fun v a b _ => let r := vscanOp f v a.vec b.word; (.v r.1, r.2)

/-- VDOT (R294). -/
def execVdot (f : VecF) (s : State) : Host.Outcome State Fault Refusal :=
  vecEnv f s true true fun v a b c => let r := vdotOp f v a.vec b.vec c.vec; (.v r.1, r.2)

/-- VMXQ (R296). -/
def execVmxq (f : VecF) (s : State) : Host.Outcome State Fault Refusal :=
  vecEnv f s true false fun v a b _ => let r := vmxqOp f v a.vec b.vec; (.v r.1, r.2)

/-- VMXDQ (R296). -/
def execVmxdq (f : VecF) (s : State) : Host.Outcome State Fault Refusal :=
  vecEnv f s false false fun v a _ _ => let r := vmxdqOp f v a.vec; (.v r.1, r.2)

/-- VNIPACK (R297). -/
def execVnipack (f : VecF) (s : State) : Host.Outcome State Fault Refusal :=
  vecPure f s false false fun a _ _ => .v (vnipackOp a.vec)

/-- VNIUNPACK (R297). -/
def execVniunpack (f : VecF) (s : State) : Host.Outcome State Fault Refusal :=
  vecPure f s false false fun a _ _ => .v (vniunpackOp f a.vec)

end Sys2Proof.Machine
end

