-- ==== Sys2Proof/Machine/Dispatch.lean ====
section
/-! DEFINITION. One arm for each constructor of `Instr`: its meaning. -/

namespace Sys2Proof.Machine

def exec (i : Instr) (s : State) : Host.Outcome State Fault Refusal :=
  match i with
  | .add f => Sys2Proof.Machine.execAdd f s
  | .sub f => Sys2Proof.Machine.execSub f s
  | .mul f => Sys2Proof.Machine.execMul f s
  | .mulh f => Sys2Proof.Machine.execMulh f s
  | .mulhz f => Sys2Proof.Machine.execMulhz f s
  | .div f => Sys2Proof.Machine.execDiv f s
  | .divz f => Sys2Proof.Machine.execDivz f s
  | .rem f => Sys2Proof.Machine.execRem f s
  | .remz f => Sys2Proof.Machine.execRemz f s
  | .min f => Sys2Proof.Machine.execMin f s
  | .max f => Sys2Proof.Machine.execMax f s
  | .minz f => Sys2Proof.Machine.execMinz f s
  | .maxz f => Sys2Proof.Machine.execMaxz f s
  | .abs f => Sys2Proof.Machine.execAbs f s
  | .neg f => Sys2Proof.Machine.execNeg f s
  | .addW f => Sys2Proof.Machine.execAddW f s
  | .subW f => Sys2Proof.Machine.execSubW f s
  | .mulW f => Sys2Proof.Machine.execMulW f s
  | .mulhW f => Sys2Proof.Machine.execMulhW f s
  | .mulhzW f => Sys2Proof.Machine.execMulhzW f s
  | .divW f => Sys2Proof.Machine.execDivW f s
  | .divzW f => Sys2Proof.Machine.execDivzW f s
  | .remW f => Sys2Proof.Machine.execRemW f s
  | .remzW f => Sys2Proof.Machine.execRemzW f s
  | .minW f => Sys2Proof.Machine.execMinW f s
  | .maxW f => Sys2Proof.Machine.execMaxW f s
  | .minzW f => Sys2Proof.Machine.execMinzW f s
  | .maxzW f => Sys2Proof.Machine.execMaxzW f s
  | .absW f => Sys2Proof.Machine.execAbsW f s
  | .negW f => Sys2Proof.Machine.execNegW f s
  | .and f => Sys2Proof.Machine.execAnd f s
  | .or f => Sys2Proof.Machine.execOr f s
  | .xor f => Sys2Proof.Machine.execXor f s
  | .andn f => Sys2Proof.Machine.execAndn f s
  | .orn f => Sys2Proof.Machine.execOrn f s
  | .shl f => Sys2Proof.Machine.execShl f s
  | .shr f => Sys2Proof.Machine.execShr f s
  | .sar f => Sys2Proof.Machine.execSar f s
  | .rol f => Sys2Proof.Machine.execRol f s
  | .ror f => Sys2Proof.Machine.execRor f s
  | .clz f => Sys2Proof.Machine.execClz f s
  | .ctz f => Sys2Proof.Machine.execCtz f s
  | .popc f => Sys2Proof.Machine.execPopc f s
  | .brev f => Sys2Proof.Machine.execBrev f s
  | .bswap f => Sys2Proof.Machine.execBswap f s
  | .exts f => Sys2Proof.Machine.execExts f s
  | .extz f => Sys2Proof.Machine.execExtz f s
  | .ins f => Sys2Proof.Machine.execIns f s
  | .teq f => Sys2Proof.Machine.execTeq f s
  | .tne f => Sys2Proof.Machine.execTne f s
  | .tlt f => Sys2Proof.Machine.execTlt f s
  | .tle f => Sys2Proof.Machine.execTle f s
  | .tltz f => Sys2Proof.Machine.execTltz f s
  | .tlez f => Sys2Proof.Machine.execTlez f s
  | .teqW f => Sys2Proof.Machine.execTeqW f s
  | .tneW f => Sys2Proof.Machine.execTneW f s
  | .tltW f => Sys2Proof.Machine.execTltW f s
  | .tleW f => Sys2Proof.Machine.execTleW f s
  | .tltzW f => Sys2Proof.Machine.execTltzW f s
  | .tlezW f => Sys2Proof.Machine.execTlezW f s
  | .mov f => Sys2Proof.Machine.execMov f s
  | .sel f => Sys2Proof.Machine.execSel f s
  | .null f => Sys2Proof.Machine.execNull f s
  | .faddF64 f => Sys2Proof.Machine.execFaddF64 f s
  | .fsubF64 f => Sys2Proof.Machine.execFsubF64 f s
  | .fmulF64 f => Sys2Proof.Machine.execFmulF64 f s
  | .fdivF64 f => Sys2Proof.Machine.execFdivF64 f s
  | .fsqrtF64 f => Sys2Proof.Machine.execFsqrtF64 f s
  | .ffmaF64 f => Sys2Proof.Machine.execFfmaF64 f s
  | .fminF64 f => Sys2Proof.Machine.execFminF64 f s
  | .fmaxF64 f => Sys2Proof.Machine.execFmaxF64 f s
  | .faddF32 f => Sys2Proof.Machine.execFaddF32 f s
  | .fsubF32 f => Sys2Proof.Machine.execFsubF32 f s
  | .fmulF32 f => Sys2Proof.Machine.execFmulF32 f s
  | .fdivF32 f => Sys2Proof.Machine.execFdivF32 f s
  | .fsqrtF32 f => Sys2Proof.Machine.execFsqrtF32 f s
  | .ffmaF32 f => Sys2Proof.Machine.execFfmaF32 f s
  | .fminF32 f => Sys2Proof.Machine.execFminF32 f s
  | .fmaxF32 f => Sys2Proof.Machine.execFmaxF32 f s
  | .fcmpEqF64 f => Sys2Proof.Machine.execFcmpEqF64 f s
  | .fcmpLtF64 f => Sys2Proof.Machine.execFcmpLtF64 f s
  | .fcmpLeF64 f => Sys2Proof.Machine.execFcmpLeF64 f s
  | .fcmpUnF64 f => Sys2Proof.Machine.execFcmpUnF64 f s
  | .fcmpEqF32 f => Sys2Proof.Machine.execFcmpEqF32 f s
  | .fcmpLtF32 f => Sys2Proof.Machine.execFcmpLtF32 f s
  | .fcmpLeF32 f => Sys2Proof.Machine.execFcmpLeF32 f s
  | .fcmpUnF32 f => Sys2Proof.Machine.execFcmpUnF32 f s
  | .fcvtF64F32 f => Sys2Proof.Machine.execFcvtF64F32 f s
  | .fcvtF32F64 f => Sys2Proof.Machine.execFcvtF32F64 f s
  | .fcvtI64F64 f => Sys2Proof.Machine.execFcvtI64F64 f s
  | .fcvtF64I64 f => Sys2Proof.Machine.execFcvtF64I64 f s
  | .fcvtI64F32 f => Sys2Proof.Machine.execFcvtI64F32 f s
  | .fcvtF32I64 f => Sys2Proof.Machine.execFcvtF32I64 f s
  | .fcvtI64F64Rtz f => Sys2Proof.Machine.execFcvtI64F64Rtz f s
  | .fcvtI64F32Rtz f => Sys2Proof.Machine.execFcvtI64F32Rtz f s
  | .addi f => Sys2Proof.Machine.execAddi f s
  | .muli f => Sys2Proof.Machine.execMuli f s
  | .andi f => Sys2Proof.Machine.execAndi f s
  | .ori f => Sys2Proof.Machine.execOri f s
  | .xori f => Sys2Proof.Machine.execXori f s
  | .shli f => Sys2Proof.Machine.execShli f s
  | .shri f => Sys2Proof.Machine.execShri f s
  | .sari f => Sys2Proof.Machine.execSari f s
  | .teqi f => Sys2Proof.Machine.execTeqi f s
  | .tnei f => Sys2Proof.Machine.execTnei f s
  | .tlti f => Sys2Proof.Machine.execTlti f s
  | .tlei f => Sys2Proof.Machine.execTlei f s
  | .tltzi f => Sys2Proof.Machine.execTltzi f s
  | .tlezi f => Sys2Proof.Machine.execTlezi f s
  | .addiw f => Sys2Proof.Machine.execAddiw f s
  | .movi f => Sys2Proof.Machine.execMovi f s
  | .appi f => Sys2Proof.Machine.execAppi f s
  | .ldb f => Sys2Proof.Machine.execLdb f s
  | .ldh f => Sys2Proof.Machine.execLdh f s
  | .ldw f => Sys2Proof.Machine.execLdw f s
  | .ldd f => Sys2Proof.Machine.execLdd f s
  | .ldbs f => Sys2Proof.Machine.execLdbs f s
  | .ldhs f => Sys2Proof.Machine.execLdhs f s
  | .ldws f => Sys2Proof.Machine.execLdws f s
  | .ldv f => Sys2Proof.Machine.execLdv f s
  | .stb f => Sys2Proof.Machine.execStb f s
  | .sth f => Sys2Proof.Machine.execSth f s
  | .stw f => Sys2Proof.Machine.execStw f s
  | .std f => Sys2Proof.Machine.execStd f s
  | .stv f => Sys2Proof.Machine.execStv f s
  | .br f => Sys2Proof.Machine.execBr f s
  | .call f => Sys2Proof.Machine.execCall f s
  | .bri f => Sys2Proof.Machine.execBri f s
  | .ret f => Sys2Proof.Machine.execRet f s
  | .scall f => Sys2Proof.Machine.execScall f s
  | .hint f => Sys2Proof.Machine.execHint f s
  | .calli f => Sys2Proof.Machine.execCalli f s
  | .mov4 f => Sys2Proof.Machine.execMov4 f s
  | .ld f => Sys2Proof.Machine.execLd f s
  | .st f => Sys2Proof.Machine.execSt f s
  | .gather f => Sys2Proof.Machine.execGather f s
  | .scatter f => Sys2Proof.Machine.execScatter f s
  | .pref f => Sys2Proof.Machine.execPref f s
  | .lflush f => Sys2Proof.Machine.execLflush f s
  | .linv f => Sys2Proof.Machine.execLinv f s
  | .aadd f => Sys2Proof.Machine.execAadd f s
  | .aand f => Sys2Proof.Machine.execAand f s
  | .aor f => Sys2Proof.Machine.execAor f s
  | .axor f => Sys2Proof.Machine.execAxor f s
  | .amin f => Sys2Proof.Machine.execAmin f s
  | .amax f => Sys2Proof.Machine.execAmax f s
  | .aminz f => Sys2Proof.Machine.execAminz f s
  | .amaxz f => Sys2Proof.Machine.execAmaxz f s
  | .axchg f => Sys2Proof.Machine.execAxchg f s
  | .acas f => Sys2Proof.Machine.execAcas f s
  | .afaddF32 f => Sys2Proof.Machine.execAfaddF32 f s
  | .afaddBf16x2 f => Sys2Proof.Machine.execAfaddBf16x2 f s
  | .fence f => Sys2Proof.Machine.execFence f s
  | .bara f => Sys2Proof.Machine.execBara f s
  | .barw f => Sys2Proof.Machine.execBarw f s
  | .vaddInt f => Sys2Proof.Machine.execVaddInt f s
  | .vsubInt f => Sys2Proof.Machine.execVsubInt f s
  | .vmulInt f => Sys2Proof.Machine.execVmulInt f s
  | .vmulh f => Sys2Proof.Machine.execVmulh f s
  | .vminInt f => Sys2Proof.Machine.execVminInt f s
  | .vmaxInt f => Sys2Proof.Machine.execVmaxInt f s
  | .vabsInt f => Sys2Proof.Machine.execVabsInt f s
  | .vnegInt f => Sys2Proof.Machine.execVnegInt f s
  | .vand f => Sys2Proof.Machine.execVand f s
  | .vor f => Sys2Proof.Machine.execVor f s
  | .vxor f => Sys2Proof.Machine.execVxor f s
  | .vshl f => Sys2Proof.Machine.execVshl f s
  | .vshr f => Sys2Proof.Machine.execVshr f s
  | .vsar f => Sys2Proof.Machine.execVsar f s
  | .vcmpInt f => Sys2Proof.Machine.execVcmpInt f s
  | .vsel f => Sys2Proof.Machine.execVsel f s
  | .vaddFp f => Sys2Proof.Machine.execVaddFp f s
  | .vsubFp f => Sys2Proof.Machine.execVsubFp f s
  | .vmulFp f => Sys2Proof.Machine.execVmulFp f s
  | .vfma f => Sys2Proof.Machine.execVfma f s
  | .vfms f => Sys2Proof.Machine.execVfms f s
  | .vminFp f => Sys2Proof.Machine.execVminFp f s
  | .vmaxFp f => Sys2Proof.Machine.execVmaxFp f s
  | .vabsFp f => Sys2Proof.Machine.execVabsFp f s
  | .vnegFp f => Sys2Proof.Machine.execVnegFp f s
  | .vcmpFp f => Sys2Proof.Machine.execVcmpFp f s
  | .vrcp f => Sys2Proof.Machine.execVrcp f s
  | .vrsq f => Sys2Proof.Machine.execVrsq f s
  | .vexp2 f => Sys2Proof.Machine.execVexp2 f s
  | .vlog2 f => Sys2Proof.Machine.execVlog2 f s
  | .vcvt f => Sys2Proof.Machine.execVcvt f s
  | .vshuf f => Sys2Proof.Machine.execVshuf f s
  | .vbcast f => Sys2Proof.Machine.execVbcast f s
  | .vins f => Sys2Proof.Machine.execVins f s
  | .vext f => Sys2Proof.Machine.execVext f s
  | .vred f => Sys2Proof.Machine.execVred f s
  | .vscan f => Sys2Proof.Machine.execVscan f s
  | .vdot f => Sys2Proof.Machine.execVdot f s
  | .vmxq f => Sys2Proof.Machine.execVmxq f s
  | .vmxdq f => Sys2Proof.Machine.execVmxdq f s
  | .vnipack f => Sys2Proof.Machine.execVnipack f s
  | .vniunpack f => Sys2Proof.Machine.execVniunpack f s
  | .mclaim f => Sys2Proof.Machine.execMclaim f s
  | .mrel f => Sys2Proof.Machine.execMrel f s
  | .mshape f => Sys2Proof.Machine.execMshape f s
  | .mload f => Sys2Proof.Machine.execMload f s
  | .mstore f => Sys2Proof.Machine.execMstore f s
  | .mrow f => Sys2Proof.Machine.execMrow f s
  | .mrowr f => Sys2Proof.Machine.execMrowr f s
  | .mcol f => Sys2Proof.Machine.execMcol f s
  | .mcolw f => Sys2Proof.Machine.execMcolw f s
  | .mzero f => Sys2Proof.Machine.execMzero f s
  | .mma f => Sys2Proof.Machine.execMma f s
  | .mmas f => Sys2Proof.Machine.execMmas f s
  | .mscan f => Sys2Proof.Machine.execMscan f s
  | .maccr f => Sys2Proof.Machine.execMaccr f s
  | .mwait f => Sys2Proof.Machine.execMwait f s
  | .mpoll f => Sys2Proof.Machine.execMpoll f s
  | .lcload f => Sys2Proof.Machine.execLcload f s
  | .lcsel f => Sys2Proof.Machine.execLcsel f s
  | .lcin f => Sys2Proof.Machine.execLcin f s
  | .lcrun f => Sys2Proof.Machine.execLcrun f s
  | .lcout f => Sys2Proof.Machine.execLcout f s
  | .lcwait f => Sys2Proof.Machine.execLcwait f s
  | .lcstat f => Sys2Proof.Machine.execLcstat f s
  | .cpy f => Sys2Proof.Machine.execCpy f s
  | .cpys f => Sys2Proof.Machine.execCpys f s
  | .stfree f => Sys2Proof.Machine.execStfree f s
  | .stclose f => Sys2Proof.Machine.execStclose f s
  | .stq f => Sys2Proof.Machine.execStq f s
  | .cwait f => Sys2Proof.Machine.execCwait f s
  | .send f => Sys2Proof.Machine.execSend f s
  | .sendt f => Sys2Proof.Machine.execSendt f s
  | .portcfg f => Sys2Proof.Machine.execPortcfg f s
  | .patset f => Sys2Proof.Machine.execPatset f s
  | .patclr f => Sys2Proof.Machine.execPatclr f s
  | .portq f => Sys2Proof.Machine.execPortq f s
  | .hend f => Sys2Proof.Machine.execHend f s
  | .spawn f => Sys2Proof.Machine.execSpawn f s
  | .spawnp f => Sys2Proof.Machine.execSpawnp f s
  | .compose f => Sys2Proof.Machine.execCompose f s
  | .decomp f => Sys2Proof.Machine.execDecomp f s
  | .follow f => Sys2Proof.Machine.execFollow f s
  | .unfollow f => Sys2Proof.Machine.execUnfollow f s
  | .rejoin f => Sys2Proof.Machine.execRejoin f s
  | .tend f => Sys2Proof.Machine.execTend f s
  | .trap f => Sys2Proof.Machine.execTrap f s
  | .eret f => Sys2Proof.Machine.execEret f s
  | .srr f => Sys2Proof.Machine.execSrr f s
  | .srw f => Sys2Proof.Machine.execSrw f s
  | .tlbinv f => Sys2Proof.Machine.execTlbinv f s
  | .ctxkill f => Sys2Proof.Machine.execCtxkill f s
  | .perfr f => Sys2Proof.Machine.execPerfr f s
  | .blockFetch thr exitNum => Sys2Proof.Machine.execBlockFetch thr exitNum s
  | .blockChunkArrival thr seq chunk => Sys2Proof.Machine.execBlockChunkArrival thr seq chunk s
  | .blockMap thr seq => Sys2Proof.Machine.execBlockMap thr seq s
  | .refusedBlock thr => Sys2Proof.Machine.execRefusedBlock thr s
  | .tokenArrival thr seq idx => Sys2Proof.Machine.execTokenArrival thr seq idx s
  | .tokenCollision thr => Sys2Proof.Machine.execTokenCollision thr s
  | .commitRequest thr => Sys2Proof.Machine.execCommitRequest thr s
  | .releaseDrainEnd thr => Sys2Proof.Machine.execReleaseDrainEnd thr s
  | .missRegisterGrant thr seq slot => Sys2Proof.Machine.execMissRegisterGrant thr seq slot s
  | .walkStart clu idx => Sys2Proof.Machine.execWalkStart clu idx s
  | .walkSlotGrant clu => Sys2Proof.Machine.execWalkSlotGrant clu s
  | .walkCacheHit die idx => Sys2Proof.Machine.execWalkCacheHit die idx s
  | .walkEntryRead die idx => Sys2Proof.Machine.execWalkEntryRead die idx s
  | .accessedDirtyUpdate die idx => Sys2Proof.Machine.execAccessedDirtyUpdate die idx s
  | .translationFault thr => Sys2Proof.Machine.execTranslationFault thr s
  | .signatureFault thr => Sys2Proof.Machine.execSignatureFault thr s
  | .memoryOperandFault thr => Sys2Proof.Machine.execMemoryOperandFault thr s
  | .fullEmptyMisuse thr => Sys2Proof.Machine.execFullEmptyMisuse thr s
  | .dataError thr => Sys2Proof.Machine.execDataError thr s
  | .matrixFault thr => Sys2Proof.Machine.execMatrixFault thr s
  | .portFault thr => Sys2Proof.Machine.execPortFault thr s
  | .lookupFault thr => Sys2Proof.Machine.execLookupFault thr s
  | .streamFault thr => Sys2Proof.Machine.execStreamFault thr s
  | .threadStateFault thr => Sys2Proof.Machine.execThreadStateFault thr s
  | .clusterMapFault thr => Sys2Proof.Machine.execClusterMapFault thr s
  | .trapInstruction thr => Sys2Proof.Machine.execTrapInstruction thr s
  | .privilegedInstruction thr => Sys2Proof.Machine.execPrivilegedInstruction thr s
  | .leashTrap thr => Sys2Proof.Machine.execLeashTrap thr s
  | .ownLoadMiss n => Sys2Proof.Machine.execOwnLoadMiss n s
  | .ownershipRequest n => Sys2Proof.Machine.execOwnershipRequest n s
  | .wtSiLoadMiss n => Sys2Proof.Machine.execWtSiLoadMiss n s
  | .ucLoad n => Sys2Proof.Machine.execUcLoad n s
  | .wtUcStore n => Sys2Proof.Machine.execWtUcStore n s
  | .siWriteBack n => Sys2Proof.Machine.execSiWriteBack n s
  | .atomicIssue thr seq slot => Sys2Proof.Machine.execAtomicIssue thr seq slot s
  | .atomicAtHome n => Sys2Proof.Machine.execAtomicAtHome n s
  | .reservationBreak granule => Sys2Proof.Machine.execReservationBreak granule s
  | .recallReach n => Sys2Proof.Machine.execRecallReach n s
  | .recallAck n => Sys2Proof.Machine.execRecallAck n s
  | .memoryFill node line => Sys2Proof.Machine.execMemoryFill node line s
  | .loadReply n victim => Sys2Proof.Machine.execLoadReply n victim s
  | .storeAck n => Sys2Proof.Machine.execStoreAck n s
  | .signaturePurge unit => Sys2Proof.Machine.execSignaturePurge unit s
  | .purgeClear => Sys2Proof.Machine.execPurgeClear s
  | .deviceAccess thr seq slot => Sys2Proof.Machine.execDeviceAccess thr seq slot s
  | .vaultAccess n => Sys2Proof.Machine.execVaultAccess n s
  | .vaultRetry n => Sys2Proof.Machine.execVaultRetry n s
  | .engineOwnership n => Sys2Proof.Machine.execEngineOwnership n s
  | .engineWriteLands n => Sys2Proof.Machine.execEngineWriteLands n s
  | .copyStart clu => Sys2Proof.Machine.execCopyStart clu s
  | .cpyPortionToken clu cmd => Sys2Proof.Machine.execCpyPortionToken clu cmd s
  | .copySourceRead clu cmd => Sys2Proof.Machine.execCopySourceRead clu cmd s
  | .copyCompletion clu cmd => Sys2Proof.Machine.execCopyCompletion clu cmd s
  | .streamOpen clu => Sys2Proof.Machine.execStreamOpen clu s
  | .tileRead clu cmd => Sys2Proof.Machine.execTileRead clu cmd s
  | .tileStart clu cmd branch => Sys2Proof.Machine.execTileStart clu cmd branch s
  | .startNotice n => Sys2Proof.Machine.execStartNotice n s
  | .tileComplete clu cmd branch => Sys2Proof.Machine.execTileComplete clu cmd branch s
  | .freedSlotNotice n => Sys2Proof.Machine.execFreedSlotNotice n s
  | .closeNotice n => Sys2Proof.Machine.execCloseNotice n s
  | .matrixJobStart clu pipe => Sys2Proof.Machine.execMatrixJobStart clu pipe s
  | .matrixJobComplete clu pipe => Sys2Proof.Machine.execMatrixJobComplete clu pipe s
  | .movePerform clu => Sys2Proof.Machine.execMovePerform clu s
  | .slotImageRestore clu ctx name => Sys2Proof.Machine.execSlotImageRestore clu ctx name s
  | .fabricCommandStart clu unit => Sys2Proof.Machine.execFabricCommandStart clu unit s
  | .layer clu => Sys2Proof.Machine.execLayer clu s
  | .fabricCommandComplete clu unit => Sys2Proof.Machine.execFabricCommandComplete clu unit s
  | .bucketRefill island => Sys2Proof.Machine.execBucketRefill island s
  | .grantRequest n => Sys2Proof.Machine.execGrantRequest n s
  | .grantStatus n => Sys2Proof.Machine.execGrantStatus n s
  | .messageDelivery n => Sys2Proof.Machine.execMessageDelivery n s
  | .firing clu => Sys2Proof.Machine.execFiring clu s
  | .handlerFetchStart thr => Sys2Proof.Machine.execHandlerFetchStart thr s
  | .spawnRequest n => Sys2Proof.Machine.execSpawnRequest n s
  | .spawnQueueGrant clu => Sys2Proof.Machine.execSpawnQueueGrant clu s
  | .threadCreation clu idx => Sys2Proof.Machine.execThreadCreation clu idx s
  | .gridReturn thr => Sys2Proof.Machine.execGridReturn thr s
  | .rejoinResolve thr => Sys2Proof.Machine.execRejoinResolve thr s
  | .hostHdmRead agent pa len => Sys2Proof.Machine.execHostHdmRead agent pa len s
  | .hostWrite agent pa x => Sys2Proof.Machine.execHostWrite agent pa x s
  | .portWindowPost agent addr bytes => Sys2Proof.Machine.execPortWindowPost agent addr bytes s
  | .peerAccess pkg kind pa cls scope len x sig => Sys2Proof.Machine.execPeerAccess pkg kind pa cls scope len x sig s
  | .birsp n x => Sys2Proof.Machine.execBirsp n x s
  | .biconflict n x => Sys2Proof.Machine.execBiconflict n x s
  | .peerLinkDown lost => Sys2Proof.Machine.execPeerLinkDown lost s
  | .hostLinkDown port => Sys2Proof.Machine.execHostLinkDown port s
  | .powerUp => Sys2Proof.Machine.execPowerUp s
  | .fundamentalReset => Sys2Proof.Machine.execFundamentalReset s
  | .acq port => Sys2Proof.Machine.execAcq port s
  | .rel port => Sys2Proof.Machine.execRel port s
  | .start port len => Sys2Proof.Machine.execStart port len s
  | .go port => Sys2Proof.Machine.execGo port s
  | .reset port => Sys2Proof.Machine.execReset port s
  | .loadWindowWrite port off bytes => Sys2Proof.Machine.execLoadWindowWrite port off bytes s
  | .verificationComplete => Sys2Proof.Machine.execVerificationComplete s
  | .firmwareInitialisation ok kennel => Sys2Proof.Machine.execFirmwareInitialisation ok kennel s
  | .spdmRequest port request => Sys2Proof.Machine.execSpdmRequest port request s
  | .ctxCreate port allot => Sys2Proof.Machine.execCtxCreate port allot s
  | .ctxKill port => Sys2Proof.Machine.execCtxKill port s
  | .ctxPreempt port => Sys2Proof.Machine.execCtxPreempt port s
  | .ctxResume port => Sys2Proof.Machine.execCtxResume port s
  | .ctxMap port => Sys2Proof.Machine.execCtxMap port s
  | .killQuery port => Sys2Proof.Machine.execKillQuery port s
  | .podSet port => Sys2Proof.Machine.execPodSet port s
  | .powerSet port => Sys2Proof.Machine.execPowerSet port s
  | .errClear port => Sys2Proof.Machine.execErrClear port s
  | .thermalReduction island => Sys2Proof.Machine.execThermalReduction island s
  | .registerWrite port off value => Sys2Proof.Machine.execRegisterWrite port off value s
  | .spawnAnswer n => Sys2Proof.Machine.execSpawnAnswer n s
  | .slotSaveComplete clu => Sys2Proof.Machine.execSlotSaveComplete clu s

end Sys2Proof.Machine
end

