-- ==== Sys2Proof/Machine/Sched.lean ====
section
/-! DEFINITION. What moves next. The manual promises no order beyond its rules (R147) and no time (R182), so a step takes the
move that the agenda names, or a free choice among the moves of the hardware (logs 3 and 4). Inputs from outside (hosts, other
modules, power, links, temperature) come in the agenda. A move whose conditions do not hold leaves the machine as it is. -/

namespace Sys2Proof.Machine

/-! ### Issue (R162, R180) -/

/-- What `exec` answers when an instruction of a block fires. -/
noncomputable def fireAt (s : State) (k q i : Nat) : Host.Outcome State Fault Refusal :=
  match s.frame k q with
  | none => .fault .noSuchBlock
  | some f =>
    match decode (wordAt f.words i) (wordAt f.words (i + 1)) with
    | .ok ins => exec ins { s with cur := (k, q, i) }
    | .error _ => .next s

/-- Whether a slot's instruction is ready at its node (R180): its tokens have arrived, its block is mapped, and it does something
as it fires. One whose predicate does not match does not fire (R195). -/
noncomputable def issuable (s : State) (k : Nat) (f : Frame) (i : Nat) : Bool :=
  f.canFire i && f.slotReady i && !f.skips i && match fireAt s k f.seq i with
    | .next s' => s' != { s with cur := (k, f.seq, i) }
    | _ => true

/-- What a node of a grid issues from a thread: of its oldest block with an instruction ready there, the lowest slot (R162, R180). -/
noncomputable def nodeSlot (s : State) (g n k : Nat) (t : Thread) : Option (Nat × Nat × Nat) :=
  t.frames.findSome? fun f => ((slotStarts f.words 128 0).find? fun i =>
    i % 16 == n && slotGrid (gridOfThr k) f.width i == g && issuable s k f i).map fun i => (k, f.seq, i)

/-- What a node of a grid issues next (R180): from the first context, in order after the one it served last, that has an
instruction ready there. -/
noncomputable def nodeIssue (s : State) (g n : Nat) : Option (Nat × Nat × Nat) :=
  let last := (tget (s.grid g).served n).getD 3
  (List.range 4).findSome? fun j => s.thrs.findSome? fun e =>
    if e.1 % 4 = (last + 1 + j) % 4 then nodeSlot s g n e.1 e.2 else none

/-- The instructions that the nodes of the grids issue next. -/
noncomputable def issueMoves (s : State) : List Move :=
  let gs := (s.thrs.flatMap fun e => e.2.frames.flatMap fun f => coreGrids (gridOfThr e.1) f.width).eraseDups
  gs.flatMap fun g => (List.range 16).filterMap fun n => (nodeIssue s g n).map fun x => .fire x.1 x.2.1 x.2.2

/-- A node has served a context: a slot that had not fired before, and fires (R180). -/
def serve (s : State) (k q i : Nat) : State :=
  match s.frame k q with
  | none => s
  | some f =>
    if !f.pending i || f.skips i then s
    else s.modGrid (slotGrid (gridOfThr k) f.width i) fun g => { g with served := tset g.served (i % 16) (k % 4) }

/-! ### The moves -/

/-- The moves of one block: slots to resolve whose predicate does not match, instructions that have fired and go on, chunks and tokens on
their way, accesses that wait. -/
noncomputable def frameMoves (k : Nat) (f : Frame) : List Move :=
  let q := f.seq
  let slots := f.ops.map (·.slot)
  (((slotStarts f.words 128 0).filter f.skips).map fun i => .fire k q i) ++
  ((f.ops.filter (·.ans.isNone)).map fun o => .fire k q o.slot) ++
  f.missing.map (fun e => .event (.blockChunkArrival k q e.1)) ++
  [.event (.blockMap k q)] ++
  (List.range (f.transit.length + f.unread.length)).map (fun j => .event (.tokenArrival k q j)) ++
  slots.map (fun i => .event (.missRegisterGrant k q i)) ++
  slots.map (fun i => .event (.atomicIssue k q i)) ++
  slots.map fun i => .event (.deviceAccess k q i)

/-- The moves of one thread: its blocks', its fetch, its commit, and everything it may take as a trap. -/
noncomputable def threadMoves (v k : Nat) (t : Thread) : List Move :=
  t.frames.flatMap (frameMoves k) ++
  ([.blockFetch k v, .commitRequest k, .releaseDrainEnd k, .missRegisterGrant k t.nextSeq 0, .refusedBlock k,
    .tokenCollision k, .translationFault k, .signatureFault k, .memoryOperandFault k, .fullEmptyMisuse k, .dataError k,
    .matrixFault k, .portFault k, .lookupFault k, .streamFault k, .threadStateFault k, .clusterMapFault k,
    .trapInstruction k, .privilegedInstruction k, .leashTrap k, .handlerFetchStart k,
    .rejoinResolve k] : List Instr).map .event

/-- The moves of one message. -/
noncomputable def msgMoves (v n : Nat) (m : Msg) : List Move :=
  ((match m.kind with
    | .ownLoad => [.ownLoadMiss n]
    | .ownership => [.ownershipRequest n]
    | .wtSiLoad => [.wtSiLoadMiss n]
    | .ucLoad => [.ucLoad n]
    | .wtUcStore => [.wtUcStore n, .vaultAccess n, .vaultRetry n]
    | .siWb => [.siWriteBack n]
    | .ownWb => [.siWriteBack n]
    | .atomic => [.atomicAtHome n, .vaultRetry n]
    | .vault => [.vaultAccess n, .vaultRetry n]
    | .engOwn => [.engineOwnership n, .vaultAccess n, .vaultRetry n]
    | .engWrite => [.engineWriteLands n]
    | .engRead => [.ucLoad n, .vaultAccess n, .vaultRetry n]
    | .recall => [.recallReach n]
    | .recallAck => [.recallAck n]
    | .reply => [.loadReply n v]
    | .ack => [.storeAck n]
    | .grantReq => [.grantRequest n]
    | .grantStatus => [.grantStatus n]
    | .deliver => [.messageDelivery n]
    | .spawnReq => [.spawnRequest n]
    | .spawnAns => [.spawnAnswer n]
    | .startNotice => [.startNotice n]
    | .freedNotice => [.freedSlotNotice n]
    | .closeNotice => [.closeNotice n]
    | .waiter => [.wtUcStore n, .vaultAccess n, .vaultRetry n]
    | .evict => []
    | .dogUpdate => []
    | .bisnp => []) : List Instr).map .event

/-- The moves of one cluster: its walks' misses, engines, join unit and allocator. -/
noncomputable def cluMoves (c : Nat) (u : Clu) : List Move :=
  (((List.range u.misses.length).map fun i => .walkStart c i) ++
   [.walkSlotGrant c, .copyStart c, .streamOpen c, .movePerform c, .layer c, .firing c, .spawnQueueGrant c, .slotSaveComplete c,
    .matrixJobStart c 0, .matrixJobStart c 1, .matrixJobComplete c 0, .matrixJobComplete c 1, .fabricCommandStart c 2,
    .fabricCommandStart c 3, .fabricCommandStart c 4, .fabricCommandComplete c 2, .fabricCommandComplete c 3,
    .fabricCommandComplete c 4] ++
   (u.copyQ.flatMap fun j => [.cpyPortionToken c j.place, .copySourceRead c j.place, .copyCompletion c j.place]) ++
   (u.streams.flatMap fun x => [.tileRead c x.cmd.place, .copyCompletion c x.cmd.place] ++
     (List.range x.branches.length).flatMap fun b => [.tileStart c x.cmd.place b, .tileComplete c x.cmd.place b]) ++
   (u.spawns.map fun e => .threadCreation c e.1) ++
   ((u.jobs ++ u.moves).flatMap fun j => j.shapes.map fun x =>
      .slotImageRestore c j.cap.ctx (64 * j.cap.lclu + x.1)) : List Instr).map .event

/-- The moves of the dies, the homes and the islands. -/
noncomputable def sharedMoves (s : State) : List Move :=
  ((s.dies.flatMap fun d => d.2.walks.flatMap fun w =>
      [.walkCacheHit d.1 w.1, .walkEntryRead d.1 w.1, .accessedDirtyUpdate d.1 w.1]) ++
   (s.resvs.flatMap fun r => (gransOf r.pa r.data.length).map fun g => .reservationBreak g) ++
   ((s.queues.filter (·.1 < 9 * 2 ^ 50)).map fun e => .memoryFill (e.1 / 2 ^ 50) (e.1 % 2 ^ 50)) ++
   (s.grids.filterMap fun e => e.2.leaving.map fun x => .gridReturn x.1) ++
   (s.sigbufs.map fun e => .signaturePurge e.1) ++ [.purgeClear] ++
   ((List.range 18).map fun i => .bucketRefill i) : List Instr).map .event

/-- What the Sheepdog allots beside the launch port: a free choice (R329, log 3). -/
noncomputable def freeAllot (v : Nat) : List (Nat × Nat × Nat) :=
  (List.range (v % 128)).map fun i =>
    (Config.freeBits v (3 * i) % 640, Config.freeBits v (3 * i + 1) % 3, Config.freeBits v (3 * i + 2) % 64)

/-- The moves of the management controller and the Sheepdog: bring-up, and the command that is next. -/
noncomputable def dogMoves (v : Nat) (s : State) : List Move :=
  let m := s.mod
  let cmd := match m.queue with
    | [] => []
    | p :: _ =>
      match (m.mbox p).cmd with
      | 0x01 => [Instr.ctxCreate p (freeAllot v)]
      | 0x02 => [.ctxKill p]
      | 0x03 => [.ctxPreempt p]
      | 0x04 => [.ctxResume p]
      | 0x05 => [.ctxMap p]
      | 0x06 => [.killQuery p]
      | 0x10 => [.podSet p]
      | 0x11 => [.powerSet p]
      | 0x12 => [.errClear p]
      | _ => []
  let up := if m.vbusy then [Instr.verificationComplete]
    else if m.st = .verified then [.firmwareInitialisation (v % 2 == 0) (v / 2 % 4)] else []
  (cmd ++ up).map .event

/-- Every move the hardware could take: those whose conditions do not hold do nothing. -/
noncomputable def moves (s : State) : List Move :=
  let v := Config.freeChoice (s.fresh + 1)
  (s.thrs.flatMap fun e => threadMoves v e.1 e.2) ++ (s.net.flatMap fun e => msgMoves v e.1 e.2) ++
  (s.clus.flatMap fun e => cluMoves e.1 e.2) ++ sharedMoves s ++ dogMoves v s ++ issueMoves s

/-- Time passes on every island, and in every grid's own counter (R1, R182, R402). -/
def tick (s : State) : State :=
  { s with
    cyc := (List.range 18).foldl (fun t i => tset t i ((tget t i).getD 0 + BitVec.ofNat 64 (Config.freeCycles i s.fresh))) s.cyc
    gcyc := ((List.range 5120).map fun g =>
      (g, s.gridCyc g + BitVec.ofNat 64 (Config.freeCycles (32 + g) s.fresh))).filter (·.2 != 0#64)
    fresh := s.fresh + 2 }

/-- Take a move: a slot of a block fires its instruction, an event happens, storage has an error, or another input comes. -/
noncomputable def take (s : State) (m : Move) : Host.Outcome State Fault Refusal :=
  match m with
  | .fire k q i => fireAt (serve s k q i) k q i
  | .event e => if encode e = [] then exec e s else .next s
  | .upset e => .next (storageError s e)
  | .input e => .next (takeInput s e)
  | .free => .next s

/-- A free choice among the moves (log 3), as time passes. -/
noncomputable def choose (s : State) : Host.Outcome State Fault Refusal :=
  let ms := moves s
  match ms[Config.freeChoice s.fresh % ms.length]? with
  | none => .next (tick s)
  | some m => take (tick s) m

/-- One move: the first of the agenda, else a free choice. -/
noncomputable def advanceOne (s : State) : Host.Outcome State Fault Refusal :=
  match s.agenda with
  | [] => choose s
  | .free :: r => choose { s with agenda := r }
  | m :: r => take { s with agenda := r } m

/-! ### Placing one instruction -/

/-- The token that an operand port of a width waits for. -/
def portTok (w : Wid) : Tok := if w = 2 then .v 0 else .s 0

/-- The tokens that let an instruction at slot 5 fire: one for each port it has, and a predicate that matches. -/
def placedToks (w0 w1 : Slot32) : Tab Tok :=
  let p := (portsOf w0 w1).getD ⟨0, 0, 0, 0⟩
  let pr := predOf w0
  (if p.a = 0 then [] else [(5, portTok p.a)]) ++ (if p.b = 0 then [] else [(133, portTok p.b)]) ++
  (if pr = 2 then [(261, .s 1)] else if pr = 3 then [(261, .s 0)] else if p.c = 0 then [] else [(261, portTok p.c)])

/-- A mapped block of one chunk that holds one instruction at slot 5, its operands arrived. -/
def placedFrame (w0 w1 : Slot32) : Frame :=
  { Frame.mk0 0 0 true 1 none with
    stage := 1
    chunks := [(0, List.replicate 32 0), (1, List.replicate 5 0 ++ [w0, w1] ++ List.replicate 25 0)]
    toks := placedToks w0 w1 }

/-- A thread on context 0 of grid 0 of cluster 0 runs that block next. -/
def place1 (s : State) (w0 w1 : Slot32) : State :=
  { s with
    agenda := [.fire 0 0 5]
    thrs := tset s.thrs 0 { Thread.reset with run := true, frames := [placedFrame w0 w1], nextSeq := 1 } }

end Sys2Proof.Machine
end

