-- ==== Sys2Proof/Machine/Step.lean ====
section
/-! DEFINITION. One step of the machine, and the placing of an instruction where it fires next (log 2). -/

namespace Sys2Proof.Machine

/-- One step. -/
noncomputable def step (s : State) : Host.Outcome State Fault Refusal := advanceOne s

/-- The instruction whose bits are `w` stands at slot 5 of the oldest block of a thread, with its operands arrived, and is the
next to fire. -/
def State.withFetchWord (s : State) (_nbits w : Nat) : State :=
  place1 s (BitVec.ofNat 32 w) (BitVec.ofNat 32 (w >>> 32))

end Sys2Proof.Machine
end

