-- ==== Sys2Proof/Safety.lean ====
section
/-! DEFINITION. The vocabulary of the statements: when the current slot may fire, what firing leaves, and the manual's
tables as relations between operands and results, written apart from the meanings they are compared with. -/

namespace Sys2Proof.Machine

/-! ### A slot that fires -/

/-- The predicate of slot `i` matches PRED `p`: none is taken, or one has arrived that is not null and agrees (R190,
R195). -/
def predOk (f : Frame) (i : Nat) (p : BitVec 2) : Bool :=
  p.toNat < 2 || (tget f.toks (256 + i)).any fun x => !x.isNull && ((p == 2#2) == (x.word != 0#64))

/-- The current slot belongs to the mapped block `f` of thread `t`, has not fired, may fire, and its predicate matches
(R163, R194, R195). -/
def Fires (s : State) (p : BitVec 2) (t : Thread) (f : Frame) : Prop :=
  s.current = some (t, f) ∧ f.canFire s.cur.2.2 = true ∧ predOk f s.cur.2.2 p = true

/-- Token `x` has arrived at operand `j` (0 a, 1 b, 2 c) of slot `i` (R193). -/
def HasTok (f : Frame) (j i : Nat) (x : Tok) : Prop := tget f.toks (128 * j + i) = some x

/-- The current slot has fired and sent `x` to its targets; nothing else has changed. -/
def sent (s : State) (f : Frame) (ts : List (BitVec 9)) (x : Tok) : State :=
  s.putFrame ((f.fireAt s.cur.2.2).send ts x)

/-- Nothing but the blocks in flight of thread `k` differs. -/
def SameButBlocks (s s' : State) (k : Nat) : Prop :=
  { s' with thrs := s.thrs } = s ∧ (∀ j, j ≠ k → s'.thr j = s.thr j) ∧
    ∀ t, s.thr k = some t → ∃ fs, s'.thr k = some { t with frames := fs }

/-! ### Scalar results (R237 to R241) -/

namespace Rel

/-- (a + b) mod 2^w. -/
def add {w : Nat} (a b r : BitVec w) : Prop := r.toNat = (a.toNat + b.toNat) % 2 ^ w
/-- (a - b) mod 2^w. -/
def sub {w : Nat} (a b r : BitVec w) : Prop := r.toInt = (a.toInt - b.toInt).bmod (2 ^ w)
/-- (a × b) mod 2^w. -/
def mul {w : Nat} (a b r : BitVec w) : Prop := r.toNat = a.toNat * b.toNat % 2 ^ w
/-- The high half of the signed product. -/
def mulh {w : Nat} (a b r : BitVec w) : Prop := r.toInt = a.toInt * b.toInt / 2 ^ w
/-- The high half of the unsigned product. -/
def mulhz {w : Nat} (a b r : BitVec w) : Prop := r.toNat = a.toNat * b.toNat / 2 ^ w
/-- The signed quotient, truncated; -1 when b is 0; the least value when it is divided by -1 (R238). -/
def div {w : Nat} (a b r : BitVec w) : Prop :=
  if b.toNat = 0 then r.toInt = -1 else r.toInt = (a.toInt.tdiv b.toInt).bmod (2 ^ w)
/-- The unsigned quotient; all ones when b is 0 (R238). -/
def divz {w : Nat} (a b r : BitVec w) : Prop :=
  if b.toNat = 0 then r.toInt = -1 else r.toNat = a.toNat / b.toNat
/-- The signed remainder, with the sign of the dividend; a when b is 0 (R238). -/
def rem {w : Nat} (a b r : BitVec w) : Prop :=
  if b.toNat = 0 then r = a else r.toInt = a.toInt.tmod b.toInt
/-- The unsigned remainder; a when b is 0 (R238). -/
def remz {w : Nat} (a b r : BitVec w) : Prop :=
  if b.toNat = 0 then r = a else r.toNat = a.toNat % b.toNat
/-- The signed minimum. -/
def min {w : Nat} (a b r : BitVec w) : Prop := r.toInt = Min.min a.toInt b.toInt
/-- The signed maximum. -/
def max {w : Nat} (a b r : BitVec w) : Prop := r.toInt = Max.max a.toInt b.toInt
/-- The unsigned minimum. -/
def minz {w : Nat} (a b r : BitVec w) : Prop := r.toNat = Min.min a.toNat b.toNat
/-- The unsigned maximum. -/
def maxz {w : Nat} (a b r : BitVec w) : Prop := r.toNat = Max.max a.toNat b.toNat
/-- |a| mod 2^w. -/
def abs {w : Nat} (a _b r : BitVec w) : Prop := r.toNat = a.toInt.natAbs % 2 ^ w
/-- -a mod 2^w. -/
def neg {w : Nat} (a _b r : BitVec w) : Prop := r.toInt = (-a.toInt).bmod (2 ^ w)

/-- An IARITHW form: the relation at 32 bits, and its result sign-extended (R237). -/
def low (rel : BitVec 32 → BitVec 32 → BitVec 32 → Prop) (a b r : Word) : Prop :=
  ∃ z, rel (bits a 0 32) (bits b 0 32) z ∧ r.toInt = z.toInt

/-- The shift count b[5:0] (R239). -/
def cnt (b : Word) : Nat := b.toNat % 64
/-- Each bit of the result is `g` of the operands' bits. -/
def bitwise (g : Bool → Bool → Bool) (a b r : Word) : Prop := ∀ j, j < 64 → r.getLsbD j = g (a.getLsbD j) (b.getLsbD j)
/-- Shift left. -/
def shl (a b r : Word) : Prop := r.toNat = a.toNat * 2 ^ cnt b % 2 ^ 64
/-- Shift right, zero fill. -/
def shr (a b r : Word) : Prop := r.toNat = a.toNat / 2 ^ cnt b
/-- Shift right, sign fill. -/
def sar (a b r : Word) : Prop := r.toInt = a.toInt / 2 ^ cnt b
/-- Rotate left: bit j goes to bit j + count. -/
def rol (a b r : Word) : Prop := ∀ j, j < 64 → r.getLsbD ((j + cnt b) % 64) = a.getLsbD j
/-- Rotate right: bit j + count goes to bit j. -/
def ror (a b r : Word) : Prop := ∀ j, j < 64 → r.getLsbD j = a.getLsbD ((j + cnt b) % 64)
/-- The number of leading zero bits. -/
def clz (a _b r : Word) : Prop :=
  r.toNat ≤ 64 ∧ (∀ j, j < r.toNat → a.getLsbD (63 - j) = false) ∧ (r.toNat < 64 → a.getLsbD (63 - r.toNat) = true)
/-- The number of trailing zero bits. -/
def ctz (a _b r : Word) : Prop :=
  r.toNat ≤ 64 ∧ (∀ j, j < r.toNat → a.getLsbD j = false) ∧ (r.toNat < 64 → a.getLsbD r.toNat = true)
/-- The number of one bits. -/
def popc (a _b r : Word) : Prop := r.toNat = ((List.range 64).filter fun j => a.getLsbD j).length
/-- Bit i moves to bit 63 - i. -/
def brev (a _b r : Word) : Prop := ∀ j, j < 64 → r.getLsbD (63 - j) = a.getLsbD j
/-- Byte i moves to byte 7 - i. -/
def bswap (a _b r : Word) : Prop := ∀ i, i < 8 → bits r (8 * (7 - i)) 8 = bits a (8 * i) 8
/-- The position b[5:0] and the width b[13:8] + 1 of a field (R240). -/
def pos (b : Word) : Nat := b.toNat % 64
/-- See `pos`. -/
def wid (b : Word) : Nat := b.toNat / 256 % 64 + 1
/-- The field, zero-extended; bits above 63 read as zero. -/
def extz (a b r : Word) : Prop :=
  ∀ j, j < 64 → r.getLsbD j = (decide (j < wid b) && a.getLsbD (pos b + j))
/-- The field, sign-extended from its bit w - 1. -/
def exts (a b r : Word) : Prop :=
  ∀ j, j < 64 → r.getLsbD j = a.getLsbD (pos b + if j < wid b then j else wid b - 1)
/-- Bits [p + w - 1 : p] replaced by bits [w - 1 : 0] of b[63:14]; those above 63 are not written. -/
def ins (a b r : Word) : Prop :=
  ∀ j, j < 64 → r.getLsbD j = if pos b ≤ j ∧ j < pos b + wid b then b.getLsbD (14 + (j - pos b)) else a.getLsbD j

/-- A test token: 1 when the relation holds and 0 otherwise (R241). -/
def test (c : Prop) (r : Word) : Prop := (c → r = 1#64) ∧ (¬c → r = 0#64)

end Rel

/-- The operand forms of the scalar instructions: PRED, the value that stands for operand b where none arrives (0 for a
form on a alone), and the targets. -/
abbrev ScalarForm := BitVec 2 × Option Word × List (BitVec 9)

/-- Operands a and b. -/
def form2 (f : GF) : ScalarForm := (f.p, none, [f.t0, f.t1])
/-- Operand a alone. -/
def form1 (f : GF) : ScalarForm := (f.p, some 0, [f.t0, f.t1])
/-- Operand a and IMM14 sign-extended (R191). -/
def formSx (f : IF) : ScalarForm := (f.p, some (f.imm.signExtend 64), [f.t0])
/-- Operand a and IMM14 zero-extended (R191). -/
def formZx (f : IF) : ScalarForm := (f.p, some (f.imm.zeroExtend 64), [f.t0])
/-- Operand a and a count (R191). -/
def formCnt (f : ShF) : ScalarForm := (f.p, some (f.cnt.zeroExtend 64), [f.t0])

/-- IARITH and IARITHW (R237, R238): the form of each instruction and its result. -/
def arithSpec : Instr → Option (ScalarForm × (Word → Word → Word → Prop))
  | .add f => some (form2 f, Rel.add)
  | .sub f => some (form2 f, Rel.sub)
  | .mul f => some (form2 f, Rel.mul)
  | .mulh f => some (form2 f, Rel.mulh)
  | .mulhz f => some (form2 f, Rel.mulhz)
  | .div f => some (form2 f, Rel.div)
  | .divz f => some (form2 f, Rel.divz)
  | .rem f => some (form2 f, Rel.rem)
  | .remz f => some (form2 f, Rel.remz)
  | .min f => some (form2 f, Rel.min)
  | .max f => some (form2 f, Rel.max)
  | .minz f => some (form2 f, Rel.minz)
  | .maxz f => some (form2 f, Rel.maxz)
  | .abs f => some (form1 f, Rel.abs)
  | .neg f => some (form1 f, Rel.neg)
  | .addW f => some (form2 f, Rel.low Rel.add)
  | .subW f => some (form2 f, Rel.low Rel.sub)
  | .mulW f => some (form2 f, Rel.low Rel.mul)
  | .mulhW f => some (form2 f, Rel.low Rel.mulh)
  | .mulhzW f => some (form2 f, Rel.low Rel.mulhz)
  | .divW f => some (form2 f, Rel.low Rel.div)
  | .divzW f => some (form2 f, Rel.low Rel.divz)
  | .remW f => some (form2 f, Rel.low Rel.rem)
  | .remzW f => some (form2 f, Rel.low Rel.remz)
  | .minW f => some (form2 f, Rel.low Rel.min)
  | .maxW f => some (form2 f, Rel.low Rel.max)
  | .minzW f => some (form2 f, Rel.low Rel.minz)
  | .maxzW f => some (form2 f, Rel.low Rel.maxz)
  | .absW f => some (form1 f, Rel.low Rel.abs)
  | .negW f => some (form1 f, Rel.low Rel.neg)
  | _ => none

/-- ILOGIC and IBIT (R239, R240). -/
def bitSpec : Instr → Option (ScalarForm × (Word → Word → Word → Prop))
  | .and f => some (form2 f, Rel.bitwise fun x y => x && y)
  | .or f => some (form2 f, Rel.bitwise fun x y => x || y)
  | .xor f => some (form2 f, Rel.bitwise fun x y => x != y)
  | .andn f => some (form2 f, Rel.bitwise fun x y => x && !y)
  | .orn f => some (form2 f, Rel.bitwise fun x y => x || !y)
  | .shl f => some (form2 f, Rel.shl)
  | .shr f => some (form2 f, Rel.shr)
  | .sar f => some (form2 f, Rel.sar)
  | .rol f => some (form2 f, Rel.rol)
  | .ror f => some (form2 f, Rel.ror)
  | .clz f => some (form1 f, Rel.clz)
  | .ctz f => some (form1 f, Rel.ctz)
  | .popc f => some (form1 f, Rel.popc)
  | .brev f => some (form1 f, Rel.brev)
  | .bswap f => some (form1 f, Rel.bswap)
  | .exts f => some (form2 f, Rel.exts)
  | .extz f => some (form2 f, Rel.extz)
  | .ins f => some (form2 f, Rel.ins)
  | _ => none

/-- ITEST (R241). -/
def testSpec : Instr → Option (ScalarForm × (Word → Word → Word → Prop))
  | .teq f => some (form2 f, fun a b r => Rel.test (a = b) r)
  | .tne f => some (form2 f, fun a b r => Rel.test (a ≠ b) r)
  | .tlt f => some (form2 f, fun a b r => Rel.test (a.toInt < b.toInt) r)
  | .tle f => some (form2 f, fun a b r => Rel.test (a.toInt ≤ b.toInt) r)
  | .tltz f => some (form2 f, fun a b r => Rel.test (a.toNat < b.toNat) r)
  | .tlez f => some (form2 f, fun a b r => Rel.test (a.toNat ≤ b.toNat) r)
  | .teqW f => some (form2 f, fun a b r => Rel.test (bits a 0 32 = bits b 0 32) r)
  | .tneW f => some (form2 f, fun a b r => Rel.test (bits a 0 32 ≠ bits b 0 32) r)
  | .tltW f => some (form2 f, fun a b r => Rel.test ((bits a 0 32).toInt < (bits b 0 32).toInt) r)
  | .tleW f => some (form2 f, fun a b r => Rel.test ((bits a 0 32).toInt ≤ (bits b 0 32).toInt) r)
  | .tltzW f => some (form2 f, fun a b r => Rel.test ((bits a 0 32).toNat < (bits b 0 32).toNat) r)
  | .tlezW f => some (form2 f, fun a b r => Rel.test ((bits a 0 32).toNat ≤ (bits b 0 32).toNat) r)
  | _ => none

/-- The I-format instructions (R242, R191): each is the form named in R242 with the immediate for operand b. -/
def immSpec : Instr → Option (ScalarForm × (Word → Word → Word → Prop))
  | .addi f => some (formSx f, Rel.add)
  | .muli f => some (formSx f, Rel.mul)
  | .andi f => some (formZx f, Rel.bitwise fun x y => x && y)
  | .ori f => some (formZx f, Rel.bitwise fun x y => x || y)
  | .xori f => some (formZx f, Rel.bitwise fun x y => x != y)
  | .shli f => some (formCnt f, Rel.shl)
  | .shri f => some (formCnt f, Rel.shr)
  | .sari f => some (formCnt f, Rel.sar)
  | .teqi f => some (formSx f, fun a b r => Rel.test (a = b) r)
  | .tnei f => some (formSx f, fun a b r => Rel.test (a ≠ b) r)
  | .tlti f => some (formSx f, fun a b r => Rel.test (a.toInt < b.toInt) r)
  | .tlei f => some (formSx f, fun a b r => Rel.test (a.toInt ≤ b.toInt) r)
  | .tltzi f => some (formZx f, fun a b r => Rel.test (a.toNat < b.toNat) r)
  | .tlezi f => some (formZx f, fun a b r => Rel.test (a.toNat ≤ b.toNat) r)
  | .addiw f => some (formSx f, Rel.low Rel.add)
  | _ => none

/-- A scalar instruction of a table completes: with its operands arrived it sends a result of the table's relation to its
targets, fires, and changes nothing else. -/
def Completes (spec : Instr → Option (ScalarForm × (Word → Word → Word → Prop))) : Prop :=
  ∀ (i : Instr) (p : BitVec 2) (m : Option Word) (ts : List (BitVec 9)) (rel : Word → Word → Word → Prop)
    (s : State) (t : Thread) (f : Frame) (a b : Word),
    spec i = some ((p, m, ts), rel) → Fires s p t f → HasTok f 0 s.cur.2.2 (.s a) →
    (match m with | none => HasTok f 1 s.cur.2.2 (.s b) | some x => b = x) →
    ∃ r, exec i s = .next (sent s f ts (.s r)) ∧ rel a b r

/-! ### Floating-point and vector results -/

/-- The current slot has fired, sent `x` to its targets and raised `fl` in its block (R222); nothing else has changed. -/
def sentFl (s : State) (f : Frame) (ts : List (BitVec 9)) (x : Tok) (fl : Flags) : State :=
  s.putFrame { (f.fireAt s.cur.2.2).send ts x with flags := f.flags ||| fl }

/-- Which operands an instruction takes: PRED, whether b and c arrive, and the targets. -/
structure Takes where
  p : BitVec 2
  b : Bool
  c : Bool
  ts : List (BitVec 9)

/-- The tokens an instruction takes have arrived, none of them null. -/
def Arrived (f : Frame) (i : Nat) (o : Takes) (a b c : Tok) : Prop :=
  HasTok f 0 i a ∧ a ≠ .null ∧ (o.b = true → HasTok f 1 i b ∧ b ≠ .null) ∧ (o.c = true → HasTok f 2 i c ∧ c ≠ .null)

/-- The code of an operand in a format: bits [31:0] for FP32, the whole for FP64 (R246). -/
def fpCode (F : Fmt) (x : Word) : Nat := x.toNat % 2 ^ fmtWidth F

/-- FSCALAR (R246 to R248): the operands of each instruction, and its result and flags as the exact operation of R216 to
R220 on the formats named, rounded once under `fcr`.RM at element 0, or toward zero. -/
def fpSpec : Instr → Option (Takes × (FEnv → Word → Word → Word → Nat × Flags))
  | .faddF64 f => two f fmtF64 .add
  | .fsubF64 f => two f fmtF64 .sub
  | .fmulF64 f => two f fmtF64 .mul
  | .fdivF64 f => two f fmtF64 .div
  | .fminF64 f => two f fmtF64 .min
  | .fmaxF64 f => two f fmtF64 .max
  | .fsqrtF64 f => one f fmtF64 .sqrt
  | .ffmaF64 f => fma f fmtF64
  | .faddF32 f => two f fmtF32 .add
  | .fsubF32 f => two f fmtF32 .sub
  | .fmulF32 f => two f fmtF32 .mul
  | .fdivF32 f => two f fmtF32 .div
  | .fminF32 f => two f fmtF32 .min
  | .fmaxF32 f => two f fmtF32 .max
  | .fsqrtF32 f => one f fmtF32 .sqrt
  | .ffmaF32 f => fma f fmtF32
  | .fcmpEqF64 f => cmp f fmtF64 .eq
  | .fcmpLtF64 f => cmp f fmtF64 .lt
  | .fcmpLeF64 f => cmp f fmtF64 .le
  | .fcmpUnF64 f => cmp f fmtF64 .un
  | .fcmpEqF32 f => cmp f fmtF32 .eq
  | .fcmpLtF32 f => cmp f fmtF32 .lt
  | .fcmpLeF32 f => cmp f fmtF32 .le
  | .fcmpUnF32 f => cmp f fmtF32 .un
  | .fcvtF64F32 f => conv f 9 8 none
  | .fcvtF32F64 f => conv f 8 9 none
  | .fcvtI64F64 f => conv f 8 3 none
  | .fcvtF64I64 f => conv f 3 8 none
  | .fcvtI64F32 f => conv f 9 3 none
  | .fcvtF32I64 f => conv f 3 9 none
  | .fcvtI64F64Rtz f => conv f 8 3 (some .rtz)
  | .fcvtI64F32Rtz f => conv f 9 3 (some .rtz)
  | _ => none
where
  two (f : GF) (F : Fmt) (op : FOp) : Option (Takes × (FEnv → Word → Word → Word → Nat × Flags)) :=
    some (⟨f.p, true, false, [f.t0, f.t1]⟩, fun v a b _ => fop op F (rmOfFcr v.fcr) v 0 (fpCode F a) (fpCode F b) 0)
  one (f : GF) (F : Fmt) (op : FOp) : Option (Takes × (FEnv → Word → Word → Word → Nat × Flags)) :=
    some (⟨f.p, false, false, [f.t0, f.t1]⟩, fun v a _ _ => fop op F (rmOfFcr v.fcr) v 0 (fpCode F a) 0 0)
  fma (f : FmaF) (F : Fmt) : Option (Takes × (FEnv → Word → Word → Word → Nat × Flags)) :=
    some (⟨0#2, true, true, [f.t0, f.t1]⟩,
      fun v a b c => fop .fma F (rmOfFcr v.fcr) v 0 (fpCode F a) (fpCode F b) (fpCode F c))
  cmp (f : GF) (F : Fmt) (r : Rel) : Option (Takes × (FEnv → Word → Word → Word → Nat × Flags)) :=
    some (⟨f.p, true, false, [f.t0, f.t1]⟩, fun v a b _ =>
      let x := fcmp r F v (fpCode F a) (fpCode F b)
      (if x.1 then 1 else 0, x.2))
  conv (f : GF) (src dst : Nat) (rm : Option Rm) : Option (Takes × (FEnv → Word → Word → Word → Nat × Flags)) :=
    some (⟨f.p, false, false, [f.t0, f.t1]⟩, fun v a _ _ =>
      convElem src dst true (rm.getD (rmOfFcr v.fcr)) v 0 (a.toNat % 2 ^ laneWidth src))

/-- The tables of R210, R217 and R218 for a format: the codes of its largest finite value, of the quiet NaN it produces (none in
the formats without NaN) and of infinity (none where it has none), and the sign bit. -/
structure FmtRow where
  F : Fmt
  max : Nat
  nan : Option Nat
  inf : Option Nat
  sign : Nat

/-- R210, R217, R218, row by row. -/
def fmtRows : List FmtRow :=
  [⟨fmtF64, 0x7FEFFFFFFFFFFFFF, some 0x7FF8000000000000, some 0x7FF0000000000000, 0x8000000000000000⟩,
   ⟨fmtF32, 0x7F7FFFFF, some 0x7FC00000, some 0x7F800000, 0x80000000⟩,
   ⟨fmtBf16, 0x7F7F, some 0x7FC0, some 0x7F80, 0x8000⟩, ⟨fmtF16, 0x7BFF, some 0x7E00, some 0x7C00, 0x8000⟩,
   ⟨fmtE5m2, 0x7B, some 0x7E, some 0x7C, 0x80⟩, ⟨fmtE4m3, 0x7E, some 0x7F, none, 0x80⟩,
   ⟨fmtE3m2, 0x1F, none, none, 0x20⟩, ⟨fmtE2m3, 0x1F, none, none, 0x20⟩, ⟨fmtE2m1, 0x7, none, none, 0x8⟩]

/-- Whether rounding adds one to the integer part n of a magnitude whose fraction is (f + d) / 2^k, where `st` says that
0 < d < 1 and otherwise d = 0 (R216). -/
def RoundsUp (rm : Rm) (neg : Bool) (n f k : Nat) (st : Bool) (rand : Nat) : Prop :=
  match rm with
  | .rne => 2 ^ k < 2 * f ∨ 2 * f = 2 ^ k ∧ (st = true ∨ n % 2 = 1)
  | .rtz => False
  | .rup => (f ≠ 0 ∨ st = true) ∧ neg = false
  | .rdn => (f ≠ 0 ∨ st = true) ∧ neg = true
  | .sr => 2 ^ 32 ≤ f * 2 ^ 32 / 2 ^ k + rand

/-- Whether IEEE 754 gives infinity for an overflow under a mode; it gives the largest finite value otherwise (R217). -/
def ieeeInf (rm : Rm) (neg : Bool) : Bool :=
  match rm with
  | .rne | .sr => true
  | .rtz => false
  | .rup => !neg
  | .rdn => neg

/-- The code and flags of an overflow (R217). -/
def overflowCode (row : FmtRow) (rm : Rm) (sat neg : Bool) : Nat × Flags :=
  let sg := if neg then row.sign else 0
  let big := if sat && !(16 ≤ fmtWidth row.F) || !ieeeInf rm neg then sg + row.max
    else match row.inf, row.nan with
      | some x, _ => sg + x
      | none, some x => x
      | none, none => sg + row.max
  (big, flagOF ||| flagNX)

/-- The code and flags of an infinite value (R217). -/
def infinityCode (row : FmtRow) (sat neg : Bool) : Nat × Flags :=
  let sg := if neg then row.sign else 0
  match row.inf, row.nan with
  | some x, _ => if sat && !(16 ≤ fmtWidth row.F) then (sg + row.max, flagNX) else (sg + x, 0#6)
  | none, some x => if sat then (sg + row.max, flagNX) else (x, flagNV)
  | none, none => (sg + row.max, flagNX)

/-- (-1)^neg × m × 2^e in units of 2^e0, for e0 at most e. -/
def scaled (neg : Bool) (m : Nat) (e e0 : Int) : Int := (if neg then -1 else 1) * (m : Int) * 2 ^ (e - e0).toNat

/-- Lane `i` of a vector in lanes of `w` bits (R281). -/
def laneAt (x : Vec) (w i : Nat) : Nat := x.toNat / 2 ^ (w * i) % 2 ^ w
/-- The value of lane `i` read as signed or unsigned (R214, R281). -/
def laneInt (sg : Bool) (x : Vec) (w i : Nat) : Int :=
  if sg && 2 ^ (w - 1) ≤ laneAt x w i then (laneAt x w i : Int) - 2 ^ w else laneAt x w i

/-- The bounds of an integer type of `w` bits (R214). -/
def intLo (sg : Bool) (w : Nat) : Int := if sg then -2 ^ (w - 1) else 0
/-- See `intLo`. -/
def intHi (sg : Bool) (w : Nat) : Int := if sg then 2 ^ (w - 1) - 1 else 2 ^ w - 1
/-- The nearest value inside the bounds (R220). -/
def intSat (sg : Bool) (w : Nat) (z : Int) : Int := max (intLo sg w) (min (intHi sg w) z)

/-- The VINT forms that compute one integer from a lane of each operand (R285): whether b is taken, and the exact value. -/
def vintSpec : Instr → Option (VecF × Bool × (Nat → Int → Int → Int))
  | .vaddInt f => some (f, true, fun _ x y => x + y)
  | .vsubInt f => some (f, true, fun _ x y => x - y)
  | .vmulInt f => some (f, true, fun _ x y => x * y)
  | .vmulh f => some (f, true, fun w x y => x * y / 2 ^ w)
  | .vminInt f => some (f, true, fun _ x y => min x y)
  | .vmaxInt f => some (f, true, fun _ x y => max x y)
  | .vabsInt f => some (f, false, fun _ x _ => x.natAbs)
  | .vnegInt f => some (f, false, fun _ x _ => -x)
  | _ => none

/-- The relations of VCMP on integers by IMM8 (R287). -/
def cmpHolds (imm : Nat) (x y : Int) : Prop :=
  match imm with
  | 0 => x = y | 1 => x ≠ y | 2 => x < y | 3 => x ≤ y | 4 => y < x | _ => y ≤ x

/-- The first `n` lanes of `r`, `w` bits wide, are the values of `z`, and `fl` has the flags of those lanes (R283). -/
def LanesAre (r : Vec) (fl : Flags) (w n : Nat) (z : Nat → Nat × Flags) : Prop :=
  (∀ j, j < n → laneAt r w j = (z j).1 % 2 ^ w) ∧
    ∀ m, m < 6 → (fl.getLsbD m = true ↔ ∃ j, j < n ∧ (z j).2.getLsbD m = true)

/-- The value of a code of `w` bits read as signed or unsigned (R214). -/
def codeInt (sg : Bool) (w c : Nat) : Int := if sg && 2 ^ (w - 1) ≤ c then (c : Int) - 2 ^ w else c

/-- VIntStore (R286): an exact integer as a lane stores it, and its flag. -/
def intStored (sg sat : Bool) (w : Nat) (y : Int) : Nat × Flags :=
  if sat && intSat sg w y != y then ((intSat sg w y % 2 ^ w).toNat, flagIS) else ((y % 2 ^ w).toNat, 0#6)

/-- The reduction of a list of integers by IMM8 (R292, R293): the sum, a least element, a greatest element. -/
def isRed (imm : Nat) (xs : List Int) (y : Int) : Prop :=
  match imm with
  | 0 => y = xs.sum
  | 1 => y ∈ xs ∧ ∀ x ∈ xs, y ≤ x
  | _ => y ∈ xs ∧ ∀ x ∈ xs, x ≤ y

/-- One step of a running reduction of integers (R293). -/
def redStep (imm : Nat) (x y : Int) : Int :=
  match imm with
  | 0 => x + y | 1 => min x y | _ => max x y

/-- The operation of a floating-point reduction by IMM8 (R292, R293). -/
def redOp (imm : Nat) : FOp :=
  match imm with
  | 0 => .add | 1 => .min | _ => .max

/-! ### Memory instructions -/

/-- The memory instructions (R258 to R271): whether operands b and c are taken, and the LSID. -/
def memForm : Instr → Option (Bool × Bool × Nat)
  | .ldb f | .ldh f | .ldw f | .ldd f | .ldbs f | .ldhs f | .ldws f | .ldv f => some (false, false, f.lsid.toNat)
  | .stb f | .sth f | .stw f | .std f | .stv f => some (true, false, f.lsid.toNat)
  | .ld f | .pref f | .lflush f | .linv f => some (false, false, f.lsid.toNat)
  | .st f | .gather f | .aadd f | .aand f | .aor f | .axor f | .amin f | .amax f | .aminz f | .amaxz f | .axchg f
  | .afaddF32 f | .afaddBf16x2 f => some (true, false, f.lsid.toNat)
  | .scatter f | .acas f => some (true, true, f.lsid.toNat)
  | _ => none

/-- What a memory instruction takes. -/
def memTakes (i : Instr) (b c : Bool) : Takes := ⟨i.pred, b, c, i.targets⟩

/-- No tracked instruction of a block stands at a slot or carries an LSID. -/
def FreshOp (f : Frame) (i l : Nat) : Prop := ∀ o ∈ f.ops, o.slot ≠ i ∧ o.lsid ≠ some l

/-- The current slot has fired an instruction with an LSID, which its block tracks as `o` (R197); nothing else has changed. -/
def trackedAt (s : State) (f : Frame) (o : Op) : State :=
  s.putFrame { f.fireAt s.cur.2.2 with ops := f.ops ++ [o] }

/-- The tracked instruction with the operands that arrived. -/
def newOp (i : Instr) (f : Frame) (slot l : Nat) (parts : List Part) : Op :=
  { Op.mk0 i slot (some l) (f.operand 0 slot) (f.operand 1 slot) (f.operand 2 slot) with parts := parts }

/-- The bytes of a value, lowest first. -/
def bytesOf (x : Vec) (n : Nat) : List (Option Byte) := (List.range n).map fun j => some (bits x (8 * j) 8)

/-! ### Exits and traps -/

/-- The thread stands alone, outside any pack (R170). -/
def Solo (s : State) (k : Nat) (t : Thread) : Prop := s.thr k = some t ∧ t.pack = .none ∧ members s k = []

/-- What an exit leaves (R199, R257): the block `f'` in place of `f`, and what grid 0 of the core has learnt of the exit. -/
def Exited (s s' : State) (f' : Frame) : Prop :=
  ∃ g : Nat, ∃ x : Grid → Grid, s' = (s.putFrame f').modGrid g x ∧ ∀ y, x y = { y with tbuf := (x y).tbuf }

/-- The status that taking a trap writes (R413, R417): SUP and EXL one, PSUP the old SUP, EPCHI the high bits of the return
block address, every other field zero. -/
def trapStatus (old : Word) (ret : VAddr) (new : Word) : Prop :=
  new.getLsbD 0 = true ∧ new.getLsbD 1 = old.getLsbD 0 ∧ new.getLsbD 2 = true ∧
  (∀ j, j < 16 → new.getLsbD (16 + j) = ret.getLsbD (64 + j)) ∧
  ∀ j, 3 ≤ j → j < 16 ∨ 32 ≤ j → new.getLsbD j = false

/-- Thread `k` has taken a trap (R413): its blocks are gone, `epc`, `ecause`, `efault` and `tstat` are written, its next block
is the trap entry of its context, its leash count starts again, and everything else of it is as it was. -/
def Trapped (s s' : State) (k : Nat) (t : Thread) (cls : Nat) (efault : Word) (ret : VAddr) : Prop :=
  ∃ t' : Thread, s'.thr k = some t' ∧ t'.frames = [] ∧
    t'.spec.epc = ret.setWidth 64 ∧ t'.spec.ecause.toNat = cls ∧ t'.spec.efault = efault ∧
    trapStatus t.spec.tstat ret t'.spec.tstat ∧
    t'.pc.toNat = (s.ctx t.ctx).pre * 2 ^ 64 + (s.ctx t.ctx).word 9 / 128 * 128 ∧
    t'.leash0 = s.cycThr k ∧
    t' = { t with
      frames := [], pc := t'.pc, leash0 := t'.leash0, lockNext := false, rejoin := none
      spec := { t.spec with epc := t'.spec.epc, ecause := t'.spec.ecause, efault := t'.spec.efault, tstat := t'.spec.tstat } }

/-- A context has been killed with a reason (R428, R21): it is not alive, its generation has risen, the reason is kept with
the generation killed, and it has no thread. -/
def Killed (s s' : State) (ctx reason : Nat) : Prop :=
  (s'.ctx ctx).alive = false ∧ (s'.ctx ctx).gen = ((s.ctx ctx).gen + 1) % 2 ^ 20 ∧
    (s'.ctx ctx).killReason = some (reason, (s.ctx ctx).gen) ∧ ∀ j u, s'.thr j = some u → u.ctx ≠ ctx

/-- A TLBINV takes translation `e` (R433): of the context, and under MODE 01 with a page that holds the address. -/
def InvalidatedBy (mode : BitVec 2) (ctx va : Nat) (e : Trans) : Prop :=
  e.ctx = ctx ∧ (mode = 0#2 ∨ va / 2 ^ 16 % 2 ^ 64 / 2 ^ leafShift e.lvl = e.page / 2 ^ leafShift e.lvl)

/-- No thread of a context has a block that the arbiter has granted, which a kill would let end first (R117, R146). -/
def NoneCommits (s : State) (ctx : Nat) : Prop := ∀ e ∈ s.thrs, e.2.ctx = ctx → ∀ f ∈ e.2.frames, f.stage ≠ 2

/-- The blocks of a thread hold no granule, no reservation and no lock, and nothing that they or its stores sent is on its way
(R68, R109, R110, R271). -/
def HoldsNothing (s : State) (k : Nat) : Prop :=
  (∀ e ∈ s.holds, ∀ t q i, e.2 = .block t q i → t ≠ k) ∧ (∀ r ∈ s.resvs, r.thr ≠ k) ∧
    (∀ e ∈ s.net, (∀ q i j, e.2.src ≠ .acc k q i j) ∧ (∀ g q c, e.2.src ≠ .fetch g k q c) ∧ ∀ g, e.2.src ≠ .store g k) ∧
    ∀ e ∈ s.clus, ∀ l, e.2.lock = some l → l.1 ≠ k

/-- The thread an event of R416 traps, and the classes it takes (R414). -/
def faultClasses : Instr → Option (Nat × List Nat)
  | .refusedBlock k => some (k, [0x02, 0x03])
  | .tokenCollision k => some (k, [0x04])
  | .translationFault k => some (k, [0x01])
  | .signatureFault k => some (k, [0x05])
  | .memoryOperandFault k => some (k, [0x06])
  | .fullEmptyMisuse k => some (k, [0x07])
  | .dataError k => some (k, [0x08])
  | .matrixFault k => some (k, [0x09])
  | .portFault k => some (k, [0x0A])
  | .lookupFault k => some (k, [0x0B])
  | .streamFault k => some (k, [0x0C])
  | .threadStateFault k => some (k, [0x0D])
  | .clusterMapFault k => some (k, [0x0E])
  | .trapInstruction k => some (k, [0x11])
  | .privilegedInstruction k => some (k, [0x12])
  | _ => none

/-! ### Waiting instructions and commits -/

/-- The current slot has fired a waiting instruction that passes its check at once: its block tracks it as done and sends its
result; nothing else has changed. -/
def firedWith (s : State) (f : Frame) (i : Instr) (l : Option Nat) (x : Tok) : State :=
  let n := s.cur.2.2
  s.putFrame { (f.fireAt n).send i.targets x with
    ops := f.ops ++ [{ Op.mk0 i n l (f.operand 0 n) (f.operand 1 n) (f.operand 2 n) with ans := some x, stage := 1 }] }

/-- The same for an instruction without a result: it has passed its check and acts at commit. -/
def firedOk (s : State) (f : Frame) (i : Instr) (l : Option Nat) : State :=
  let n := s.cur.2.2
  s.putFrame { f.fireAt n with
    ops := f.ops ++ [{ Op.mk0 i n l (f.operand 0 n) (f.operand 1 n) (f.operand 2 n) with ans := some .null, stage := 1 }] }

/-- The current slot has fired a waiting instruction that fails its check: it produces nothing and its block holds the fault
(R305, R416). -/
def firedBad (s : State) (f : Frame) (i : Instr) (l : Option Nat) (cls efault : Nat) : State :=
  let n := s.cur.2.2
  s.putFrame { f.fireAt n with
    ops := f.ops ++ [{ Op.mk0 i n l (f.operand 0 n) (f.operand 1 n) (f.operand 2 n) with ans := some .null, stage := 8 }]
    faults := f.faults ++ [⟨cls, BitVec.ofNat 64 efault, l, n⟩] }

/-- No tracked instruction of a block stands at a slot, or carries the LSID of an instruction. -/
def FreshAt (f : Frame) (i : Nat) (l : Option Nat) : Prop := ∀ o ∈ f.ops, o.slot ≠ i ∧ (l ≠ none → o.lsid ≠ l)

/-- The write entries of a block name different registers (R186, check 0x05). -/
def DistinctWrites (f : Frame) : Prop :=
  ∀ x ∈ wrEntries f.hdr, ∀ y ∈ wrEntries f.hdr, x.2 = y.2 → x = y

/-- Block `f` is the only one of its thread in flight and has tracked no instruction; every token its write entries wait for
has come and its exit `x` has fired, so that it may commit (R118, R199); it made no access, so it asks no arbiter (R109), its leash has not
run out (R181), and no kill of its context waits for it (R117). -/
def ReadyPlain (s : State) (k : Nat) (t : Thread) (f : Frame) (x : Exit) : Prop :=
  Solo s k t ∧ t.frames = [f] ∧ f.stage = 1 ∧ f.refused = none ∧ f.colls = [] ∧ f.faults = [] ∧ f.fails = [] ∧ f.ops = [] ∧
    f.exit = some x ∧ hdrMask f.hdr = 0 ∧ (∀ e ∈ wrEntries f.hdr, f.wrTok e.1 ≠ none) ∧ f.mapFired = true ∧ f.s0 = none ∧
    (s.clu (cluOf k)).lock = none ∧ leashOut s k t = false ∧ HoldsNothing s k ∧ DistinctWrites f ∧ (s.ctx t.ctx).dying = none

/-- Whether a group mask of `conv` or `dmask` names a register (R251, R252): bit r / 4 for a general register above g3, bit
32 + (r - 128) / 4 for a vector register. -/
def groupOf (m : Word) (r : Nat) : Prop :=
  (4 ≤ r ∧ r < 128 ∧ m.getLsbD (r / 4) = true) ∨ (128 ≤ r ∧ r < 192 ∧ m.getLsbD (32 + (r - 128) / 4) = true)

/-- The value a block's write entries give a register: the token that came, or what it held when there is no live entry or
the token is null (R164, R186). -/
def writtenVal (t : Thread) (f : Frame) (r : Nat) (v : Tok) : Prop :=
  (∀ e, (e, r) ∈ wrEntries f.hdr → ∀ x, f.wrTok e = some x →
    (x = .null → v = regCommitted t 0 r) ∧ (x ≠ .null → v = if r < 128 then .s x.word else .v x.vec)) ∧
  ((∀ e, (e, r) ∉ wrEntries f.hdr) → v = regCommitted t 0 r)

/-! ### Operand memory -/

/-- The code of element `c` of row `i` of a slot of shape `x` on the physical slots `ph` (R213, R226, R302). -/
def codeAt (s : State) (clu : Nat) (ph : Nat × Nat) (x : SlotName) (i c : Nat) : Nat :=
  elemOf x.fmt x.cols (leNat (mread s.opmem (slotByte clu ph (x.pitch * i)) x.rowBytes)) c

/-- The physical slots on which a slot or pair stands. -/
def physOf (x : SlotName) (ph : Nat × Nat) : List Nat := if x.pair then [ph.1, ph.2] else [ph.1]

/-- Two roles of a job stand on different physical slots. -/
def Apart (x : SlotName) (ph : Nat × Nat) (y : SlotName) (qh : Nat × Nat) : Prop := ∀ p ∈ physOf x ph, p ∉ physOf y qh

/-- Every byte of operand memory that `keep` names is as it was. -/
def RowsFrame (s s' : State) (keep : Nat → Prop) : Prop := ∀ b, keep b → mget s'.opmem b = mget s.opmem b

/-- A byte lies in no row of a slot. -/
def OutsideRows (clu : Nat) (ph : Nat × Nat) (x : SlotName) (b : Nat) : Prop :=
  ∀ i, i < x.rows → b < slotByte clu ph (x.pitch * i) ∨ slotByte clu ph (x.pitch * i) + x.rowBytes ≤ b

/-- The signed value of a byte element, and of a 32-bit element, at an address of operand memory (R214). -/
def opInt (s : State) (a n : Nat) : Int :=
  let z := leNat (mread s.opmem a n)
  if 2 ^ (8 * n - 1) ≤ z then (z : Int) - 2 ^ (8 * n) else z

/-- A role's slots obey R302: at most 128 rows, rows no longer than their pitch, and the halves of a pair differ. -/
def RoleOk (x : SlotName) (ph : Nat × Nat) : Prop :=
  x.rows ≤ 128 ∧ x.rowBytes ≤ x.pitch ∧ ph.1 < 64 ∧ ph.2 < 64 ∧ (x.pair = true → ph.1 ≠ ph.2)

/-- The bytes of operand memory outside `n` bytes from `a` are as they were. -/
def OpFrame (s s' : State) (a n : Nat) : Prop := ∀ b, b < a ∨ a + n ≤ b → mget s'.opmem b = mget s.opmem b

/-- The matrix instructions that pass a check and then act at commit (R303, R306): whether operands b and c are taken, and
the LSID. -/
def matrixForm : Instr → Option (Bool × Bool × Nat)
  | .mrel f => some (false, false, f.lsid.toNat)
  | .mshape f => some (false, false, f.lsid.toNat)
  | .mload f | .mstore f => some (true, true, f.lsid.toNat)
  | .mrow f => some (true, false, f.lsid.toNat)
  | .mcolw f => some (true, false, f.lsid.toNat)
  | .mzero f => some (false, false, f.lsid.toNat)
  | .mmas f => some (true, false, f.lsid.toNat)
  | .mma f => some (true, false, f.lsid.toNat)
  | .mscan f => some (true, false, f.lsid.toNat)
  | .maccr f => some (true, false, f.lsid.toNat)
  | _ => none

/-- The block with its slot's instruction fired and tracked. -/
def firedFrame (s : State) (f : Frame) (o : Op) : Frame := { f.fireAt s.cur.2.2 with ops := f.ops ++ [o] }

/-- The tracked instruction of the current slot with the operands that arrived, before its check. -/
def firedOp (s : State) (f : Frame) (i : Instr) (l : Nat) : Op :=
  Op.mk0 i s.cur.2.2 (some l) (f.operand 0 s.cur.2.2) (f.operand 1 s.cur.2.2) (f.operand 2 s.cur.2.2)

/-- The physical slots of role 0 of a job and the byte at which a row starts (R302). -/
def rowStart (clu : Nat) (j : MJob) (ph : Nat × Nat) (row : Nat) : Nat := slotByte clu ph ((j.shape 0).pitch * row)

/-! ### Homes and vaults -/

/-- The bytes from `pa` that are present have been stored, and every other byte of memory is as it was. -/
def Stored (s s' : State) (pa : Nat) (data : List (Option Byte)) : Prop :=
  ∀ a, mget s'.mem a = if pa ≤ a then (data.getD (a - pa) none).getD (mget s.mem a) else mget s.mem a

/-- No block that the arbiter has granted is still to be performed. -/
def NoneGranted (s : State) : Prop := ∀ e ∈ s.thrs, ∀ f ∈ e.2.frames, f.stage ≠ 2

/-- Message `m` is the only one in flight and has come to the L2 home of its line, on the die of its grid: the line is in the
L2, and nothing waits for it, reserves it or owns it as an engine does. -/
def AtHome (s : State) (n : Nat) (m : Msg) : Prop :=
  s.net = [(n, m)] ∧ m.st = 0 ∧ m.node = 0 ∧ 1 ≤ m.agent ∧ (m.agent - 1) / 640 = homeDie m.pa ∧ m.src.outside = false ∧
    s.queue (lineOf m.pa) = [] ∧ lineOf m.pa ∈ s.l2 ∧ s.resvs = [] ∧ (s.dir 0 (lineOf m.pa)).st ≠ .eo ∧
    paPkg m.pa = s.mod.pkg ∧ NoneGranted s

/-- A request that needs a miss register of its grid holds one. -/
def HasReg (s : State) (n : Nat) (m : Msg) : Prop := n ∈ (s.grid (m.agent - 1)).mshr

/-- No grid has a tracked copy of a line (R89). -/
def Untracked (d : Dir) : Prop := d.st ≠ .e ∧ d.own.members = []

/-- Message `m` is the only one in flight and has come to its vault, where nothing waits and no granule is held or reserved. -/
def AtVault (s : State) (n : Nat) (m : Msg) : Prop :=
  s.net = [(n, m)] ∧ 9 ≤ m.node ∧ 1 ≤ m.agent ∧ HasReg s n m ∧ s.queue (nodeKey m.node 0) = [] ∧ s.holds = [] ∧
    s.resvs = [] ∧ inKennel s m.pa = false ∧ paPkg m.pa = s.mod.pkg ∧ NoneGranted s

/-- The new value of an atomic on `n` bytes that hold `v`, with operands `b` and `c`; none when it does not write (R270). -/
def AtomicVal (op n v b c : Nat) (x : Option Nat) : Prop :=
  let sg := fun (y : Nat) => (BitVec.ofNat (8 * n) y).toInt
  (op = 0 → x = some ((v + b) % 2 ^ (8 * n))) ∧ (op = 1 → x = some (v &&& b)) ∧ (op = 2 → x = some (v ||| b)) ∧
  (op = 3 → x = some (v ^^^ b)) ∧
  (op = 4 → ∃ y, x = some y ∧ (y = v ∨ y = b) ∧ sg y ≤ sg v ∧ sg y ≤ sg b) ∧
  (op = 5 → ∃ y, x = some y ∧ (y = v ∨ y = b) ∧ sg v ≤ sg y ∧ sg b ≤ sg y) ∧
  (op = 6 → x = some (min v b)) ∧ (op = 7 → x = some (max v b)) ∧ (op = 8 → x = some b) ∧
  (op = 9 → x = if v = b then some c else none) ∧
  (op = 10 → x = some (afaddF fmtF32 v b)) ∧
  (op = 11 → x = some (afaddF fmtBf16 (v % 65536) (b % 65536) + 65536 * afaddF fmtBf16 (v / 65536) (b / 65536)))

/-! ### The management controller -/

/-- The command of a port is the next, with its code and arguments (R448, R449). -/
def Turn (s : State) (port code : Nat) (args : List Nat) : Prop :=
  turn s port code = true ∧ ∀ i x, args[i]? = some x → argOf s port i = x

/-- A port's command has been completed with a RESULT, and the next command's turn has come (R448). -/
def Answered (s s' : State) (port result : Nat) : Prop :=
  s'.mod.queue = s.mod.queue.drop 1 ∧ (s'.mod.mbox port).busy = false ∧ (s'.mod.mbox port).result = result

/-- No block has a reservation and no engine owns a line: the Sheepdog's accesses wait for neither. -/
def NothingHeld (s : State) : Prop := s.resvs = [] ∧ ∀ e ∈ s.dirs, e.2.st ≠ .eo

/-- Nothing is cached, nothing is on its way, and no line is held. -/
def Quiet (s : State) : Prop := s.grids = [] ∧ s.net = [] ∧ s.mod.postq = [] ∧ NothingHeld s

/-- Nothing is cached here or beyond the package, and neither a message nor a walk is on its way. -/
def Calm (s : State) : Prop := Quiet s ∧ ∀ d ∈ s.dies, d.2.filter = [] ∧ d.2.walks = []

/-- The instructions that only compute: scalar, floating-point and vector arithmetic, moves, constants and hints. -/
def computes (i : Instr) : Bool :=
  (arithSpec i).isSome || (bitSpec i).isSome || (testSpec i).isSome || (immSpec i).isSome || (fpSpec i).isSome ||
  (vintSpec i).isSome ||
  match i with
  | .vaddFp _ | .vsubFp _ | .vmulFp _ | .vfma _ | .vfms _ | .vminFp _ | .vmaxFp _ | .vabsFp _ | .vnegFp _ | .vrcp _ | .vrsq _
  | .vexp2 _ | .vlog2 _ | .vcmpFp _ | .vcvt _ | .vred _ | .vscan _ | .vdot _ | .vmxq _ | .vmxdq _
  | .mov _ | .sel _ | .null _ | .movi _ | .appi _ | .mov4 _ | .hint _ | .vand _ | .vor _ | .vxor _ | .vshl _ | .vshr _
  | .vsar _ | .vcmpInt _ | .vsel _ | .vshuf _ | .vbcast _ | .vins _ | .vext _ | .vnipack _ | .vniunpack _ => true
  | _ => false

end Sys2Proof.Machine
end

