-- ==== Sys2Proof/Certificates/Slice0/Obligations.lean ====
section
/-! DEFINITION. The statements for the provers. Each cites the rules of the manual it formalises; the vocabulary stands in
Sys2Proof/Safety.lean. -/

open Sys2Proof Sys2Proof.Machine


/-! ### The machine as a whole -/

/-- R163, R195, R200: when the agenda's next move is a slot of a mapped block, a step decodes the words there and performs the
instruction with that slot as the current one; a reserved word does nothing. Beside that, the node remembers at most which
context it served (R180). When it is an event, an error of storage (R65) or another input, the step performs it; when the choice is
free, the step takes one of the machine's moves as time passes, or only time passes. The clauses on the agenda, the free choice, and the
errors and inputs that the agenda holds are the model's choice (logs 3, 19 and 73). -/
def Obligations.StepRunsTheDecodedInstruction : Prop :=
  ∀ (s : State) (r : List Move),
    (∀ k q i f ins, s.agenda = .fire k q i :: r → s.frame k q = some f →
      decode (wordAt f.words i) (wordAt f.words (i + 1)) = .ok ins →
      step s = exec ins { serve { s with agenda := r } k q i with cur := (k, q, i) }) ∧
    (∀ k q i f e, s.agenda = .fire k q i :: r → s.frame k q = some f →
      decode (wordAt f.words i) (wordAt f.words (i + 1)) = .error e →
      step s = .next (serve { s with agenda := r } k q i)) ∧
    (∀ k q i, { serve { s with agenda := r } k q i with grids := s.grids } = { s with agenda := r }) ∧
    (∀ e, s.agenda = .event e :: r → encode e = [] → step s = exec e { s with agenda := r }) ∧
    (∀ e, s.agenda = .upset e :: r → step s = .next (storageError { s with agenda := r } e)) ∧
    (∀ e, s.agenda = .input e :: r → step s = .next (takeInput { s with agenda := r } e)) ∧
    (s.agenda = [] → step s = .next (tick s) ∨ ∃ m ∈ moves s, step s = take (tick s) m) ∧
    (s.agenda = .free :: r → let s1 := { s with agenda := r }
      step s = .next (tick s1) ∨ ∃ m ∈ moves s1, step s = take (tick s1) m)

/-- R189, R200, and the words that the worked blocks of the manual give: LDD, ADDI, STD, TLEI, BR, MOVI, CALLI, MCLAIM, MSHAPE,
MROW, MCOL and ERET; an empty slot holds no instruction. -/
def Obligations.DecodeReadsTheManualsWords : Prop :=
  decode 0x46000001#32 0 = .ok (.ldd ⟨0, 0, 0, 1⟩) ∧
  decode 0x10000282#32 0 = .ok (.addi ⟨0, 1, 0x082⟩) ∧
  decode 0x56040000#32 0 = .ok (.std ⟨0, 1, 0⟩) ∧
  decode 0x107FFF80#32 0 = .ok (.addi ⟨0, 0x3FFF, 0x180⟩) ∧
  decode 0x26000306#32 0 = .ok (.tlei ⟨0, 1, 0x106⟩) ∧
  decode 0x61100002#32 0 = .ok (.br ⟨2, 1, 2⟩) ∧
  decode 0x30000602#32 0 = .ok (.movi ⟨3, 2⟩) ∧
  decode 0xA203FFFF#32 0x004C2100#32 = .ok (.calli ⟨0, 0x4C21, 0, 0⟩) ∧
  decode 0x900B_FFFF#32 0x1E07A401#32 = .ok (.mshape ⟨0, 15, 15, 9, 1⟩) ∧
  decode 0x920BFFFF#32 0x1E00000F#32 = .ok (.mrow ⟨0, 0x1FF, 0x1FF, 15, 0, 15⟩) ∧
  decode 0x9213FF80#32 0x00030000#32 = .ok (.mcol ⟨0, 0x1FF, 0x180, 0, 3, 0⟩) ∧
  decode 0x90000580#32 0 = .ok (.mclaim ⟨0, 2, 0x180, 0, 0⟩) ∧
  decode 0xA007FFFF#32 0 = .ok (.eret ⟨0, 0⟩) ∧ ∀ w i, decode 0 w ≠ .ok i

/-- R189 to R192, R200: the words of every well-formed instruction decode to it, with every operand field at every value the
encoding admits, whatever word follows a one-word instruction. -/
def Obligations.DecodingAnEncodingGivesTheInstruction : Prop :=
  ∀ i : Instr, i.wellFormed = true →
    (∀ w0, encode i = [w0] → ∀ w1, decode w0 w1 = .ok i) ∧
    (∀ w0 w1, encode i = [w0, w1] → decode w0 w1 = .ok i) ∧ (encode i).length ≤ 2

/-- R192, R200, R201: a word has one meaning: whatever the decoder reads from a slot, its encoding is the slot's words, so no
bit of a slot is ignored and none of a reserved word is accepted. -/
def Obligations.WordsHaveOneMeaning : Prop :=
  ∀ (w0 w1 : Slot32) (i : Instr), decode w0 w1 = .ok i → i.fieldsOk = true ∧ (encode i = [w0] ∨ encode i = [w0, w1])

/-- R443, R445: after power-up the module is POWERED with no failure, LOCK is free, no package but its own is present, no
context, thread or block exists and nothing is on its way. That memory reads zero then is the model's choice (log 1), and so is the
presence mask, which R443 and R445 do not give (log 14). -/
def Obligations.ResetLeavesTheModulePowered : Prop :=
  State.reset.mod.st = .powered ∧ State.reset.mod.vbusy = false ∧ State.reset.mod.failc = 0 ∧ State.reset.mod.lock = 0 ∧
    State.reset.mod.presence = 1 ∧ State.reset.ctxs = [] ∧ State.reset.thrs = [] ∧ State.reset.net = [] ∧
    Memory.wf State.reset.mem = true ∧ Memory.wf State.reset.opmem = true ∧
    ∀ a, isCxl a = false → mget State.reset.mem a = 0

/-- The model's memories keep their canonical form, whatever moves: rising addresses and no entry equal to what an unlisted
address reads as (logs 1 and 11). -/
def Obligations.EveryStepKeepsMemoryCanonical : Prop :=
  ∀ s s' : State, Memory.wf s.mem = true → Memory.wf s.opmem = true → step s = .next s' →
    Memory.wf s'.mem = true ∧ Memory.wf s'.opmem = true

/-- R117, R163, R194: an instruction that only computes changes nothing but its own block: no register, special register or
memory byte, no other thread and nothing on its way. Its result reaches registers only when its block commits. -/
def Obligations.ComputingChangesOnlyItsBlock : Prop :=
  ∀ (i : Instr) (s s' : State), computes i = true → exec i s = .next s' →
    SameButBlocks s s' s.cur.1 ∧
      ∀ t f q, s.thr s.cur.1 = some t → q ≠ s.cur.2.1 → t.frame q = some f → s'.frame s.cur.1 q = some f
/-! ### The scalar instructions -/

/-- R237, R238: every IARITH and IARITHW instruction whose operands have arrived sends the result of its table row to both
targets; no form saturates, sets a flag or traps, and nothing else changes. -/
def Clauses.ScalarArithmetic : Prop := Completes arithSpec

/-- R239, R240: the logic, shift, rotate, count, reverse and field instructions. -/
def Clauses.ScalarLogicAndBits : Prop := Completes bitSpec

/-- R241: the tests produce the token 1 when the relation holds and 0 otherwise. -/
def Clauses.ScalarTests : Prop := Completes testSpec

/-- R242, R191: an immediate instruction behaves as the form R242 names with operand b the immediate of R191. -/
def Clauses.ScalarImmediates : Prop := Completes immSpec

/-- R243, R244, R245, R202: MOV, MOV4 and a hint pass a token of either width on; SEL sends b or a null token; NULL sends a
null token; MOVI and APPI form constants. -/
def Obligations.MovesAndConstants : Prop :=
  (∀ (g : GF) (s : State) (t : Thread) (f : Frame) (x : Tok), Fires s g.p t f → HasTok f 0 s.cur.2.2 x → x ≠ .null →
    exec (.mov g) s = .next (sent s f [g.t0, g.t1] x)) ∧
  (∀ (g : Mov4F) (s : State) (t : Thread) (f : Frame) (x : Tok), Fires s g.p t f → HasTok f 0 s.cur.2.2 x → x ≠ .null →
    exec (.mov4 g) s = .next (sent s f [g.t0, g.t1, g.t2, g.t3] x)) ∧
  (∀ (g : HintF) (s : State) (t : Thread) (f : Frame) (x : Tok), Fires s g.p t f → HasTok f 0 s.cur.2.2 x → x ≠ .null →
    exec (.hint g) s = .next (sent s f [g.t0, g.t1] x)) ∧
  (∀ (g : GF) (s : State) (t : Thread) (f : Frame) (a : Word) (x : Tok), Fires s g.p t f →
    HasTok f 0 s.cur.2.2 (.s a) → HasTok f 1 s.cur.2.2 x → x ≠ .null →
    (a ≠ 0 → exec (.sel g) s = .next (sent s f [g.t0, g.t1] x)) ∧
    (a = 0 → exec (.sel g) s = .next (sent s f [g.t0, g.t1] .null))) ∧
  (∀ (g : GF) (s : State) (t : Thread) (f : Frame), Fires s g.p t f →
    exec (.null g) s = .next (sent s f [g.t0, g.t1] .null)) ∧
  (∀ (g : CF) (s : State) (t : Thread) (f : Frame), Fires s 0#2 t f →
    ∃ r : Word, exec (.movi g) s = .next (sent s f [g.t0] (.s r)) ∧ r.toInt = g.k.toInt) ∧
  (∀ (g : CF) (s : State) (t : Thread) (f : Frame) (a : Word), Fires s 0#2 t f → HasTok f 0 s.cur.2.2 (.s a) →
    ∃ r : Word, exec (.appi g) s = .next (sent s f [g.t0] (.s r)) ∧ r.toNat = (a.toNat * 2 ^ 16 + g.k.toNat) % 2 ^ 64)

/-- R196: an instruction of the scalar tables with a null operand fires, performs nothing and sends null to each of its
targets. -/
def Clauses.NullOperandGivesNull : Prop :=
  ∀ (spec : Instr → Option (ScalarForm × (Word → Word → Word → Prop))) (i : Instr) (p : BitVec 2) (m : Option Word)
    (ts : List (BitVec 9)) (rel : Word → Word → Word → Prop) (s : State) (t : Thread) (f : Frame) (x y : Tok),
    spec = arithSpec ∨ spec = bitSpec ∨ spec = testSpec ∨ spec = immSpec → spec i = some ((p, m, ts), rel) →
    Fires s p t f → HasTok f 0 s.cur.2.2 x → (m = none → HasTok f 1 s.cur.2.2 y) →
    x = .null ∨ (m = none ∧ y = .null) →
    exec i s = .next (sent s f ts .null)

/-- R196, R202, R243 to R245: MOV, MOV4, a hint, SEL and APPI with a null operand, all their operands arrived, fire, perform nothing and
send null to each of their targets. -/
def Clauses.NullsPassThroughMoves : Prop :=
  ∀ (s : State) (t : Thread) (f : Frame),
    let n := s.cur.2.2
    (∀ g : GF, Fires s g.p t f → HasTok f 0 n .null → exec (.mov g) s = .next (sent s f [g.t0, g.t1] .null)) ∧
    (∀ g : Mov4F, Fires s g.p t f → HasTok f 0 n .null →
      exec (.mov4 g) s = .next (sent s f [g.t0, g.t1, g.t2, g.t3] .null)) ∧
    (∀ g : HintF, Fires s g.p t f → HasTok f 0 n .null → exec (.hint g) s = .next (sent s f [g.t0, g.t1] .null)) ∧
    (∀ (g : GF) (x y : Tok), Fires s g.p t f → HasTok f 0 n x → HasTok f 1 n y → x = .null ∨ y = .null →
      exec (.sel g) s = .next (sent s f [g.t0, g.t1] .null)) ∧
    (∀ g : CF, Fires s 0#2 t f → HasTok f 0 n .null → exec (.appi g) s = .next (sent s f [g.t0] .null))

/-- R195: a predicated instruction whose predicate does not match its PRED, or whose predicate token is null, does not fire:
its slot is resolved and nothing else changes. Every instruction that a slot encodes. -/
def Clauses.PredicateMismatchPerformsNothing : Prop :=
  ∀ (i : Instr) (s : State) (t : Thread) (f : Frame) (x : Tok),
    i.wellFormed = true → 2 ≤ i.pred.toNat → s.current = some (t, f) → f.canFire s.cur.2.2 = true →
    f.op s.cur.2.2 = none → HasTok f 2 s.cur.2.2 x → x = .null ∨ (i.pred = 2#2 ↔ x.word = 0) →
    exec i s = .next (s.putFrame (f.skipAt s.cur.2.2))

/-! ### Floating point and vectors -/

/-- R246 to R248, R222: every FSCALAR instruction whose operands and rounding environment are known sends its rounded
result in a 64-bit token and raises its flags in its block. -/
def Clauses.FscalarForms : Prop :=
  ∀ (i : Instr) (o : Takes) (g : FEnv → Word → Word → Word → Nat × Flags) (s : State) (t : Thread) (f : Frame)
    (a b c : Word) (v : FEnv),
    fpSpec i = some (o, g) → Fires s o.p t f → Arrived f s.cur.2.2 o (.s a) (.s b) (.s c) →
    t.env f.cyc s.cur.2.1 s.cur.2.2 = some v →
    exec i s = .next (sentFl s f o.ts (.s (BitVec.ofNat 64 (g v a b c).1)) (g v a b c).2)

/-- R210, R216, R217, R218: RoundF. A magnitude of n whole steps and a fraction, the step being that of its binade or of the smallest one,
goes to the code of n or n + 1 steps as its mode says, with NX for a discarded fraction and UF below the smallest normal; a result
above the largest finite value, an infinity and a NaN give the codes and flags of the tables. A code with a mantissa and an
exponent field that mean a number is read as that number. -/
def Clauses.ResultsAreRoundedOnce : Prop :=
  ∀ row ∈ fmtRows, ∀ (rm : Rm) (sat neg : Bool) (rand : Nat),
    let F := row.F
    let sg := if neg then row.sign else 0
    (∀ (n f k : Nat) (e : Int) (st : Bool) (n' : Nat), f < 2 ^ k → n < 2 ^ (F.mb + 1) → n * 2 ^ k + f ≠ 0 → (st = true → 32 ≤ k) →
      let top : Int := e + k + F.mb
      fmtEmin F ≤ top → 2 ^ F.mb ≤ n ∨ top = fmtEmin F →
      (RoundsUp rm neg n f k st rand → n' = n + 1) → (¬RoundsUp rm neg n f k st rand → n' = n) →
      let code := (top - fmtEmin F).toNat * 2 ^ F.mb + n'
      (code ≤ row.max → roundF F rm sat rand (.fin neg (n * 2 ^ k + f) e st) =
        (sg + code, flagIf (f ≠ 0 || st) flagNX ||| flagIf ((f ≠ 0 || st) && n' < 2 ^ F.mb) flagUF)) ∧
      (row.max < code → roundF F rm sat rand (.fin neg (n * 2 ^ k + f) e st) = overflowCode row rm sat neg)) ∧
    (∀ e st, roundF F rm sat rand (.fin neg 0 e st) = (sg, 0#6)) ∧
    roundF F rm sat rand (.inf neg) = infinityCode row sat neg ∧
    (∀ sig, roundF F rm sat rand (.nan sig) = (row.nan.getD 0, flagIf (sig || row.nan.isNone) flagNV)) ∧
    (∀ c : Nat, c ≤ row.max → decodeF F false (sg + c) =
      if c < 2 ^ F.mb then .fin neg c (fmtEmin F - F.mb) false
      else .fin neg (2 ^ F.mb + c % 2 ^ F.mb) ((c / 2 ^ F.mb : Nat) - (F.bias : Int) - F.mb) false)

/-- R216, R218, R246, R248: the exact results that the operations round. Sums, products and fused multiply-adds of numbers are exact; a
quotient and a root are cut far below the last place with the rest remembered; a zero takes its sign; a NaN, and each invalid
operation, give the quiet NaN, with NV where R218 raises it; a number divided by zero gives infinity with DZ. -/
def Clauses.OperationsAreExact : Prop :=
  ∀ row ∈ fmtRows, ∀ (rm : Rm) (v : FEnv) (el a b c : Nat),
    let F := row.F
    let d := decodeF F (fcrDaz v.fcr)
    let fin := fun (x : XVal) (r : Nat × Flags) => r = finishF F rm v el (x, 0#6)
    (∀ na ma ea nb mb eb, d a = .fin na ma ea false → d b = .fin nb mb eb false →
      let e0 := min ea eb
      (∀ z, z = scaled na ma ea e0 + scaled nb mb eb e0 → z ≠ 0 →
        ∃ neg m e, e0 ≤ e ∧ scaled neg m e e0 = z ∧ fin (.fin neg m e false) (fop .add F rm v el a b c)) ∧
      (∀ z, z = scaled na ma ea e0 - scaled nb mb eb e0 → z ≠ 0 →
        ∃ neg m e, e0 ≤ e ∧ scaled neg m e e0 = z ∧ fin (.fin neg m e false) (fop .sub F rm v el a b c)) ∧
      (scaled na ma ea e0 + scaled nb mb eb e0 = 0 → ∃ neg, fop .add F rm v el a b c = (if neg then row.sign else 0, 0#6) ∧
        (neg = true ↔ (ma = 0 ∧ na = true ∧ nb = true) ∨ rm = .rdn ∧ ¬(ma = 0 ∧ na = false ∧ nb = false))) ∧
      fin (.fin (na != nb) (ma * mb) (ea + eb) false) (fop .mul F rm v el a b c) ∧
      (ma ≠ 0 → mb ≠ 0 → ∃ k m : Nat, 2 ^ 100 ≤ m ∧ m * mb ≤ ma * 2 ^ k ∧ ma * 2 ^ k < (m + 1) * mb ∧
        fin (.fin (na != nb) m (ea - eb - k) (m * mb ≠ ma * 2 ^ k)) (fop .div F rm v el a b c)) ∧
      (ma = 0 → mb ≠ 0 → fop .div F rm v el a b c = (if na != nb then row.sign else 0, 0#6)) ∧
      (ma ≠ 0 → mb = 0 → fop .div F rm v el a b c =
        (let r := infinityCode row (fcrSatf v.fcr) (na != nb); (r.1, r.2 ||| flagDZ))) ∧
      (∀ nc mc ec, d c = .fin nc mc ec false →
        let e1 := min (ea + eb) ec
        ∀ z, z = scaled (na != nb) (ma * mb) (ea + eb) e1 + scaled nc mc ec e1 → z ≠ 0 →
          ∃ neg m e, e1 ≤ e ∧ scaled neg m e e1 = z ∧ fin (.fin neg m e false) (fop .fma F rm v el a b c))) ∧
    (∀ na ma ea, d a = .fin na ma ea false →
      (ma ≠ 0 → na = false → ∃ (r : Nat) (j : Nat) (e : Int), 2 ^ 100 ≤ r ∧ r * r ≤ ma * 2 ^ j ∧ ma * 2 ^ j < (r + 1) * (r + 1) ∧
        2 * e = ea - j ∧ fin (.fin false r e (r * r ≠ ma * 2 ^ j)) (fop .sqrt F rm v el a b c)) ∧
      (ma = 0 → fop .sqrt F rm v el a b c = (if na then row.sign else 0, 0#6))) ∧
    (∀ q, row.nan = some q →
      (∀ sa, d a = .nan sa → ∀ op ∈ [FOp.add, .sub, .mul, .div], fop op F rm v el a b c =
        (q, flagIf (sa || d b = .nan true) flagNV)) ∧
      (∀ sb, d b = .nan sb → ∀ op ∈ [FOp.add, .sub, .mul, .div], fop op F rm v el a b c =
        (q, flagIf (sb || d a = .nan true) flagNV)) ∧
      (∀ sa, d a = .nan sa → fop .sqrt F rm v el a b c = (q, flagIf sa flagNV)) ∧
      (∀ n, d a = .inf n → d b = .inf (!n) → fop .add F rm v el a b c = (q, flagNV)) ∧
      (∀ n, d a = .inf n → d b = .inf n → fop .sub F rm v el a b c = (q, flagNV)) ∧
      (∀ n nz ez, d a = .inf n → d b = .fin nz 0 ez false → fop .mul F rm v el a b c = (q, flagNV)) ∧
      (∀ n n', d a = .inf n → d b = .inf n' → fop .div F rm v el a b c = (q, flagNV)) ∧
      (∀ na nb ea eb, d a = .fin na 0 ea false → d b = .fin nb 0 eb false → fop .div F rm v el a b c = (q, flagNV)) ∧
      (∀ ma ea, ma ≠ 0 → d a = .fin true ma ea false → fop .sqrt F rm v el a b c = (q, flagNV)))

/-- R219, R220, R247: DAZ reads a subnormal operand as the zero of its sign; FTZ replaces a result below the smallest normal
by its zero and raises UF and NX; a conversion to an integer rounds to an integer, or gives the nearest bound, or 0 for a NaN,
with NV; comparisons go by value, and with a NaN only `un` holds. -/
def Clauses.ZerosIntegersAndOrder : Prop :=
  (∀ row ∈ fmtRows, 16 ≤ fmtWidth row.F → ∀ (op : FOp) (rm : Rm) (v : FEnv) (el a b c : Nat),
    let F := row.F
    (fcrDaz v.fcr = true → ∀ (neg : Bool) (x : Nat), 0 < x → x < 2 ^ F.mb → a = (if neg then row.sign else 0) + x →
      fop op F rm v el a b c = fop op F rm v el (if neg then row.sign else 0) b c) ∧
    (fcrFtz v.fcr = true →
      let r := fop op F rm { v with fcr := v.fcr &&& ~~~8#64 } el a b c
      (∀ (neg : Bool) (x : Nat), 0 < x → x < 2 ^ F.mb → r.1 = (if neg then row.sign else 0) + x →
        fop op F rm v el a b c = (if neg then row.sign else 0, r.2 ||| flagUF ||| flagNX)) ∧
      (r.1 % row.sign = 0 ∨ 2 ^ F.mb ≤ r.1 % row.sign → fop op F rm v el a b c = r))) ∧
  (∀ (ty : Nat) (rm : Rm) (rand : Nat), ty < 8 →
    let w := laneWidth ty
    let sg : Bool := ty < 4
    (∀ (neg : Bool) (n f k n' : Nat), f < 2 ^ k → (RoundsUp rm neg n f k false rand → n' = n + 1) →
      (¬RoundsUp rm neg n f k false rand → n' = n) →
      let z : Int := if neg then -(n' : Int) else n'
      toIntX ty rm rand (.fin neg (n * 2 ^ k + f) (-(k : Int)) false) =
        (intSat sg w z, if intSat sg w z = z then flagIf (f ≠ 0) flagNX else flagNV)) ∧
    (∀ neg, toIntX ty rm rand (.inf neg) = (if neg then intLo sg w else intHi sg w, flagNV)) ∧
    ∀ sig, toIntX ty rm rand (.nan sig) = (0, flagNV)) ∧
  (∀ (F : Fmt) (v : FEnv) (a b : Nat),
    let d := decodeF F (fcrDaz v.fcr)
    (∀ na ma ea nb mb eb, d a = .fin na ma ea false → d b = .fin nb mb eb false →
      let x := scaled na ma ea (min ea eb)
      let y := scaled nb mb eb (min ea eb)
      fcmp .eq F v a b = (decide (x = y), 0#6) ∧ fcmp .lt F v a b = (decide (x < y), 0#6) ∧
        fcmp .le F v a b = (decide (x ≤ y), 0#6) ∧
        fcmp .un F v a b = (false, 0#6)) ∧
    (∀ sig, d a = .nan sig ∨ d b = .nan sig →
      let nv := flagIf (d a = .nan true || d b = .nan true) flagNV
      fcmp .eq F v a b = (false, nv) ∧ fcmp .un F v a b = (true, nv) ∧ fcmp .lt F v a b = (false, flagNV) ∧
        fcmp .le F v a b = (false, flagNV)))

/-- The statement of `Clauses.FscalarForms`, `Clauses.ResultsAreRoundedOnce`, `Clauses.OperationsAreExact`, `Clauses.ZerosIntegersAndOrder`: each part
says with its rules what it covers. -/
def Obligations.FpScalarResults : Prop :=
  Clauses.FscalarForms ∧ Clauses.ResultsAreRoundedOnce ∧ Clauses.OperationsAreExact ∧ Clauses.ZerosIntegersAndOrder

/-- R285, R286: a VINT form on integer values computes each lane exactly and stores it wrapped, or saturated under SAT with
IS raised when a value changed. -/
def Obligations.VectorIntegerLanes : Prop :=
  ∀ (i : Instr) (g : VecF) (two : Bool) (op : Nat → Int → Int → Int) (s : State) (t : Thread) (f : Frame) (a b : Vec),
    vintSpec i = some (g, two, op) → i.wellFormed = true → Fires s g.p t f → HasTok f 0 s.cur.2.2 (.v a) →
    (two = true → HasTok f 1 s.cur.2.2 (.v b)) →
    ∃ (r : Vec) (fl : Flags), exec i s = .next (sentFl s f [g.t0, g.t1] (.v r) fl) ∧
      let w := laneWidth g.ty.toNat
      let sg := tySigned g.ty
      let z := fun j => op w (laneInt sg a w j) (laneInt sg b w j)
      (∀ j, j < 512 / w →
        if g.sat = 1#1 then laneInt sg r w j = intSat sg w (z j) else (laneInt sg r w j - z j) % 2 ^ w = 0) ∧
      ((∃ j, j < 512 / w ∧ g.sat = 1#1 ∧ intSat sg w (z j) ≠ z j) → fl = flagIS) ∧
      ((∀ j, j < 512 / w → g.sat = 1#1 → intSat sg w (z j) = z j) → fl = 0#6)

/-- R285, R287: the bitwise, shift, compare and select forms of VINT. -/
def Clauses.VectorBitsShiftsAndMasks : Prop :=
  ∀ (g : VecF) (s : State) (t : Thread) (f : Frame) (a b c : Vec),
    Fires s g.p t f → HasTok f 0 s.cur.2.2 (.v a) → HasTok f 1 s.cur.2.2 (.v b) →
    let w := laneWidth g.ty.toNat
    let sg := tySigned g.ty
    let res := fun (i : Instr) (ok : Vec → Prop) => ∃ r, exec i s = .next (sent s f [g.t0, g.t1] (.v r)) ∧ ok r
    (res (.vand g) fun r => ∀ j, j < 512 → r.getLsbD j = (a.getLsbD j && b.getLsbD j)) ∧
    (res (.vor g) fun r => ∀ j, j < 512 → r.getLsbD j = (a.getLsbD j || b.getLsbD j)) ∧
    (res (.vxor g) fun r => ∀ j, j < 512 → r.getLsbD j = (a.getLsbD j != b.getLsbD j)) ∧
    (tyInt g.ty = true →
      (res (.vshl g) fun r => ∀ j, j < 512 / w → laneAt r w j = laneAt a w j * 2 ^ (laneAt b w j % w) % 2 ^ w) ∧
      (res (.vshr g) fun r => ∀ j, j < 512 / w → laneAt r w j = laneAt a w j / 2 ^ (laneAt b w j % w)) ∧
      (res (.vsar g) fun r => ∀ j, j < 512 / w →
        laneInt true r w j = laneInt true a w j / 2 ^ (laneAt b w j % w)) ∧
      (g.imm8.toNat ≤ 5 → res (.vcmpInt g) fun r => ∀ j, j < 512 / w →
        (cmpHolds g.imm8.toNat (laneInt sg a w j) (laneInt sg b w j) → laneAt r w j = 2 ^ w - 1) ∧
        (¬cmpHolds g.imm8.toNat (laneInt sg a w j) (laneInt sg b w j) → laneAt r w j = 0))) ∧
    (g.p = 0#2 → HasTok f 2 s.cur.2.2 (.v c) →
      res (.vsel g) fun r => ∀ j, j < 512 → r.getLsbD j = if a.getLsbD j then b.getLsbD j else c.getLsbD j)

/-- R288, R289, R287: VADD, VSUB, VMUL, VFMA, VFMS, VMIN, VMAX, VABS, VNEG, VRCP, VRSQ, VEXP2 and VLOG2 on floating-point
lanes, whose operands have arrived, compute each lane as the scalar operation on that lane, rounded once with the lane's number
as its element, and raise the flags of the lanes; VCMP sends the mask of its relation. -/
def Clauses.VectorFloatLanes : Prop :=
  ∀ (g : VecF) (s : State) (t : Thread) (f : Frame) (a b c : Vec) (v : FEnv),
    t.env f.cyc s.cur.2.1 s.cur.2.2 = some v → HasTok f 0 s.cur.2.2 (.v a) →
    let w := laneWidth g.ty.toNat
    let F := fmtOf g.ty.toNat
    let res := fun (i : Instr) (z : Nat → Nat × Flags) =>
      ∃ (r : Vec) (fl : Flags), exec i s = .next (sentFl s f [g.t0, g.t1] (.v r) fl) ∧ LanesAre r fl w (512 / w) z
    let op1 := fun (o : FOp) (j : Nat) => fop o F (rmOf g.rnd v.fcr) v j (laneAt a w j) 0 0
    let op2 := fun (o : FOp) (j : Nat) => fop o F (rmOf g.rnd v.fcr) v j (laneAt a w j) (laneAt b w j) 0
    let op3 := fun (o : FOp) (j : Nat) => fop o F (rmOf g.rnd v.fcr) v j (laneAt a w j) (laneAt b w j) (laneAt c w j)
    (Fires s g.p t f →
      res (.vabsFp g) (op1 .abs) ∧ res (.vnegFp g) (op1 .neg) ∧ res (.vrcp g) (op1 .rcp) ∧ res (.vrsq g) (op1 .rsq) ∧
      res (.vexp2 g) (op1 .exp2) ∧ res (.vlog2 g) (op1 .log2)) ∧
    (Fires s g.p t f → HasTok f 1 s.cur.2.2 (.v b) →
      res (.vaddFp g) (op2 .add) ∧ res (.vsubFp g) (op2 .sub) ∧ res (.vmulFp g) (op2 .mul) ∧ res (.vminFp g) (op2 .min) ∧
      res (.vmaxFp g) (op2 .max) ∧
      res (.vcmpFp g) fun j =>
        let x := fcmp (relOf g.imm8) F v (laneAt a w j) (laneAt b w j)
        (if x.1 then 2 ^ w - 1 else 0, x.2)) ∧
    (Fires s 0#2 t f → HasTok f 1 s.cur.2.2 (.v b) → HasTok f 2 s.cur.2.2 (.v c) →
      res (.vfma g) (op3 .fma) ∧ res (.vfms g) (op3 .fms))

/-- R291, R297: the shuffle, broadcast, insert and extract forms move whole lanes, and VNIPACK moves bit 7 - j of lane i to
bit i of plane j. -/
def Clauses.VectorMovesOfLanes : Prop :=
  ∀ (g : VecF) (s : State) (t : Thread) (f : Frame), Fires s g.p t f →
    let w := laneWidth g.ty.toNat
    let n := 512 / w
    let res := fun (i : Instr) (ok : Vec → Prop) => ∃ r, exec i s = .next (sent s f [g.t0, g.t1] (.v r)) ∧ ok r
    (∀ a : Word, HasTok f 0 s.cur.2.2 (.s a) → tyInt g.ty = true →
      res (.vbcast g) fun r => ∀ j, j < n → laneAt r w j = a.toNat % 2 ^ w) ∧
    (∀ a : Vec, HasTok f 0 s.cur.2.2 (.v a) →
      (tyInt g.ty = true → g.imm8.toNat < n → ∃ r : Word, exec (.vext g) s = .next (sent s f [g.t0, g.t1] (.s r)) ∧
        (tySigned g.ty = true → r.toInt = laneInt true a w g.imm8.toNat) ∧
        (tySigned g.ty = false → r.toNat = laneAt a w g.imm8.toNat)) ∧
      (res (.vnipack g) fun r => ∀ j k, j < 8 → k < 64 → r.getLsbD (64 * j + k) = a.getLsbD (8 * k + (7 - j))) ∧
      (res (.vniunpack g) fun r => ∀ j k, j < 8 → k < 64 → r.getLsbD (8 * k + (7 - j)) =
        if j ≤ g.pl.toNat then a.getLsbD (64 * j + k) else decide (j = g.pl.toNat + 1)) ∧
      (∀ b : Vec, HasTok f 1 s.cur.2.2 (.v b) → tyInt g.ty = true →
        res (.vshuf g) fun r => ∀ j, j < n →
          laneAt r w j = if laneAt b w j < n then laneAt a w (laneAt b w j) else 0) ∧
      (∀ b : Word, HasTok f 1 s.cur.2.2 (.s b) → tyInt g.ty = true → g.imm8.toNat < n →
        res (.vins g) fun r => ∀ j, j < n →
          laneAt r w j = if j = g.imm8.toNat then b.toNat % 2 ^ w else laneAt a w j))

/-- R290, R292, R293, R294, R296: VCVT converts the lanes of its part, VRED combines the lanes in a tree of neighbours, VSCAN in
lane order from its carry, VDOT adds the exact products of each group to its accumulator lane, VMXQ quantises 32 values to an
image with one scale and VMXDQ reads such an image. An integer sum is exact and stored by R286, a floating-point step rounds
with the element index of R293, and the flags are those of the lanes or steps. DAZ and FTZ at every step of a floating-point
VRED and VSCAN are the model's choice (log 122), as is NV of a VDOT product of infinity and zero beside a NaN (log 12). -/
def Clauses.VectorReductionsAndConversions : Prop :=
  ∀ (g : VecF) (s : State) (t : Thread) (f : Frame) (a b c : Vec) (k : Word) (v : FEnv),
    t.env f.cyc s.cur.2.1 s.cur.2.2 = some v → HasTok f 0 s.cur.2.2 (.v a) →
    let w := laneWidth g.ty.toNat
    let n := 512 / w
    let sg := tySigned g.ty
    let sat := g.sat == 1#1
    let F := fmtOf g.ty.toNat
    let rm := rmOf g.rnd v.fcr
    let res := fun (i : Instr) (ok : Vec → Flags → Prop) =>
      ∃ (r : Vec) (fl : Flags), exec i s = .next (sentFl s f [g.t0, g.t1] (.v r) fl) ∧ ok r fl
    ((Instr.vcvt g).wellFormed = true → Fires s g.p t f →
      let ws := laneWidth g.ty2.toNat
      let h := g.imm8.toNat
      res (.vcvt g) fun r fl => LanesAre r fl w n fun j =>
        if ws < w then convElem g.ty2.toNat g.ty.toNat sat rm v j (laneAt a ws (h * n + j))
        else if h * (512 / ws) ≤ j ∧ j < (h + 1) * (512 / ws) then
          convElem g.ty2.toNat g.ty.toNat sat rm v j (laneAt a ws (j - h * (512 / ws)))
        else (0, 0#6)) ∧
    ((Instr.vred g).wellFormed = true → Fires s g.p t f →
      (tyInt g.ty = true → ∃ (r : Word) (y : Int), isRed g.imm8.toNat ((List.range n).map (laneInt sg a w)) y ∧
        let z := intStored sg sat w y
        exec (.vred g) s = .next (sentFl s f [g.t0, g.t1] (.s r) z.2) ∧
          (sg = true → r.toInt = codeInt true w z.1) ∧ (sg = false → r.toNat = z.1)) ∧
      (tyInt g.ty = false → ∃ (fl : Flags) (x : Nat → Nat → Nat),
        let z := fun (j i : Nat) => fop (redOp g.imm8.toNat) F rm v (64 * j + i) (x j (2 * i)) (x j (2 * i + 1)) 0
        exec (.vred g) s = .next (sentFl s f [g.t0, g.t1] (.s (BitVec.ofNat 64 (x (Nat.log2 n) 0))) fl) ∧
          (∀ i, i < n → x 0 i = laneAt a w i) ∧ (∀ j i, i < n / 2 ^ (j + 1) → x (j + 1) i = (z j i).1) ∧
          ∀ m, m < 6 → (fl.getLsbD m = true ↔ ∃ j i, i < n / 2 ^ (j + 1) ∧ (z j i).2.getLsbD m = true))) ∧
    ((Instr.vscan g).wellFormed = true → Fires s g.p t f → HasTok f 1 s.cur.2.2 (.s k) →
      (tyInt g.ty = true → ∃ y : Nat → Int, y 0 = codeInt sg w (k.toNat % 2 ^ w) ∧
        (∀ j, j < n → y (j + 1) = redStep g.imm8.toNat (y j) (laneInt sg a w j)) ∧
        res (.vscan g) fun r fl => LanesAre r fl w n fun j => intStored sg sat w (y (j + 1))) ∧
      (tyInt g.ty = false → ∃ x : Nat → Nat,
        let z := fun (j : Nat) => fop (redOp g.imm8.toNat) F rm v j (x j) (laneAt a w j) 0
        x 0 = k.toNat % 2 ^ w ∧ (∀ j, j < n → x (j + 1) = (z j).1) ∧
        res (.vscan g) fun r fl => LanesAre r fl w n z)) ∧
    ((Instr.vdot g).wellFormed = true → Fires s 0#2 t f → HasTok f 1 s.cur.2.2 (.v b) → HasTok f 2 s.cur.2.2 (.v c) →
      let m := 32 / w
      let sg2 := tySigned g.ty2
      let d := fun (F : Fmt) (x : Nat) => decodeF F (fcrDaz v.fcr) x
      let p := fun (j i : Nat) => mulX (d F (laneAt a w (m * j + i))) (d F (laneAt b w (m * j + i)))
      (tyInt g.ty = true → res (.vdot g) fun r fl => LanesAre r fl 32 16 fun j =>
        intStored sg2 sat 32 (laneInt sg2 c 32 j +
          ((List.range m).map fun i => laneInt sg a w (m * j + i) * laneInt sg b w (m * j + i)).sum)) ∧
      (tyInt g.ty = false → res (.vdot g) fun r fl => LanesAre r fl 32 16 fun j =>
        let x := sumX rm (d fmtF32 (laneAt c 32 j) :: (List.range m).map fun i => (p j i).1)
        finishF fmtF32 rm v j (x.1, (List.range m).foldl (fun fl i => fl ||| (p j i).2) x.2))) ∧
    ((Instr.vmxq g).wellFormed = true → Fires s g.p t f → HasTok f 1 s.cur.2.2 (.v b) →
      let e := fmtWidth F
      let x := fun (i : Nat) => decodeF fmtF32 false (laneAt (if i < 16 then a else b) 32 (i % 16))
      let sc := mxScale F (fcrMxsc v.fcr) ((List.range 32).map x)
      res (.vmxq g) fun r fl => laneAt r 8 63 = sc ∧ (∀ i, 32 * e ≤ i → i < 504 → r.getLsbD i = false) ∧
        (sc = 0xFF → fl = flagNV ∧ ∀ i, i < 504 → r.getLsbD i = false) ∧
        (sc ≠ 0xFF → LanesAre r fl e 32 fun i => roundF F rm true (v.rand i) (scaleX (127 - (sc : Int)) (x i)))) ∧
    ((Instr.vmxdq g).wellFormed = true → Fires s g.p t f →
      let sc := laneAt a 8 63
      let G := fmtOf g.ty2.toNat
      res (.vmxdq g) fun r fl => LanesAre r fl w n fun j =>
        let x := decodeF G false (laneAt a (fmtWidth G) ((if g.ty = 9#5 then 16 * g.imm8.toNat else 0) + j))
        let z := roundF F rm (fcrSatf v.fcr) (v.rand j) (scaleX ((sc : Int) - 127) x)
        if sc = 0xFF then (qnan F, sigF x) else (z.1, z.2 ||| sigF x))

/-! ### Memory instructions -/

/-- R258, R271, R197: a load, prefetch, line operation, store, scatter or atomic whose operands have arrived and that passes
the checks of R67 and R273 fires: its block tracks it under its LSID with the operands and the parts of its access, a store
or atomic makes later loads of its bytes take them (R279, R280), and the access starts on its way. -/
def Obligations.MemoryInstructionsFire : Prop :=
  ∀ (i : Instr) (nb nc : Bool) (l : Nat) (x : Acc) (s : State) (t : Thread) (f : Frame) (a b c : Tok),
    memForm i = some (nb, nc, l) → accOf i = some x → i.wellFormed = true → Fires s i.pred t f →
    Arrived f s.cur.2.2 (memTakes i nb nc) a b c → FreshOp f s.cur.2.2 l →
    let k := s.cur.1
    let q := s.cur.2.1
    let slot := s.cur.2.2
    let ps := mkParts (s.ctx t.ctx).pre i x (f.operand 0 slot) (f.operand 1 slot) (f.operand 2 slot)
    let o := newOp i f slot l ps
    let s1 := trackedAt s f o
    let s2 := if x.kind = 1 ∨ x.kind = 2 ∨ x.kind = 5 then storeFired s1 k q o x else s1
    misuse x ps = none → (x.kind = 2 → (effAddr i a.word).toNat % x.size = 0) →
    exec i s = .next (advance s2 k q slot none)

/-- R44, R258, R8, R16: the parts of an access that lies in one region are its bytes in order, each part inside one line, at
the virtual addresses that Expand gives to a + SignExtend(offset) and the bytes after it; an access that leaves its region
fails with cause 0x7. -/
def Obligations.AccessPartsCoverItsBytes : Prop :=
  ∀ (pre : Nat) (e : Word) (n : Nat) (d : List (Option Byte)), 0 < n → n ≤ 64 → d.length = n →
    (oneRegion e n = true →
      (partsAt pre e 0 n d).flatMap (fun p => (List.range p.len).map (p.va + ·)) =
        (List.range n).map (expand pre e + ·) ∧
      (partsAt pre e 0 n d).flatMap (·.data) = d ∧
      ∀ p ∈ partsAt pre e 0 n d, 0 < p.len ∧ p.va / 64 = (p.va + p.len - 1) / 64 ∧ p.va = expand pre e + p.off ∧
        p.st = .want ∧ p.data.length = p.len) ∧
    (oneRegion e n = false → ∃ p, partsAt pre e 0 n d = [p] ∧ p.st = .fail 7 0) ∧
    (e.toNat < 0xF * 2 ^ 60 → expand pre e = pre * 2 ^ 64 + e.toNat) ∧
    (0xF * 2 ^ 60 ≤ e.toNat → expand pre e = e.toNat / 2 ^ 56 * 2 ^ 72 + e.toNat % 2 ^ 56)

/-- R260, R279, R46: a relaxed load that nothing holds back, whose page is translated and whose line stands in an L1 of its
core, is performed when it fires: it sends the bytes of the line, with the bytes of older stores of its thread over them,
extended as its form says. The thread has no younger block and no later access of the block has fired. That a copy in the L1 of any grid
of the core serves the load is the model's reading (log 27). -/
def Obligations.LoadHitsTheL1 : Prop :=
  ∀ (i : Instr) (l : Nat) (x : Acc) (s : State) (t : Thread) (f : Frame) (a : Word) (p : Part) (pa cls0 : Nat) (d : Bool)
    (h : Nat) (y : L1Line),
    memForm i = some (false, false, l) → accOf i = some x → x.kind = 0 → x.fe = 0 → x.ord = 0 → i.wellFormed = true →
    Fires s i.pred t f → HasTok f 0 s.cur.2.2 (.s a) → t.frames = [f] →
    (∀ o ∈ f.ops, o.slot ≠ s.cur.2.2 ∧ ∀ l', o.lsid = some l' → l' < l) →
    let k := s.cur.1
    let slot := s.cur.2.2
    let ps := mkParts (s.ctx t.ctx).pre i x (f.operand 0 slot) (f.operand 1 slot) (f.operand 2 slot)
    let f1 := { f.fireAt slot with ops := f.ops ++ [newOp i f slot l ps] }
    let t1 := { t with frames := [f1] }
    let gs := coreGrids (gridOfThr k) f.width
    let cls := if x.cls = 0 then cls0 else x.cls
    ps = [p] → p.st = .want → acquireOk t1 f1 l = true → fencesDue f1 l = [] →
    atomicPending (opsBefore t1 f1 l) p = false →
    depWaits s (slotGrid (gridOfThr k) f.width slot) t1 f1 slot l = false →
    translate s t.ctx f.sup (some (slotGrid (gridOfThr k) f.width slot)) (cluOf k) 0 p.va = .ok pa cls0 0 d →
    cls ≠ 4 → lineHeld (trackedAt s f (newOp i f slot l ps)) k t1 f.seq (lineOf pa) (tracked cls 0) = false →
    coreLine s gs (lineOf pa) (cls = 1) = some (h, y) → y.data.length = 64 → y.poison = 0 → pa % 64 + p.len ≤ 64 →
    ∃ s' f', exec i s = .next s' ∧ s'.frame k f.seq = some f' ∧
      (f'.transit = (f.send i.targets (loadTok x.size x.sx ((List.range x.size).map fun j =>
        ((forwarded (opsBefore t1 f1 l) p).getD j none).getD (y.data.getD (pa % 64 + j) 0)))).transit) ∧
      s'.mem = s.mem

/-- R261, R118, R46: a relaxed store whose page may be written and whose line is ready is prepared when it fires: its block
tracks its bytes, the low bytes of operand b, and no byte of memory changes before its commit. -/
def Obligations.StoreIsPreparedWhenItFires : Prop :=
  ∀ (i : Instr) (l : Nat) (x : Acc) (s : State) (t : Thread) (f : Frame) (a : Word) (b : Tok) (p : Part) (pa cls0 : Nat),
    memForm i = some (true, false, l) → accOf i = some x → x.kind = 1 → x.fe = 0 → x.ord = 0 → i.wellFormed = true →
    Fires s i.pred t f → HasTok f 0 s.cur.2.2 (.s a) → HasTok f 1 s.cur.2.2 b → b ≠ .null → t.frames = [f] →
    (∀ o ∈ f.ops, o.slot ≠ s.cur.2.2 ∧ ∀ l', o.lsid = some l' → l' < l) →
    let k := s.cur.1
    let slot := s.cur.2.2
    let cls := if x.cls = 0 then cls0 else x.cls
    mkParts (s.ctx t.ctx).pre i x (f.operand 0 slot) b (f.operand 2 slot) = [p] → p.st = .want →
    translate s t.ctx f.sup (some (slotGrid (gridOfThr k) f.width slot)) (cluOf k) 1 p.va = .ok pa cls0 0 true →
    lineReady s (coreGrids (gridOfThr k) f.width) pa cls 0 = true →
    ∃ s' f' o', exec i s = .next s' ∧ s'.frame k f.seq = some f' ∧ f'.op slot = some o' ∧
      o'.parts = [{ p with pa := some pa, cls := cls, kind := 0, st := .got [] false }] ∧
      p.data = bytesOf b.vec x.size ∧ f'.transit = f.transit ∧ f'.toks = f.toks ∧ s'.mem = s.mem

/-- R67: the two codes of a full/empty-qualified load or store whose first byte is at `va`: 0x38 outside the regions 0xF0 and 0xF1,
else 0x39 unless it lies within one granule of 16 bytes or is a 64-byte access aligned to 64. Any other access has none. -/
def Clauses.QualifierCodes : Prop :=
  ∀ (x : Acc) (p : Part) (ps : List Part),
    let region := p.va / 2 ^ 72 % 256
    (x.fe = 0 ∨ 2 ≤ x.kind → misuse x (p :: ps) = none) ∧
    (x.fe ≠ 0 → x.kind < 2 →
      (region ≠ 0xF0 → region ≠ 0xF1 → misuse x (p :: ps) = some 0x38) ∧
      (region = 0xF0 ∨ region = 0xF1 →
        (p.va / 16 = (p.va + x.size - 1) / 16 ∨ x.size = 64 ∧ p.va % 64 = 0 → misuse x (p :: ps) = none) ∧
        (p.va / 16 ≠ (p.va + x.size - 1) / 16 → ¬(x.size = 64 ∧ p.va % 64 = 0) → misuse x (p :: ps) = some 0x39)))

/-- R67, R273: a full/empty-qualified access outside the vault regions (code 0x38) or of a wrong size or alignment (0x39), and
an atomic that is not naturally aligned (0x30), are not performed: their block holds the fault with the instruction's slot
and LSID, and nothing else changes. -/
def Clauses.MisusedAccessesLeaveTheirFault : Prop :=
  ∀ (i : Instr) (nb nc : Bool) (l : Nat) (x : Acc) (s : State) (t : Thread) (f : Frame) (a b c : Tok) (cls code : Nat),
    memForm i = some (nb, nc, l) → accOf i = some x → i.wellFormed = true → Fires s i.pred t f →
    Arrived f s.cur.2.2 (memTakes i nb nc) a b c → FreshOp f s.cur.2.2 l →
    let slot := s.cur.2.2
    let ps := mkParts (s.ctx t.ctx).pre i x (f.operand 0 slot) (f.operand 1 slot) (f.operand 2 slot)
    ((misuse x ps = some code ∧ cls = 0x07) ∨
      (misuse x ps = none ∧ x.kind = 2 ∧ (effAddr i a.word).toNat % x.size ≠ 0 ∧ cls = 0x06 ∧ code = 0x30)) →
    exec i s = .next (s.putFrame { f.fireAt slot with
      ops := f.ops ++ [{ newOp i f slot l [] with ans := some .null }]
      faults := f.faults ++ [⟨cls, BitVec.ofNat 64 (slot + 512 * code + 65536 * l), some l, slot⟩] })

/-- The statement of `Clauses.QualifierCodes`, `Clauses.MisusedAccessesLeaveTheirFault`: each part says with its rules what it covers. -/
def Obligations.MemoryOperandChecks : Prop := Clauses.QualifierCodes ∧ Clauses.MisusedAccessesLeaveTheirFault

/-- R274, R275, R277: FENCE fires when its block is mapped and BARA when its count arrives; each is tracked under its LSID and
acts at commit. BARW in the oldest block, which holds no arrival of its own, produces 0 at once without a recorded arrival, and 1
when the recorded episode has completed. -/
def Clauses.FencesAndBarriersFire : Prop :=
  ∀ (g : SyncF) (s : State) (t : Thread) (f : Frame), Fires s g.p t f → FreshOp f s.cur.2.2 g.lsid.toNat →
    exec (.fence g) s = .next (trackedAt s f (newOp (.fence g) f s.cur.2.2 g.lsid.toNat [])) ∧
    (∀ a : Word, HasTok f 0 s.cur.2.2 (.s a) →
      exec (.bara g) s = .next (trackedAt s f (newOp (.bara g) f s.cur.2.2 g.lsid.toNat []))) ∧
    (t.frames = [f] → f.ops = [] → f.below g.lsid.toNat (fun w _ => opc w == 0x41) = [] →
      (tget t.arrive (16 * g.scope.toNat + g.bid.toNat) = none →
        exec (.barw g) s = .next (firedWith s f (.barw g) (some g.lsid.toNat) (.s 0))) ∧
      (∀ e x, tget t.arrive (16 * g.scope.toNat + g.bid.toNat) = some e →
        tget (s.bar (barKey s s.cur.1 t g.scope.toNat g.bid.toNat)).past e = some x → s.thrs = [(s.cur.1, t)] →
        ∃ (s' : State) (f' : Frame), exec (.barw g) s = .next s' ∧ s'.frame s.cur.1 f.seq = some f' ∧
          f'.transit = (f.send [g.t0, g.t1] (.s 1)).transit ∧ s'.mem = s.mem ∧
          ∀ h ∈ acqGrids s.cur.1 t f, ∀ y ∈ (s'.grid h).l1, y.cls ≠ 1 → x.has y.line = false))

/-! ### Exits, traps, commit -/

/-- R199, R249, R256, R431: an exit fires when its operands have come: the block records it with its number, destination and
kind, and only the predictor of the core learns of it. BR and CALL go to the block address plus 128 × OFF20, BRI and RET to
operand a in the region of the block, SCALL and, in supervisor mode, ERET to the return address. The thread has no younger
block and no pack. -/
def Obligations.BranchesFireTheirExit : Prop :=
  ∀ (s : State) (t : Thread) (f : Frame), Solo s s.cur.1 t → (∀ y ∈ t.frames, y.seq ≤ f.seq) → f.exit = none →
    let out := fun (n : BitVec 3) (kind arg : Nat) (o : Host.Outcome State Fault Refusal) (dest : VAddr → Prop) =>
      ∃ (s' : State) (d : VAddr), o = .next s' ∧ dest d ∧
        Exited s s' { f.fireAt s.cur.2.2 with exit := some ⟨n.toNat, d, kind, arg⟩ }
    let rel := fun (off : BitVec 20) (d : VAddr) =>
      d.toNat = ((f.addr.toNat : Int) + 128 * off.toInt).emod (2 ^ 80)
    let reg := fun (a : Word) (d : VAddr) => d.toNat = f.addr.toNat / 2 ^ 64 * 2 ^ 64 + a.toNat
    let next := fun (d : VAddr) =>
      d.toNat = (f.addr.toNat + 128 * ((bits (wordAt f.hdr 0) 22 2).toNat + 2)) % 2 ^ 80
    (∀ g : BF, Fires s g.p t f →
      out g.ex 0 0 (exec (.br g) s) (rel g.off) ∧ out g.ex 1 0 (exec (.call g) s) (rel g.off) ∧
      out g.ex 3 g.off.toNat (exec (.scall g) s) next) ∧
    (∀ (g : BrF) (a : Word), Fires s g.p t f → HasTok f 0 s.cur.2.2 (.s a) →
      out g.ex 0 0 (exec (.bri g) s) (reg a) ∧ out g.ex 2 0 (exec (.ret g) s) (reg a)) ∧
    (∀ g : EretF, Fires s g.p t f → f.sup = true → out g.ex 4 0 (exec (.eret g) s) next)

/-- R199, R205: a second exit that fires in a block has no effect but the token collision of code 0x23, whose index is its
slot. -/
def Clauses.SecondExitCollides : Prop :=
  ∀ (s : State) (t : Thread) (f : Frame) (x : Exit), Solo s s.cur.1 t → f.exit = some x →
    let clash := s.putFrame { f.fireAt s.cur.2.2 with colls := f.colls ++ [(0x23, s.cur.2.2)] }
    (∀ g : BF, Fires s g.p t f →
      exec (.br g) s = .next clash ∧ exec (.call g) s = .next clash ∧ exec (.scall g) s = .next clash) ∧
    (∀ (g : BrF) (a : Word), Fires s g.p t f → HasTok f 0 s.cur.2.2 (.s a) →
      exec (.bri g) s = .next clash ∧ exec (.ret g) s = .next clash) ∧
    (∀ g : EretF, Fires s g.p t f → f.sup = true → exec (.eret g) s = .next clash)

/-- R166: an exit that goes elsewhere than the younger block was fetched from discards every younger block of the thread;
one that goes there keeps them. No byte of memory changes and no other thread loses a block. -/
def Clauses.ExitDiscardsTheWrongPath : Prop :=
  ∀ (g : BF) (s : State) (t : Thread) (f y : Frame) (ys : List Frame), Solo s s.cur.1 t → t.frames = f :: y :: ys →
    Fires s g.p t f → f.exit = none → (∀ z ∈ y :: ys, f.seq < z.seq ∧ y.seq ≤ z.seq) → HoldsNothing s s.cur.1 →
    ∃ (s' : State) (t' : Thread) (f' : Frame), exec (.br g) s = .next s' ∧ s'.thr s.cur.1 = some t' ∧ s'.mem = s.mem ∧
      (∀ j, j ≠ s.cur.1 → s'.thr j = s.thr j) ∧
      f'.exit.isSome = true ∧ t'.pc = t.pc ∧ t'.g = t.g ∧ t'.v = t.v ∧ t'.spec = t.spec ∧
      (f'.exit.map (·.dest) = some y.addr → t'.frames = f' :: y :: ys) ∧
      (f'.exit.map (·.dest) ≠ some y.addr → t'.frames = [f'])

/-- R430, R435, R253, R254: TRAP marks its block with class 0x11 and its code; PERFR in the oldest block produces its counter;
CALLI below `ftlen` starts the load of table entry a, and at or above it holds the signature fault of class 0x05. -/
def Obligations.TrapCountersAndTableCalls : Prop :=
  ∀ (s : State) (t : Thread) (f : Frame),
    (∀ g : TrapF, Fires s g.p t f →
      exec (.trap g) s = .next (s.putFrame { f.fireAt s.cur.2.2 with
        faults := f.faults ++ [⟨0x11, BitVec.ofNat 64 (g.code.toNat + 65536 * s.cur.2.2), none, s.cur.2.2⟩] })) ∧
    (∀ g : PerfrF, Fires s g.p t f → t.isOldest f.seq = true → FreshAt f s.cur.2.2 none →
      exec (.perfr g) s = .next (firedWith s f (.perfr g) none (.s ((tget t.perf g.sel.toNat).getD 0)))) ∧
    (∀ (g : CalliF) (a ft len : Word), Fires s g.p t f → HasTok f 0 s.cur.2.2 (.s a) →
      FreshOp f s.cur.2.2 g.lsid.toNat → t.regFor f.cyc f.seq 195 = some (.s ft) → t.regFor f.cyc f.seq 196 = some (.s len) →
      (len.toNat % 2 ^ 32 ≤ a.toNat →
        exec (.calli g) s = .next (s.putFrame { f.fireAt s.cur.2.2 with
          ops := f.ops ++ [{ Op.mk0 (.calli g) s.cur.2.2 (some g.lsid.toNat) (.s a) .null .null with ans := some .null }]
          faults := f.faults ++ [⟨0x05, BitVec.ofNat 64 (g.sig.toNat + 2 ^ 32 + 2 ^ 34 * s.cur.2.2), some g.lsid.toNat,
            s.cur.2.2⟩] })) ∧
      (a.toNat < len.toNat % 2 ^ 32 →
        exec (.calli g) s = .next (advance (trackedAt s f
          { Op.mk0 (.calli g) s.cur.2.2 (some g.lsid.toNat) (.s a) .null .null with
            parts := partsAt (s.ctx t.ctx).pre (ft + 16#64 * a) 0 16 (List.replicate 16 none) })
          s.cur.1 s.cur.2.1 s.cur.2.2 none)))

/-- R413, R416, R417: the event of a fault class, in a thread that stands alone and is not in a handler, discards the oldest
block and every younger one, writes `epc`, `ecause`, `efault` and `tstat`, and goes on at the trap entry; no other
register, no other thread and no memory changes. -/
def Clauses.FaultOfOldestBlockTraps : Prop :=
  ∀ (i : Instr) (k : Nat) (cs : List Nat) (cls : Nat) (e : Word) (s : State) (t : Thread) (f : Frame),
    faultClasses i = some (k, cs) → cls ∈ cs → cls ≠ 0x01 → Solo s k t → t.spec.tstat.getLsbD 2 = false →
    raises s k = some (t, f, cls, e) → (∀ y ∈ t.frames, f.seq ≤ y.seq) → HoldsNothing s k →
    ∃ s', exec i s = .next s' ∧ Trapped s s' k t cls e f.addr ∧ s'.mem = s.mem ∧ ∀ j, j ≠ k → s'.thr j = s.thr j

/-- R204, R205, R255, R305, R348, R362, R379, R406, R413, R416, R429, R430: the event of each fault class takes the trap of its own
class when the thread's only block holds one fault of that class, or one token collision, or was refused, and nothing of the
block can move any more. The thread stands alone, outside a handler. -/
def Clauses.EachFaultEventTraps : Prop :=
  ∀ (k : Nat) (s : State) (t : Thread) (f : Frame) (e : Word), Solo s k t → t.frames = [f] → f.stage = 1 → f.fails = [] →
    f.ops = [] → f.still = true → t.spec.tstat.getLsbD 2 = false → HoldsNothing s k →
    let traps := fun (i : Instr) (cls : Nat) (e : Word) =>
      ∃ s', exec i s = .next s' ∧ Trapped s s' k t cls e f.addr ∧ s'.mem = s.mem ∧ ∀ j, j ≠ k → s'.thr j = s.thr j
    let holds := fun (i : Instr) (cls : Nat) => f.refused = none → f.colls = [] → (∃ l n, f.faults = [⟨cls, e, l, n⟩]) → traps i cls e
    (f.refused = some e → field e.toNat 15 9 ≠ 0 → traps (.refusedBlock k) 0x02 e) ∧
    (f.refused = some e → field e.toNat 15 9 = 0 → traps (.refusedBlock k) 0x03 e) ∧
    (∀ c i, f.refused = none → f.colls = [(c, i)] → traps (.tokenCollision k) 0x04 (BitVec.ofNat 64 (i + 512 * c))) ∧
    holds (.signatureFault k) 0x05 ∧ holds (.memoryOperandFault k) 0x06 ∧ holds (.fullEmptyMisuse k) 0x07 ∧
    holds (.dataError k) 0x08 ∧ holds (.matrixFault k) 0x09 ∧ holds (.portFault k) 0x0A ∧ holds (.lookupFault k) 0x0B ∧
    holds (.streamFault k) 0x0C ∧ holds (.threadStateFault k) 0x0D ∧ holds (.clusterMapFault k) 0x0E ∧
    holds (.trapInstruction k) 0x11 ∧ holds (.privilegedInstruction k) 0x12

/-- R38, R39, R413: a translation fault of the oldest block writes its record at the base of the context's fault area and
traps with class 0x01 and the number of entries; no other byte of memory changes when no cache and no holder beyond the
package has the area's lines. -/
def Obligations.TranslationFaultWritesItsRecord : Prop :=
  ∀ (k : Nat) (e : Word) (s : State) (t : Thread) (f : Frame), Solo s k t → t.spec.tstat.getLsbD 2 = false →
    raises s k = some (t, f, 0x01, e) → (∀ y ∈ t.frames, f.seq ≤ y.seq) → HoldsNothing s k → s.thrs = [(k, t)] → s.net = [] →
    NothingHeld s →
    let area := (s.ctx t.ctx).word 2 / 2 ^ 14 * 2 ^ 14 % 2 ^ 56
    let es := f.record
    paPkg area = s.mod.pkg → (∀ g n, area / 64 ≤ n → n ≤ (area + 64 + 16 * es.length) / 64 → (s.grid g).line n = none) →
    (∀ d, (s.die d).filter = []) → Memory.wf s.mem = true →
    ∃ s', exec (.translationFault k) s = .next s' ∧ Trapped s s' k t 0x01 (BitVec.ofNat 64 es.length) f.addr ∧
      mread s'.mem area 8 = leBytes 8 (f.addr.toNat % 2 ^ 64) ∧
      mread s'.mem (area + 8) 8 = leBytes 8 (f.addr.toNat / 2 ^ 64) ∧
      mread s'.mem (area + 0x10) 8 = leBytes 8 (es.length + 2 ^ 10 * t.ctx + 2 ^ 22 * (s.ctx t.ctx).gen) ∧
      mread s'.mem (area + 0x18) 8 = leBytes 8 (s.cycThr k).toNat ∧
      (∀ (n : Nat) (x : XFail), es[n]? = some x →
        mread s'.mem (area + 0x40 + 16 * n) 8 = leBytes 8 x.page ∧
        mread s'.mem (area + 0x48 + 16 * n) 8 = leBytes 8 (x.cause + 16 * x.kind + 128 * x.lsid + 4096 * x.level)) ∧
      ∀ a, a < area ∨ area + 0x40 + 16 * es.length ≤ a → mget s'.mem a = mget s.mem a

/-- R181, R420, R413: a running thread whose leash has run out while its oldest block holds no fault that is raised takes the
Leash trap: class 0x0F at the oldest block, or at its next block address when none is in flight; the trap is counted, and
a handler no longer counts toward its pattern. `efault` names something that the block waits on, or 0, not known; which of them the
hardware last saw is a free value (R415, log 10). That the leash has run out when the count equals the limit is the model's reading
(log 52). -/
def Clauses.LeashRunsOut : Prop :=
  ∀ (k : Nat) (s : State) (t : Thread), Solo s k t → t.run = true → t.stop = false → t.spec.tstat.getLsbD 2 = false →
    max t.spec.leash.toNat 1024 ≤ (s.cycThr k - t.leash0).toNat → (∀ f ∈ t.frames, f.stage ≠ 2) →
    raises s k = none → HoldsNothing s k → (∀ f, t.oldest = some f → ∀ y ∈ t.frames, f.seq ≤ y.seq) →
    ∃ (s' : State) (e : Word), exec (.leashTrap k) s = .next s' ∧ (e = 0 ∨ ∃ n ∈ waitsOn s k t, e = BitVec.ofNat 64 n) ∧
      Trapped s s' k { t.count 7 1 with pat := none } 0x0F e (t.oldest.elim t.pc (·.addr)) ∧ s'.mem = s.mem ∧
      ∀ j, j ≠ k → s'.thr j = s.thr j

/-- R418, R428: a fault of any class, a leash that runs out, or a system call that commits without writing `tstat`, while
EXL is one, is a double fault: the trap is not taken, the context is killed with reason 0xFE, and every thread of it ends. None of
them has a block that the arbiter has granted: the kill lets such a block end first (R117). -/
def Obligations.DoubleFaultKillsTheContext : Prop :=
  ∀ (i : Instr) (k : Nat) (cs : List Nat) (cls : Nat) (e : Word) (s : State) (t : Thread) (f : Frame) (x : Exit),
    t.spec.tstat.getLsbD 2 = true → tabWf s.thrs = true → s.thr k = some t → NoneCommits s t.ctx →
    ((faultClasses i = some (k, cs) ∧ cls ∈ cs ∧ raises s k = some (t, f, cls, e)) ∨
      (i = .leashTrap k ∧ leashOut s k t = true ∧ t.stop = false ∧ (∀ f ∈ t.frames, f.stage ≠ 2) ∧ raises s k = none) ∨
      (i = .commitRequest k ∧ ReadyPlain s k t f x ∧ x.kind = 3 ∧ ∀ e, (e, 204) ∉ wrEntries f.hdr)) →
    ∃ s', exec i s = .next s' ∧ Killed s s' t.ctx 0xFE

/-- R164, R186, R222, R250 to R252: a block that may commit leaves its thread's next block at its exit's destination, its
general and vector registers as its write entries say, `fcr` with its flags added when it does not write it, g3 the return
address after a CALL, and dead and zero every register of the `conv` groups after a CALL or RET and of the groups a
`dmask` write names. Memory and the other threads do not change. -/
def Obligations.CommitLeavesTheRegisters : Prop :=
  ∀ (k : Nat) (s : State) (t : Thread) (f : Frame) (x : Exit), ReadyPlain s k t f x → x.kind < 3 →
    ∃ (s' : State) (t' : Thread), exec (.commitRequest k) s = .next s' ∧ s'.thr k = some t' ∧ s'.mem = s.mem ∧
      (∀ j, j ≠ k → s'.thr j = s.thr j) ∧ t'.frames = [] ∧ t'.pc = x.dest ∧ t'.leash0 = s.cycThr k ∧
      let dead := fun r => (x.kind ≠ 0 ∧ groupOf t.spec.conv r) ∨
        ∃ (e : Nat) (m : Tok), (e, 194) ∈ wrEntries f.hdr ∧ f.wrTok e = some m ∧ m ≠ .null ∧ groupOf m.word r
      (∀ r, r < 192 → dead r → regCommitted t' 0 r = if r < 128 then .s 0 else .v 0) ∧
      (∀ r, 0 < r → r < 192 → ¬dead r → ¬(r = 3 ∧ x.kind = 1) → writtenVal t f r (regCommitted t' 0 r)) ∧
      (x.kind = 1 → regCommitted t' 0 3 = .s (f.retAddr.setWidth 64)) ∧
      ((∀ e, (e, 192) ∉ wrEntries f.hdr) → t'.spec.fcr = t.spec.fcr ||| f.flags.setWidth 64 <<< 16)

/-- R256, R413, R431: a block that may commit by SCALL commits and takes trap 0x10, whose `efault` is the number and whose
return address is the block after it; by ERET it commits and goes on at EPCHI and `epc` with SUP from PSUP and EXL zero.
The block writes no special register. -/
def Obligations.SystemCallAndReturnAtCommit : Prop :=
  ∀ (k : Nat) (s : State) (t : Thread) (f : Frame) (x : Exit), ReadyPlain s k t f x → wrEntries f.hdr = [] → f.flags = 0 →
    (x.kind = 3 → t.spec.tstat.getLsbD 2 = false →
      ∃ (s' : State) (t' : Thread), exec (.commitRequest k) s = .next s' ∧ s'.thr k = some t' ∧ s'.mem = s.mem ∧
        t'.frames = [] ∧ t'.g = t.g ∧ t'.v = t.v ∧ t'.spec.epc = f.retAddr.setWidth 64 ∧ t'.spec.ecause = 0x10 ∧
        t'.spec.efault = BitVec.ofNat 64 x.arg ∧ trapStatus t.spec.tstat f.retAddr t'.spec.tstat ∧
        t'.pc.toNat = (s.ctx t.ctx).pre * 2 ^ 64 + (s.ctx t.ctx).word 9 / 128 * 128) ∧
    (x.kind = 4 →
      ∃ (s' : State) (t' : Thread), exec (.commitRequest k) s = .next s' ∧ s'.thr k = some t' ∧ s'.mem = s.mem ∧
        t'.frames = [] ∧ t'.g = t.g ∧ t'.v = t.v ∧
        t'.pc.toNat = (bits t.spec.tstat 16 16).toNat * 2 ^ 64 + t.spec.epc.toNat ∧
        t'.spec = { t.spec with tstat := t'.spec.tstat } ∧ t'.spec.tstat.getLsbD 0 = t.spec.tstat.getLsbD 1 ∧
        t'.spec.tstat.getLsbD 2 = false ∧ ∀ j, j ≠ 0 → j ≠ 2 → t'.spec.tstat.getLsbD j = t.spec.tstat.getLsbD j)

/-- R108, R429, R432 to R434: TLBINV, CTXKILL and SRW in a supervisor block fire and pass their check, an SRW entering its address in
both signatures; SRR waits as a device access; in any other block each of the five supervisor forms performs nothing and holds class 0x12, code 0x16, and a SRW or
SRR whose address is not a multiple of 8 below 2^56 holds class 0x06, code 0x32. -/
def Clauses.SupervisorForms : Prop :=
  ∀ (s : State) (t : Thread) (f : Frame) (a b : Word),
    HasTok f 0 s.cur.2.2 (.s a) → HasTok f 1 s.cur.2.2 (.s b) → t.frames = [f] →
    let n := s.cur.2.2
    let bad := fun (i : Instr) (l : Nat) (cls code : Nat) => firedBad s f i (some l) cls (n + 512 * code + 65536 * l)
    let wrong := a.toNat % 8 ≠ 0 ∨ 2 ^ 56 ≤ a.toNat
    (∀ g : TlbinvF, Fires s g.p t f → FreshAt f n (some g.lsid.toNat) →
      (f.sup = true → exec (.tlbinv g) s = .next (firedOk s f (.tlbinv g) (some g.lsid.toNat))) ∧
      (f.sup = false → exec (.tlbinv g) s = .next (bad (.tlbinv g) g.lsid.toNat 0x12 0x16))) ∧
    (∀ g : LsF, Fires s g.p t f → FreshAt f n (some g.lsid.toNat) →
      (f.sup = true → exec (.ctxkill g) s = .next (firedOk s f (.ctxkill g) (some g.lsid.toNat)) ∧
        (¬wrong → ∃ (s' : State) (f' : Frame), exec (.srw g) s = .next s' ∧ s'.frame s.cur.1 f.seq = some f' ∧
          f'.op n = some { Op.mk0 (.srw g) n (some g.lsid.toNat) (.s a) (.s b) (f.operand 2 n) with ans := some .null, stage := 1 } ∧
          f'.transit = f.transit ∧ f'.faults = f.faults ∧ f'.rsig.has (a.toNat / 64) = true ∧ f'.wsig.has (a.toNat / 64) = true ∧
          s'.mem = s.mem) ∧
        (wrong → exec (.srw g) s = .next (bad (.srw g) g.lsid.toNat 0x06 0x32))) ∧
      (f.sup = false → exec (.ctxkill g) s = .next (bad (.ctxkill g) g.lsid.toNat 0x12 0x16) ∧
        exec (.srw g) s = .next (bad (.srw g) g.lsid.toNat 0x12 0x16))) ∧
    (∀ g : RsF, Fires s g.p t f → FreshAt f n (some g.lsid.toNat) →
      (f.sup = true → ¬wrong →
        exec (.srr g) s = .next (trackedAt s f (newOp (.srr g) f n g.lsid.toNat []))) ∧
      (f.sup = true → wrong → exec (.srr g) s = .next (bad (.srr g) g.lsid.toNat 0x06 0x32)) ∧
      (f.sup = false → exec (.srr g) s = .next (bad (.srr g) g.lsid.toNat 0x12 0x16))) ∧
    (∀ g : EretF, Fires s g.p t f → f.sup = false →
      exec (.eret g) s = .next (s.putFrame { f.fireAt n with
        faults := f.faults ++ [⟨0x12, BitVec.ofNat 64 (n + 512 * 0x16), none, n⟩] }))

/-- R432, R441, R442: an SRR of the oldest block that waits for nothing reads its register in its turn: zero outside the
system address kind, and of its own package the identity registers, zero for what does not respond; where the descriptor's words
stand is open (log 47). Nothing else of the
machine changes but its block and the arbiter's lock. -/
def Clauses.SystemRegisterRead : Prop :=
  ∀ (g : RsF) (s : State) (k : Nat) (t : Thread) (f : Frame) (o : Op) (a : Word),
    s.thr k = some t → t.frames = [f] → f.stage = 1 → f.ops = [o] → o.i = .srr g → o.lsid = some g.lsid.toNat →
    o.a = .s a → o.nul = false → o.ans = none → o.parts = [] → f.below g.lsid.toNat (fun _ _ => true) = [] →
    (s.clu (cluOf k)).lock = none → s.net = [] →
    ∃ (s' : State) (f' : Frame) (r : Word), exec (.deviceAccess k f.seq o.slot) s = .next s' ∧
      s'.frame k f.seq = some f' ∧ f'.transit = (f.send [g.t0, g.t1] (.s r)).transit ∧ s'.mem = s.mem ∧
      (s'.clu (cluOf k)).lock = some (k, f.seq) ∧
      let off := a.toNat % 2 ^ 48
      let mine := a.toNat / 2 ^ 50 % 64 = s.mod.pkg
      (a.toNat / 2 ^ 48 % 4 ≠ 3 → r = 0) ∧
      (a.toNat / 2 ^ 48 % 4 = 3 → mine →
        (off = 0x000 → r = 0x00082D57) ∧ (off = 0x008 → r = 0x00014100) ∧
        (off = 0x100 → r = BitVec.ofNat 64 s.mod.lock) ∧
        ((∀ i, i < 13 → Config.descOffset i ≠ off) → 0x108 ≤ off → off < 0x10000 → r = 0))

/-- R352, R410, R344, R434, R433, R32, R351, R330, R391, R167, R306: a block that may commit and holds a TEND or HEND ends its thread,
also lowering the running count of the pattern entry that fired it; one that holds a CTXKILL kills its context with reason
a[7:0], at most 0xEF; one that holds a TLBINV leaves within its scope, of its context, no translation (MODE 00) or none whose page
holds the address (MODE 01) in the micro-TLBs, cluster TLBs and shared TLBs, and no walk-cache entry and no walk; a PATCLR
disables its pattern and a PORTCFG gives its port its fields; an STCLOSE closes its entry; an MREL gives up its name and an
MSHAPE shapes it; a COMPOSE or DECOMP gives its thread the width it produced. -/
def Obligations.SystemFormsAtCommit : Prop :=
  ∀ (k l : Nat) (s : State) (t : Thread) (f : Frame) (x : Exit) (o : Op), Solo s k t → t.frames = [f] → f.ops = [o] →
    o.nul = false → o.lsid = some l → l < 32 → commitReady s k t f = true → f.exit = some x → x.kind = 0 → f.s0 = none →
    (s.clu (cluOf k)).lock = none → HoldsNothing s k → wrEntries f.hdr = [] → o.stage = 1 → tabWf s.thrs = true → (s.ctx t.ctx).dying = none →
    tabWf (s.clu (cluOf k)).pats = true →
    ∃ s', exec (.commitRequest k) s = .next s' ∧
      (∀ g, o.i = .tend g ∨ o.i = .hend g →
        s'.thr k = none ∧ (∀ j, j ≠ k → s'.thr j = s.thr j) ∧ s'.mem = s.mem ∧
        ∀ p y, t.pat = some (p, y.serial) → tget (s.clu (cluOf k)).pats p = some y →
          tget (s'.clu (cluOf k)).pats p = some { y with running := y.running - 1 }) ∧
      (∀ g, o.i = .ctxkill g → NoneCommits s t.ctx → Killed s s' t.ctx (min (o.a.word.toNat % 256) 0xEF)) ∧
      (∀ g, o.i = .tlbinv g → g.mode = 0#2 ∨ g.mode = 1#2 →
        let wide := g.scope = 4#3 ∨ g.scope = 5#3
        let left := fun (l : List Trans) =>
          ∀ e ∈ l, ¬InvalidatedBy g.mode t.ctx (expand (s.ctx t.ctx).pre o.a.word) e
        (∀ c, wide ∨ (g.scope = 3#3 ∧ c / 80 = cluOf k / 80) ∨ (g.scope = 2#3 ∧ c = cluOf k) →
          left (s'.clu c).tlb ∧ ∀ j, j < 8 → left (s'.grid (8 * c + j)).utlb) ∧
        ∀ d, wide ∨ ((g.scope = 3#3 ∨ g.scope = 2#3) ∧ d = cluOf k / 80) →
          left (s'.die d).stlb ∧ (∀ e ∈ (s'.die d).wcache, e.1.1 ≠ t.ctx) ∧ ∀ w ∈ (s'.die d).walks, w.2.ctx ≠ t.ctx) ∧
      (∀ g, o.i = .patclr g → (s'.clu (cluOf k)).pat (o.a.word.toNat % 32) =
        { (s.clu (cluOf k)).pat (o.a.word.toNat % 32) with en := false }) ∧
      (∀ g, o.i = .portcfg g →
        let p := (s'.clu (cluOf k)).port (o.a.word.toNat % 64)
        let b := o.b.word
        p.en = b.getLsbD 0 ∧ p.open_ = b.getLsbD 1 ∧ p.pol = b.toNat / 4 % 4 ∧ p.klim = b.toNat / 2 ^ 16 % 2 ^ 11) ∧
      (∀ g e, o.i = .stclose g → tget (s.clu (cluOf k)).stab (o.a.word.toNat % 16) = some e → e.ctx = t.ctx →
        tget (s'.clu (cluOf k)).stab (o.a.word.toNat % 16) = some { e with st := 2 }) ∧
      (∀ g, o.i = .mrel g → (slotAt (s'.ctx t.ctx).names t.lclu (o.a.word.toNat % 64)).claimed = false) ∧
      (∀ g, o.i = .mshape g → slotAt (s'.ctx t.ctx).names t.lclu (o.a.word.toNat % 64) =
        { slotAt (s.ctx t.ctx).names t.lclu (o.a.word.toNat % 64) with
          shaped := true, rows := g.rowsm1.toNat + 1, cols := g.colsm1.toNat + 1, fmt := g.fmt.toNat }) ∧
      (∀ g w, o.i = .compose g ∨ o.i = .decomp g → o.ans = some (.s w) → w ≠ 0 →
        ∃ t', s'.thr k = some t' ∧ t'.width = w.toNat ∧ t'.frames = [])

/-- R99, R100, R275: when the drain of a committing block's release has ended, the block's last instruction, a releasing fence,
takes the pending signatures of its core into the thread's fence signature, clears them, and the commit ends. -/
def Clauses.ReleaseDrainEndsTheFence : Prop :=
  ∀ (g : SyncF) (k : Nat) (s : State) (t : Thread) (f : Frame) (x : Exit) (o : Op), Solo s k t → t.frames = [f] →
    f.stage = 2 → t.post = .release → drainDue s k (acqGrids k t f) = false → f.ops = [o] → o.i = .fence g → o.nul = false → o.stage = 0 →
    o.lsid = some g.lsid.toNat → g.ord = 2#2 → g.scope ≠ 0#3 → f.exit = some x → x.kind = 0 → HoldsNothing s k → (s.ctx t.ctx).dying = none →
    ∃ (s' : State) (t' : Thread), exec (.releaseDrainEnd k) s = .next s' ∧ s'.thr k = some t' ∧ t'.frames = [] ∧
      t'.pc = x.dest ∧
      (∀ h ∈ acqGrids k t f, (s'.grid h).pend = Sig.empty) ∧
      t'.fence = some ((Sig.ors ((acqGrids k t f).map fun h => (s.grid h).pend)).or
        (t.fence.getD Sig.empty)) ∧
      t'.fenceScope = max t.fenceScope g.scope.toNat

/-! ### The matrix engine -/

/-- R299 to R302, R305, R306: the codes of the matrix checks, in the order in which a row, a shape or a job is found to fail them, for an
instruction on one slot of which no earlier instruction of the block claims, shapes or writes any. That order within one instruction
is the model's choice (log 80). -/
def Clauses.MatrixCheckCodes : Prop :=
  ∀ (s : State) (k l : Nat) (t : Thread) (f : Frame) (o : Op), f.ops = [o] → o.lsid = some l →
    let h := o.a.word.toNat
    let x := slotAt (s.ctx t.ctx).names t.lclu (h % 64)
    let live := h ≠ 0 ∧ h < 65536 ∧ h / 64 % 2 = 0 ∧ x.claimed = true ∧ h / 256 = x.ser ∧ (x.pair = true ↔ h / 128 % 2 = 1) ∧
      (x.pair = true → h % 2 = 0)
    let code := fun (c : Nat) => matrixCheck s k t f o = .error (c, h)
    let ok := matrixCheck s k t f o = .ok [(h % 64, x)]
    let rows := fun (r : Nat) => (¬live → code 0x40) ∧ (live → x.shaped = false → code 0x41) ∧
      (live → x.shaped = true → x.rows ≤ r → code 0x43) ∧ (live → x.shaped = true → r < x.rows → ok)
    (∀ g, o.i = .mload g → rows (g.row0.toNat + g.nrowm1.toNat)) ∧
    (∀ g, o.i = .mstore g → rows (g.row0.toNat + g.nrowm1.toNat)) ∧
    (∀ g, o.i = .mrow g ∨ o.i = .mrowr g → (64 * g.seg.toNat < x.rowBytes → rows g.row.toNat) ∧
      (live → x.shaped = true → x.rowBytes ≤ 64 * g.seg.toNat → code 0x43)) ∧
    (∀ g, o.i = .mcol g ∨ o.i = .mcolw g →
      let w := elemBits x.fmt
      (¬live → code 0x40) ∧ (live → x.shaped = false → code 0x41) ∧
      (live → x.shaped = true → x.fmt = 0x12 ∨ w ≠ 8 ∧ w ≠ 16 ∧ w ≠ 32 → code 0x42) ∧
      (live → x.shaped = true → x.fmt ≠ 0x12 → w = 8 ∨ w = 16 ∨ w = 32 →
        (x.rows ≤ g.row0.toNat ∨ x.cols ≤ g.col.toNat → code 0x43) ∧ (g.row0.toNat < x.rows → g.col.toNat < x.cols → ok))) ∧
    (∀ g g', o.i = .mrel g ∨ o.i = .mzero g' → (¬live → code 0x40) ∧ (live → ok)) ∧
    (∀ g, o.i = .mshape g →
      let n := (g.colsm1.toNat + 1) * elemBits g.fmt.toNat
      let good := n % 8 = 0 ∧ n ≤ (if x.pair then 4096 else 2048) ∧ (g.fmt.toNat = 0x12 → (g.colsm1.toNat + 1) % 64 = 0)
      (¬live → code 0x40) ∧ (live → ¬good → code 0x46) ∧ (live → good → (s.clu (cluOf k)).jobs = [] → ok))

/-- R320 to R322: the codes for the formats, shapes and roles of the compute forms: `d`, `a` and `b` are the slots of D, A and B. -/
def Clauses.ComputeFormCodes : Prop :=
  ∀ (o : Op) (d a b : SlotName), let nm := fun (j : Nat) => (handles o).1.getD j 0 % 64
    (∀ g, o.i = .mma g →
      let fp8 := fun (y : Nat) => y = 0x0C ∨ y = 0x0D ∨ y = 0x0E ∨ y = 0x0F
      let kmax := fun (n : Nat) =>
        (n = 128 ∧ (a.fmt = 0x0A ∨ a.fmt = 0x0B) ∧ b.fmt = a.fmt ∧ d.fmt = 9) ∨ (n = 256 ∧ fp8 a.fmt ∧ fp8 b.fmt ∧ d.fmt = 9) ∨
        (n = 512 ∧ a.fmt = 0x10 ∧ b.fmt = 0x10 ∧ d.fmt = 9) ∨ (n = 256 ∧ a.fmt = 0 ∧ b.fmt = 0 ∧ d.fmt = 2) ∨
        (n = 256 ∧ a.fmt = 0x12 ∧ g.pl ≠ 0 ∧ (b.fmt = 0 ∨ b.fmt = 0x12) ∧ d.fmt = 2)
      let suits := ∃ n, kmax n ∧ a.cols = b.cols ∧ a.cols % 32 = 0 ∧ a.cols ≤ n ∧ d.rows = a.rows ∧ d.cols = b.rows
      (¬suits → ∃ j, formCheck o [d, a, b] = some (0x42, j)) ∧
      (suits → (nm 0 = nm 1 ∨ nm 0 = nm 2) → formCheck o [d, a, b] = some (0x44, 0)) ∧
      (suits → nm 0 ≠ nm 1 → nm 0 ≠ nm 2 → formCheck o [d, a, b] = none)) ∧
    (∀ g, o.i = .maccr g →
      let suits := ((a.fmt = 9 ∧ d.fmt ∈ [9, 0x0A, 0x0B, 0x0C, 0x0D]) ∨ (a.fmt = 2 ∧ d.fmt ∈ [2, 0, 1, 9])) ∧
        a.rows = d.rows ∧ a.cols = d.cols
      (¬suits → formCheck o [d, a] = some (0x42, 1)) ∧ (suits → nm 0 = nm 1 → formCheck o [d, a] = some (0x44, 0)) ∧
      (suits → nm 0 ≠ nm 1 → formCheck o [d, a] = none)) ∧
    (∀ g h, o.i = .mscan g →
      let in_ := fun (y : SlotName) => (y.fmt = 9 ∨ y.fmt = 0x0A) ∧ y.rows = d.rows ∧ y.cols = d.cols
      let suits := d.fmt = 9 ∧ in_ a ∧ in_ b ∧ h.fmt = 9 ∧ h.cols = d.cols
      (¬suits → ∃ j, formCheck o [d, a, b, h] = some (0x42, j)) ∧
      (suits → h.rows ≤ g.hrow.toNat → formCheck o [d, a, b, h] = some (0x43, 3)) ∧
      (suits → g.hrow.toNat < h.rows → (nm 3 = nm 0 ∨ nm 3 = nm 1 ∨ nm 3 = nm 2) →
        formCheck o [d, a, b, h] = some (0x44, 3)) ∧
      (suits → g.hrow.toNat < h.rows → nm 3 ≠ nm 0 → nm 3 ≠ nm 1 → nm 3 ≠ nm 2 → formCheck o [d, a, b, h] = none))

/-- R303, R305, R306, R313: a matrix instruction of the oldest block whose turn has come passes the check of R306 and then
produces its job id, the count of the thread's jobs modulo 256, or nothing, and the queue entries that its block waits for are
reserved (R312); when the check fails its block holds class 0x09 with slot, code, LSID and handle, and it produces nothing. -/
def Clauses.MatrixFormsFire : Prop :=
  ∀ (i : Instr) (nb nc : Bool) (l : Nat) (s : State) (t : Thread) (f : Frame) (a b c : Tok),
    matrixForm i = some (nb, nc, l) → Fires s i.pred t f → Arrived f s.cur.2.2 (memTakes i nb nc) a b c →
    FreshAt f s.cur.2.2 (some l) → t.isOldest f.seq = true →
    let o := firedOp s f i l
    let f1 := firedFrame s f o
    f1.turn o = true →
    (∀ xs, matrixCheck s s.cur.1 t f1 o = .ok xs →
      exec i s = .next (reserveAll (if isJob i then
          firedWith s f i (some l) (.s (BitVec.ofNat 64 ((t.cnts.1 + issuedBelow f l isJob) % 256)))
        else firedOk s f i (some l)) (cluOf s.cur.1))) ∧
    (∀ code h, matrixCheck s s.cur.1 t f1 o = .error (code, h) →
      exec i s = .next (firedBad s f i (some l) 0x09 (s.cur.2.2 + 512 * code + 65536 * l + 2 ^ 21 * (h % 65536))))

/-- The statement of `Clauses.MatrixCheckCodes`, `Clauses.ComputeFormCodes`, `Clauses.MatrixFormsFire`: each part says with its rules what it
covers. -/
def Obligations.MatrixInstructionsFire : Prop :=
  Clauses.MatrixCheckCodes ∧ Clauses.ComputeFormCodes ∧ Clauses.MatrixFormsFire

/-- R300, R307, R312: an MCLAIM in the oldest block, its turn come, takes the lowest free name and a free physical slot of the
cluster and produces the name's handle with the next serial; with no free name it produces 0, and queue entries that its block waits
for are reserved. That the free physical slot is the lowest is the model's choice (log 127). -/
def Clauses.MclaimTakesTheLowestFreeName : Prop :=
  ∀ (g : ClaimF) (s : State) (t : Thread) (f : Frame), Fires s g.p t f → f.ops = [] → t.isOldest f.seq = true →
    g.pair = 0#1 →
    let o := firedOp s f (.mclaim g) g.lsid.toNat
    (firedFrame s f o).turn o = true →
    let tab := (s.ctx t.ctx).names
    let clu := cluOf s.cur.1
    ((∀ m, m < 64 → (slotAt tab t.lclu m).claimed = true) →
      exec (.mclaim g) s = .next (reserveAll (firedWith s f (.mclaim g) (some g.lsid.toNat) (.s 0)) clu)) ∧
    (∀ n p, n < 64 → (slotAt tab t.lclu n).claimed = false → (∀ m, m < n → (slotAt tab t.lclu m).claimed = true) →
      p < 64 → ((s.clu clu).slot p).owner = none → (s.clu clu).saving = [] →
      (∀ q, q < p → ((s.clu clu).slot q).owner ≠ none) →
      ∃ (s' : State) (f' : Frame) (h : Word), exec (.mclaim g) s = .next s' ∧ s'.frame s.cur.1 f.seq = some f' ∧
        f'.transit = (f.send [g.t0, g.t1] (.s h)).transit ∧
        h.toNat = n + 256 * (if (slotAt tab t.lclu n).ser = 255 then 1 else (slotAt tab t.lclu n).ser + 1) ∧
        ((s'.clu clu).slot p).owner = some (t.ctx, t.lclu, n) ∧ s'.mem = s.mem ∧ s'.opmem = s.opmem ∧
        (s'.ctx t.ctx).names = tab)

/-- R310, R311, R317: MROWR and MCOL of the oldest block, having passed the check, take their place at the end of the
cluster's moves and produce nothing yet. -/
def Clauses.MatrixReadsTakeTheirPlace : Prop :=
  ∀ (s : State) (t : Thread) (f : Frame) (a : Word), HasTok f 0 s.cur.2.2 (.s a) → t.isOldest f.seq = true →
    let out := fun (i : Instr) (l : Nat) => ∀ xs,
      (firedFrame s f (firedOp s f i l)).turn (firedOp s f i l) = true →
      matrixCheck s s.cur.1 t (firedFrame s f (firedOp s f i l)) (firedOp s f i l) = .ok xs →
      ∃ (s' : State) (j : MJob), exec i s = .next s' ∧
        (s'.clu (cluOf s.cur.1)).moves = (s.clu (cluOf s.cur.1)).moves ++ [j] ∧ j.i = i ∧ j.shapes = xs ∧
        j.cap.thr = s.cur.1 ∧ j.seq = f.seq ∧ j.cap.slot = s.cur.2.2 ∧ j.place = (s.clu (cluOf s.cur.1)).place ∧
        s'.frame s.cur.1 f.seq = some { f.fireAt s.cur.2.2 with ops := f.ops ++ [{ firedOp s f i l with stage := 2 }] }
    (∀ g : RowF, Fires s g.p t f → FreshAt f s.cur.2.2 (some g.lsid.toNat) → out (.mrowr g) g.lsid.toNat) ∧
    (∀ g : ColF, Fires s g.p t f → FreshAt f s.cur.2.2 (some g.lsid.toNat) → out (.mcol g) g.lsid.toNat)

/-- R312, R316, R317: the oldest move, when no earlier command meets its slot, is performed and leaves the queue. MROW writes
64 bytes of a row, or those the row has left; MROWR sends them with zeros above; MCOL sends the elements of a column, one a
lane; MCOLW writes the lanes to them. No other byte of operand memory changes. -/
def Obligations.MovesArePerformed : Prop :=
  ∀ (clu : Nat) (s : State) (j : MJob) (r : List MJob) (ph : Nat × Nat), (s.clu clu).moves = j :: r →
    (∀ x ∈ (s.clu clu).jobs ++ r, j.place ≤ x.place) → j.shapes.length = 1 → physNow j 0 = some ph →
    RoleOk (j.shape 0) ph → Memory.wf s.opmem = true →
    let x := j.shape 0
    ∃ s', exec (.movePerform clu) s = .next s' ∧ s'.mem = s.mem ∧ (s'.clu clu).moves = r ∧
      (∀ g : RowF, j.i = .mrow g → g.row.toNat < x.rows → 64 * g.seg.toNat < x.rowBytes →
        let a := rowStart clu j ph g.row.toNat + 64 * g.seg.toNat
        let n := min 64 (x.rowBytes - 64 * g.seg.toNat)
        OpFrame s s' a n ∧ ∀ m, m < n → mget s'.opmem (a + m) = bits j.b.vec (8 * m) 8) ∧
      (∀ (g : RowF) (f : Frame) (o : Op), j.i = .mrowr g → g.row.toNat < x.rows → 64 * g.seg.toNat < x.rowBytes →
        s.frame j.cap.thr j.seq = some f → f.op j.cap.slot = some o → o.i = j.i →
        let a := rowStart clu j ph g.row.toNat + 64 * g.seg.toNat
        let n := min 64 (x.rowBytes - 64 * g.seg.toNat)
        ∃ (f' : Frame) (v : Vec), s'.frame j.cap.thr j.seq = some f' ∧
          f'.transit = (f.send [g.t0, g.t1] (.v v)).transit ∧ s'.opmem = s.opmem ∧
          (∀ m, m < 64 → bits v (8 * m) 8 = if m < n then mget s.opmem (a + m) else 0)) ∧
      (∀ (g : ColF) (f : Frame) (o : Op), j.i = .mcol g →
        s.frame j.cap.thr j.seq = some f → f.op j.cap.slot = some o → o.i = j.i →
        let w := elemBits x.fmt / 8
        w = 1 ∨ w = 2 ∨ w = 4 → g.col.toNat < x.cols →
        ∃ (f' : Frame) (v : Vec), s'.frame j.cap.thr j.seq = some f' ∧
          f'.transit = (f.send [g.t0, g.t1] (.v v)).transit ∧ s'.opmem = s.opmem ∧
          ∀ m b, m < 64 / w → b < w → bits v (8 * (w * m + b)) 8 =
            if g.row0.toNat + m < x.rows then
              mget s.opmem (rowStart clu j ph (g.row0.toNat + m) + w * g.col.toNat + b) else 0) ∧
      (∀ g : ColF, j.i = .mcolw g →
        let w := elemBits x.fmt / 8
        w = 1 ∨ w = 2 ∨ w = 4 → g.col.toNat < x.cols → w * x.cols ≤ x.rowBytes →
        let at_ := fun (m : Nat) => rowStart clu j ph (g.row0.toNat + m) + w * g.col.toNat
        (∀ m b, m < 64 / w → g.row0.toNat + m < x.rows → b < w →
          mget s'.opmem (at_ m + b) = bits j.b.vec (8 * (w * m + b)) 8) ∧
        ∀ q, (∀ m, m < 64 / w → g.row0.toNat + m < x.rows → q < at_ m ∨ at_ m + w ≤ q) → mget s'.opmem q = mget s.opmem q)

/-- R314, R402: the only job of a cluster, when its slots are there, its pipe is idle, a token is in the bucket and no other
requester waits, starts on its pipe and takes one token. -/
def Clauses.MatrixJobStarts : Prop :=
  ∀ (clu : Nat) (s : State) (j : MJob), (s.clu clu).jobs = [j] → (s.clu clu).moves = [] → j.eng.st = 0 →
    (s.clu clu).pipeC = none → (s.clu clu).pipeT = none → slotsHere j = true → 0 < (s.clu clu).bucket →
    (s.clu clu).fab.q = [] → (s.clu clu).copyQ = [] → (s.clu clu).streams = [] →
    ∃ s', exec (.matrixJobStart clu (pipeOf j.i)) s = .next s' ∧
      (s'.clu clu).bucket = (s.clu clu).bucket - 1 ∧ (s'.clu clu).pipe (pipeOf j.i) = some j.place ∧
      (s'.clu clu).jobs = [{ j with eng := { j.eng with st := 1 } }] ∧ s'.mem = s.mem ∧ s'.opmem = s.opmem ∧ s'.thrs = s.thrs

/-- R320, R229, R315, R323: an MMA of `.i8` elements into `.i32` replaces each element of D by its value with the groups of 32
products added one after another, each sum saturated to 32 bits; an MZERO zeroes its slot. No other byte of operand memory
changes, the job leaves the engine, its pipe is idle, and its status with its id goes to its thread. -/
def Clauses.IntegerJobsComplete : Prop :=
  ∀ (clu k : Nat) (s : State) (j : MJob) (t : Thread) (ph : Nat × Nat), (s.clu clu).pipeC = some j.place →
    (s.clu clu).jobs = [j] → j.eng = { Eng.mk0 with st := 1 } → Memory.wf s.opmem = true → s.opoison = [] → s.holds = [] →
    s.thrs = [(k, t)] → j.cap.uid = t.ser → physNow j 0 = some ph →
    let done := fun (s' : State) => exec (.matrixJobComplete clu 0) s = .next s' ∧
      (s'.clu clu).jobs = [] ∧ (s'.clu clu).pipeC = none ∧ s'.mem = s.mem ∧
      ∃ (t' : Thread) (w : Word), s'.thr k = some t' ∧ t' = { t with status := t'.status } ∧
        tget t'.status (256 + j.cap.id) = some w ∧ w.getLsbD 0 = true ∧ w.toNat / 65536 = j.cap.id % 2 ^ 48
    (∀ g : RsF, j.i = .mzero g → (j.shape 0).pair = false →
      ∃ s', done s' ∧ OpFrame s s' (physBase clu ph.1) 32768 ∧
        ∀ m, m < 32768 → mget s'.opmem (physBase clu ph.1 + m) = 0) ∧
    (∀ (g : MmaF) (pa pb : Nat × Nat), j.i = .mma g → j.shapes.length = 3 → physNow j 1 = some pa →
      physNow j 2 = some pb → RoleOk (j.shape 0) ph → RoleOk (j.shape 1) pa → RoleOk (j.shape 2) pb →
      (j.shape 0).fmt = 2 → (j.shape 1).fmt = 0 → (j.shape 2).fmt = 0 → (j.shape 0).rows = (j.shape 1).rows →
      (j.shape 0).cols = (j.shape 2).rows → (j.shape 1).cols = (j.shape 2).cols → (j.shape 1).cols % 32 = 0 →
      ∃ s', done s' ∧
        (∀ b, (∀ i, i < (j.shape 0).rows → b < rowStart clu j ph i ∨ rowStart clu j ph i + (j.shape 0).rowBytes ≤ b) →
          mget s'.opmem b = mget s.opmem b) ∧
        ∀ i c, i < (j.shape 0).rows → c < (j.shape 0).cols → ∀ z : Nat → Int,
          z 0 = opInt s (rowStart clu j ph i + 4 * c) 4 →
          (∀ n, z (n + 1) = intSat true 32 (z n + ((List.range 32).map fun m =>
            opInt s (slotByte clu pa ((j.shape 1).pitch * i) + (32 * n + m)) 1 *
              opInt s (slotByte clu pb ((j.shape 2).pitch * c) + (32 * n + m)) 1).sum)) →
          opInt s' (rowStart clu j ph i + 4 * c) 4 = z ((j.shape 1).cols / 32))

/-- R228 to R230, R310, R320 to R323: MMA and MMAS into `.f32` add to each element of D, one group of 32 products after another, the
exact sum of the group, rounding after each (MMAS scales a group by its two scales, of which 0xFF gives NaN); MMA of `.ni8` adds integers
read at its plane count and saturates; MSCAN runs h := p × h + x down each column, rounding at each step; MACCR converts each
element of its source, and zeroes the source under CLR. The job completes with its status, and no other byte of operand memory changes. -/
def Clauses.ComputeFormsComplete : Prop :=
  ∀ (clu k : Nat) (s : State) (j : MJob) (t : Thread) (ph : Nat × Nat), (s.clu clu).pipeC = some j.place →
    (s.clu clu).jobs = [j] → j.eng = { Eng.mk0 with st := 1 } → Memory.wf s.opmem = true → s.opoison = [] → s.holds = [] →
    s.thrs = [(k, t)] → j.cap.uid = t.ser → physNow j 0 = some ph → RoleOk (j.shape 0) ph →
    let d := j.shape 0
    let x := j.shape 1
    let y := j.shape 2
    let done := fun (s' : State) => exec (.matrixJobComplete clu 0) s = .next s' ∧
      (s'.clu clu).jobs = [] ∧ (s'.clu clu).pipeC = none ∧ s'.mem = s.mem ∧
      ∃ (t' : Thread) (w : Word), s'.thr k = some t' ∧ t' = { t with status := t'.status } ∧
        tget t'.status (256 + j.cap.id) = some w ∧ w.getLsbD 0 = true ∧ w.toNat / 65536 = j.cap.id % 2 ^ 48
    let val := fun (z : SlotName) (c : Nat) => decodeF (fmtOf z.fmt) false c
    let round := fun (v : XVal) => (roundF fmtF32 .rne false 0 v).1
    (∀ pa pb, physNow j 1 = some pa → physNow j 2 = some pb → RoleOk x pa → RoleOk y pb →
      let fits := x.rows = d.rows ∧ d.cols = y.rows ∧ x.cols = y.cols ∧ x.cols % 32 = 0
      let code := fun (r : Nat) (i c : Nat) => codeAt s clu (if r = 1 then pa else pb) (j.shape r) i c
      let group := fun (i c n : Nat) =>
        (sumX .rne ((List.range 32).map fun m => (mulX (val x (code 1 i (32 * n + m))) (val y (code 2 c (32 * n + m)))).1)).1
      (∀ g, j.i = .mma g → fits → j.shapes.length = 3 → d.fmt = 9 → 0x0A ≤ x.fmt → x.fmt ≤ 0x10 → 0x0A ≤ y.fmt → y.fmt ≤ 0x10 →
        ∃ s', done s' ∧ RowsFrame s s' (OutsideRows clu ph d) ∧ ∀ i c, i < d.rows → c < d.cols → ∀ z : Nat → Nat,
          z 0 = codeAt s clu ph d i c → (∀ n, z (n + 1) = round (sumX .rne [decodeF fmtF32 false (z n), group i c n]).1) →
          codeAt s' clu ph d i c = z (x.cols / 32)) ∧
      (∀ g sa sb, j.i = .mmas g → fits → j.shapes.length = 5 → d.fmt = 9 → 0x0C ≤ x.fmt → x.fmt ≤ 0x10 → 0x0C ≤ y.fmt → y.fmt ≤ 0x10 →
        physNow j 3 = some sa → physNow j 4 = some sb → RoleOk (j.shape 3) sa → RoleOk (j.shape 4) sb →
        (j.shape 3).fmt = 0x11 → (j.shape 4).fmt = 0x11 → (j.shape 3).rows = x.rows → (j.shape 4).rows = y.rows →
        (j.shape 3).cols = x.cols / 32 → (j.shape 4).cols = x.cols / 32 →
        ∃ s', done s' ∧ RowsFrame s s' (OutsideRows clu ph d) ∧ ∀ i c, i < d.rows → c < d.cols → ∀ z : Nat → Nat,
          z 0 = codeAt s clu ph d i c →
          (∀ n, let p := codeAt s clu sa (j.shape 3) i n
            let q := codeAt s clu sb (j.shape 4) c n
            z (n + 1) = round (sumX .rne [decodeF fmtF32 false (z n),
              if p = 255 ∨ q = 255 then .nan false else scaleX ((p : Int) + q - 254) (group i c n)]).1) →
          codeAt s' clu ph d i c = z (x.cols / 32)) ∧
      (∀ g, j.i = .mma g → fits → j.shapes.length = 3 → d.fmt = 2 → x.fmt = 0x12 → x.cols % 64 = 0 → 1 ≤ g.pl.toNat →
        y.fmt = 0 ∨ y.fmt = 0x12 →
        ∃ s', done s' ∧ RowsFrame s s' (OutsideRows clu ph d) ∧ ∀ i c, i < d.rows → c < d.cols → ∀ z : Nat → Int,
          z 0 = codeInt true 32 (codeAt s clu ph d i c) →
          (∀ n, z (n + 1) = intSat true 32 (z n + ((List.range 32).map fun m =>
            niValue (g.pl.toNat + 1) (code 1 i (32 * n + m)) * codeInt true 8 (code 2 c (32 * n + m))).sum)) →
          codeInt true 32 (codeAt s' clu ph d i c) = z (x.cols / 32)) ∧
      (∀ (g : ScanF) (qh : Nat × Nat), j.i = .mscan g → j.shapes.length = 4 → physNow j 3 = some qh → RoleOk (j.shape 3) qh →
        d.fmt = 9 → (x.fmt = 9 ∨ x.fmt = 0x0A) → (y.fmt = 9 ∨ y.fmt = 0x0A) → x.rows = d.rows → y.rows = d.rows →
        x.cols = d.cols → y.cols = d.cols → (j.shape 3).fmt = 9 → (j.shape 3).cols = d.cols → g.hrow.toNat < (j.shape 3).rows → Apart d ph (j.shape 3) qh →
        let h := g.hrow.toNat
        ∃ s', done s' ∧
          RowsFrame s s' (fun b => OutsideRows clu ph d b ∧
            (b < slotByte clu qh ((j.shape 3).pitch * h) ∨ slotByte clu qh ((j.shape 3).pitch * h) + (j.shape 3).rowBytes ≤ b)) ∧
          ∀ c, c < d.cols → ∀ z : Nat → Nat, z 0 = codeAt s clu qh (j.shape 3) h c →
            (∀ n, z (n + 1) = round (sumX .rne [(mulX (val x (code 1 n c)) (decodeF fmtF32 false (z n))).1, val y (code 2 n c)]).1) →
            (∀ i, i < d.rows → codeAt s' clu ph d i c = z (i + 1)) ∧ codeAt s' clu qh (j.shape 3) h c = z d.rows)) ∧
    (∀ (g : AccrF) (pa : Nat × Nat), j.i = .maccr g → j.shapes.length = 2 → physNow j 1 = some pa → RoleOk x pa → Apart d ph x pa →
      x.rows = d.rows → x.cols = d.cols → d.cols * elemBits d.fmt % 8 = 0 → x.fmt = 9 ∨ x.fmt = 2 →
      ∃ s', done s' ∧
        RowsFrame s s' (fun b => OutsideRows clu ph d b ∧ (g.clr = 1#1 → OutsideRows clu pa x b)) ∧
        ∀ i c, i < d.rows → c < d.cols →
          let v := codeAt s clu pa x i c
          let r := codeAt s' clu ph d i c
          let conv := fun (F : Fmt) (e : XVal) =>
            (roundF F (rmOf g.rnd j.cap.fcr) (fcrSatf j.cap.fcr) (j.cap.env.rand (i * x.cols + c)) e).1
          (d.fmt = x.fmt → r = v) ∧
          (x.fmt = 9 → d.fmt ∈ [0x0A, 0x0B, 0x0C, 0x0D] → r = conv (fmtOf d.fmt) (decodeF fmtF32 false v)) ∧
          (x.fmt = 2 → d.fmt = 9 → r = conv fmtF32 (ofIntX (codeInt true 32 v))) ∧
          (x.fmt = 2 → d.fmt < 2 →
            codeInt true (elemBits d.fmt) r = intSat true (elemBits d.fmt) (codeInt true 32 v)) ∧
          (g.clr = 1#1 → codeAt s' clu pa x i c = 0))

/-- R87, R318, R319, R323: an MLOAD whose data have been read puts them into the rows of its slot; an MSTORE that owns its
destination sends the bytes of its slot to it in one write of each line; a transfer whose data have moved leaves the engine and its
status goes to its thread, with XF and the cause of a row that failed. -/
def Clauses.TransfersMoveRows : Prop :=
  ∀ (clu k : Nat) (s : State) (j : MJob) (t : Thread) (ph : Nat × Nat), (s.clu clu).pipeT = some j.place →
    (s.clu clu).jobs = [j] → j.eng.out = [] → Memory.wf s.opmem = true → s.opoison = [] → s.holds = [] → s.thrs = [(k, t)] →
    j.cap.uid = t.ser → j.cap.id < 256 → physNow j 0 = some ph → ph.1 ≠ ph.2 → ph.1 < 64 → ph.2 < 64 →
    (∀ c, j.eng.xf = some c → c < 16) →
    let done := fun (s' : State) => exec (.matrixJobComplete clu 1) s = .next s' ∧ (s'.clu clu).jobs = [] ∧
      (s'.clu clu).pipeT = none ∧ s'.mem = s.mem ∧ ∃ (t' : Thread) (w : Word), s'.thr k = some t' ∧
        t' = { t with status := t'.status } ∧ tget t'.status (256 + j.cap.id) = some w ∧ w.getLsbD 0 = true ∧
        w.getLsbD 7 = j.eng.xf.isSome ∧ w.getLsbD 8 = j.eng.pz ∧ (bits w 12 4).toNat = j.eng.xf.getD 0 ∧
        w.toNat / 65536 = j.cap.id
    (∀ g d, j.i = .mload g → j.eng.st = 3 → j.eng.segs = [d] → d.dst = false → d.st = 1 → d.poison = 0 →
      d.data.length = d.len → 0 < d.len → d.pa % 64 + d.len ≤ 64 → d.off + d.len ≤ 32768 ∨ (32768 ≤ d.off ∧ d.off + d.len ≤ 65536) →
      ∃ s', done s' ∧ OpFrame s s' (slotByte clu ph d.off) d.len ∧
        ∀ m, m < d.len → some (mget s'.opmem (slotByte clu ph d.off + m)) = d.data[m]?) ∧
    (∀ g d, j.i = .mstore g → j.eng.st = 2 → j.eng.segs = [d] → d.dst = true → d.cls ≠ 5 → 0 < d.len → d.pa % 64 + d.len ≤ 64 →
      d.off + d.len ≤ 32768 ∨ (32768 ≤ d.off ∧ d.off + d.len ≤ 65536) →
      ∃ (s' : State) (j' : MJob) (m : Msg), exec (.matrixJobComplete clu 1) s = .next s' ∧ s'.mem = s.mem ∧ s'.opmem = s.opmem ∧
        (s'.clu clu).jobs = [j'] ∧ j'.eng.st = 4 ∧ j'.eng.out = [s.fresh] ∧ s'.msg s.fresh = some m ∧ m.kind = .engWrite ∧
        m.pa = d.pa / 64 * 64 ∧ m.data.length = 64 ∧ ∀ i, i < 64 → m.data[i]? = some (
          if d.pa % 64 ≤ i ∧ i < d.pa % 64 + d.len then some (mget s.opmem (slotByte clu ph d.off + (i - d.pa % 64))) else none)) ∧
    (∀ g, j.i = .mstore g → j.eng.st = 4 → (∀ d ∈ j.eng.segs, d.kind ≠ 3) → ∃ s', done s' ∧ s'.opmem = s.opmem)

/-- The statement of `Clauses.IntegerJobsComplete`, `Clauses.ComputeFormsComplete`, `Clauses.TransfersMoveRows`: each part says with its rules what it
covers. -/
def Obligations.ComputeJobsComplete : Prop :=
  Clauses.IntegerJobsComplete ∧ Clauses.ComputeFormsComplete ∧ Clauses.TransfersMoveRows

/-- R426, R427: the save of a slot that MCLAIM takes writes its 32 KiB to the image of its owner's name and leaves it clean,
and nothing else of memory changes; the restore of a name whose slot was taken claims a free physical slot, on which the
waiting command finds it, and reads the image back. Nothing of the image is cached and nothing is on its way. -/
def Obligations.SlotImagesAreSavedAndRestored : Prop :=
  (∀ (clu p : Nat) (r : List Nat) (s : State) (w : Nat × Nat × Nat), (s.clu clu).saving = p :: r →
    ((s.clu clu).slot p).owner = some w → (slotAt (s.ctx w.1).names w.2.1 w.2.2).pair = false →
    (∀ q, (slotAt (s.ctx w.1).names w.2.1 w.2.2).phys = some q → q.1 = p) → Memory.wf s.mem = true → Quiet s →
    (∀ d, (s.die d).filter = []) →
    let image := (s.ctx w.1).word 12 % 2 ^ 56 / 2 ^ 22 * 2 ^ 22 + 2 ^ 22 * w.2.1 + 32768 * w.2.2
    paPkg image = s.mod.pkg → ∃ s', exec (.slotSaveComplete clu) s = .next s' ∧ (s'.clu clu).saving = r ∧
      ((s'.clu clu).slot p).dirty = false ∧ ((s'.clu clu).slot p).owner = some w ∧ s'.opmem = s.opmem ∧
      (∀ m, m < 32768 → mget s'.mem (image + m) = mget s.opmem (physBase clu p + m)) ∧
      ∀ a, a < image ∨ image + 32768 ≤ a → mget s'.mem a = mget s.mem a) ∧
  (∀ (clu ctx lclu n p : Nat) (s : State) (x : SlotName) (j : MJob), n < 64 → x = slotAt (s.ctx ctx).names lclu n →
    x.claimed = true → x.pair = false → x.phys = none → (s.clu clu).jobs = [j] → (s.clu clu).moves = [] → j.cap.ctx = ctx →
    j.cap.lclu = lclu → j.shapes = [(n, x)] → Quiet s → (∀ d, (s.die d).filter = []) → p < 64 → ((s.clu clu).slot p).owner = none → (s.clu clu).saving = [] →
    (∀ q, q < p → ((s.clu clu).slot q).owner ≠ none) → Memory.wf s.opmem = true →
    let image := (s.ctx ctx).word 12 % 2 ^ 56 / 2 ^ 22 * 2 ^ 22 + 2 ^ 22 * lclu + 32768 * n
    paPkg image = s.mod.pkg → ∃ s', exec (.slotImageRestore clu ctx (64 * lclu + n)) s = .next s' ∧
      slotAt (s'.ctx ctx).names lclu n = { x with phys := some (p, 0) } ∧
      (s'.clu clu).jobs = [{ j with shapes := [(n, { x with phys := some (p, 0) })] }] ∧
      ((s'.clu clu).slot p).owner = some (ctx, lclu, n) ∧ s'.mem = s.mem ∧
      (∀ m, m < 32768 → mget s'.opmem (physBase clu p + m) = mget s.mem (image + m)) ∧
      ∀ a, a < physBase clu p ∨ physBase clu p + 32768 ≤ a → mget s'.opmem a = mget s.opmem a)

/-- R324, R371, R392: MWAIT, LCWAIT and CWAIT in the oldest block produce the status of the latest command of id a[7:0] that
has completed, and 0 when the thread has issued none; MPOLL does too, and produces 0 at once while the command runs. -/
def Obligations.WaitsReturnTheStatus : Prop :=
  ∀ (g : RsF) (s : State) (t : Thread) (f : Frame) (a : Word), Fires s g.p t f → HasTok f 0 s.cur.2.2 (.s a) →
    FreshAt f s.cur.2.2 (some g.lsid.toNat) → t.isOldest f.seq = true →
    let st := fun (unit : Nat) => (tget t.status (256 * unit + a.toNat % 256)).getD 0
    let runs := fun (unit : Nat) => ∃ e ∈ s.clus, ∃ c : Capture, c.uid = t.ser ∧ c.id = a.toNat % 256 ∧
      ((unit = 1 ∧ ∃ j ∈ e.2.jobs, j.cap = c) ∨ (unit = 2 ∧ ∃ j ∈ e.2.fab.q, j.cap = c) ∨
        (unit = 0 ∧ ((∃ j ∈ e.2.copyQ, j.cap = c) ∨ ∃ x ∈ e.2.streams, x.cmd.cap = c)))
    (¬runs 1 → exec (.mwait g) s = .next (firedWith s f (.mwait g) (some g.lsid.toNat) (.s (st 1))) ∧
      exec (.mpoll g) s = .next (firedWith s f (.mpoll g) (some g.lsid.toNat) (.s (st 1)))) ∧
    (runs 1 → exec (.mpoll g) s = .next (firedWith s f (.mpoll g) (some g.lsid.toNat) (.s 0)) ∧
      exec (.mwait g) s = .next (trackedAt s f (newOp (.mwait g) f s.cur.2.2 g.lsid.toNat []))) ∧
    (¬runs 2 → exec (.lcwait g) s = .next (firedWith s f (.lcwait g) (some g.lsid.toNat) (.s (st 2)))) ∧
    (¬runs 0 → exec (.cwait g) s = .next (firedWith s f (.cwait g) (some g.lsid.toNat) (.s (st 0))))

/-! ### The lookup-cell fabric -/

/-- R359, R362, R368, R370: the codes of the lookup checks. A fabric of another context is 0x60; with the fabric owned, the operand b
of LCLOAD, LCIN and LCOUT gives 0x61, 0x62 and 0x63; with nothing else wrong, a ninth command gives 0x64. That order within one
instruction is the model's choice (log 128). -/
def Clauses.LookupCheckCodes : Prop :=
  ∀ (s : State) (k : Nat) (t : Thread) (f : Frame) (o : Op),
    let b := o.b.word.toNat
    let fld := fun (lo w : Nat) => b / 2 ^ lo % 2 ^ w
    let owned := (s.clu (cluOf k)).fab.owner = t.ctx
    let ninth := 8 ≤ issuedBelow f (o.lsid.getD 0) isLcell
    let codes := fun (bad : Prop) (c : Nat) => (¬owned → lcellCheck s k t f o = some 0x60) ∧
      (owned → bad → lcellCheck s k t f o = some c) ∧ (owned → ¬bad → ninth → lcellCheck s k t f o = some 0x64) ∧
      (owned → ¬bad → ¬ninth → lcellCheck s k t f o = none)
    (∀ g, o.i = .lcload g → codes (fld 0 14 = 0 ∨ 8192 < fld 0 14 ∨ b / 2 ^ 14 ≠ 0) 0x61) ∧
    (∀ g, o.i = .lcin g → codes (fld 13 3 ≠ 0 ∨ fld 29 3 ≠ 0 ∨ b / 2 ^ 48 ≠ 0 ∨ (g.thr = 0#1 ∧ fld 40 8 ≠ 0) ∨
      8192 < fld 0 13 + (fld 16 13 + 1) * (if g.thr = 1#1 then fld 40 8 + 1 else g.plm1.toNat + 1)) 0x62) ∧
    (∀ g, o.i = .lcout g → codes (fld 13 3 ≠ 0 ∨ fld 29 3 ≠ 0 ∨ fld 45 3 ≠ 0 ∨ b / 2 ^ 56 ≠ 0 ∨
      8192 < fld 0 13 + (fld 32 13 + 1) * (fld 16 13 + 1)) 0x63) ∧
    (∀ g, o.i = .lcsel g → codes False 0x60) ∧ (∀ g, o.i = .lcrun g → codes False 0x60)

/-- R360, R362, R363, R372: an LCELL command of the oldest block whose turn has come produces its command id when it passes
R362's check, and the queue entries that its block waits for are reserved; otherwise its block holds class 0x0B, code 0x60 for a fabric of another owner. LCSTAT produces the state of
R372's layout. -/
def Clauses.LcellFormsFire : Prop :=
  ∀ (s : State) (t : Thread) (f : Frame), t.isOldest f.seq = true →
    let x := (s.clu (cluOf s.cur.1)).fab
    let out := fun (i : Instr) (l : Nat) => (firedFrame s f (firedOp s f i l)).turn (firedOp s f i l) = true →
      (lcellCheck s s.cur.1 t (firedFrame s f (firedOp s f i l)) (firedOp s f i l) = none →
        exec i s = .next (reserveAll (firedWith s f i (some l)
          (.s (BitVec.ofNat 64 ((t.cnts.2.1 + issuedBelow f l isLcell) % 256)))) (cluOf s.cur.1))) ∧
      (∀ c, lcellCheck s s.cur.1 t (firedFrame s f (firedOp s f i l)) (firedOp s f i l) = some c →
        exec i s = .next (firedBad s f i (some l) 0x0B (s.cur.2.2 + 512 * c + 65536 * l))) ∧
      (x.owner ≠ t.ctx → exec i s = .next (firedBad s f i (some l) 0x0B (s.cur.2.2 + 512 * 0x60 + 65536 * l)))
    (∀ (g : LcloadF) (a b : Word), Fires s g.p t f → HasTok f 0 s.cur.2.2 (.s a) → HasTok f 1 s.cur.2.2 (.s b) →
      FreshAt f s.cur.2.2 (some g.lsid.toNat) → out (.lcload g) g.lsid.toNat) ∧
    (∀ g : LcselF, Fires s g.p t f → FreshAt f s.cur.2.2 (some g.lsid.toNat) → out (.lcsel g) g.lsid.toNat) ∧
    (∀ (g : LcinF) (a b c : Word), Fires s 0#2 t f → HasTok f 0 s.cur.2.2 (.s a) → HasTok f 1 s.cur.2.2 (.s b) →
      HasTok f 2 s.cur.2.2 (.s c) → FreshAt f s.cur.2.2 (some g.lsid.toNat) → out (.lcin g) g.lsid.toNat) ∧
    (∀ g : LcrunF, Fires s g.p t f → FreshAt f s.cur.2.2 (some g.lsid.toNat) → out (.lcrun g) g.lsid.toNat) ∧
    (∀ (g : LcoutF) (a b : Word), Fires s g.p t f → HasTok f 0 s.cur.2.2 (.s a) → HasTok f 1 s.cur.2.2 (.s b) →
      FreshAt f s.cur.2.2 (some g.lsid.toNat) → out (.lcout g) g.lsid.toNat) ∧
    (∀ g : GF, Fires s g.p t f → FreshAt f s.cur.2.2 none →
      ∃ r : Word, exec (.lcstat g) s = .next (firedWith s f (.lcstat g) none (.s r)) ∧
        (x.owner ≠ t.ctx → r.toNat = x.owner % 2 ^ 16 * 2 ^ 48) ∧
        (x.owner = t.ctx → x.layers < 2 ^ 16 → x.sel < 8 → x.q.length < 32 → (∀ i, (x.slot i).nc < 2 ^ 16) →
          r.toNat / 2 ^ 48 = x.owner % 2 ^ 16 ∧ r.toNat / 2 ^ 32 % 2 ^ 16 = x.layers ∧
          r.toNat / 2 ^ 16 % 2 ^ 16 = (if x.sel = 7 then 0 else (x.slot x.sel).nc) ∧
          r.toNat / 2 ^ 13 % 8 = x.sel ∧ r.toNat / 256 % 32 = x.q.length ∧ r.toNat / 64 % 4 = 0 ∧
          ∀ i, i < 6 → r.getLsbD i = (x.slot i).loaded))

/-- The statement of `Clauses.LookupCheckCodes`, `Clauses.LcellFormsFire`: each part says with its rules what it covers. -/
def Obligations.FabricInstructionsFire : Prop := Clauses.LookupCheckCodes ∧ Clauses.LcellFormsFire

/-- R354 to R358, R367, R402: a layer of a running LCRUN gives wire i of P, for each of the 256 samples, the truth-table bit of cell
i that its six input wires select, zero beyond the cells of the context, and N the wires P had; the layer count rises. Every layer
after the first takes a token of the bucket, which no other requester asks for here. -/
def Obligations.LayerEvaluatesTheCells : Prop :=
  ∀ (clu m : Nat) (s : State) (j : FCmd) (g : LcrunF), let c := s.clu clu
    let x := c.fab
    x.q = [j] → j.i = .lcrun g → j.eng.st = 1 → j.layers = m + 1 → m ≤ g.repm1.toNat →
    (m < g.repm1.toNat → c.jobs = [] ∧ c.moves = [] ∧ c.copyQ = [] ∧ c.streams = [] ∧ 0 < c.bucket) →
    ∃ s', exec (.layer clu) s = .next s' ∧ s'.mem = s.mem ∧ s'.thrs = s.thrs ∧
      let y := (s'.clu clu).fab
      y.n = x.p ∧ y.c = x.c ∧ y.sel = x.sel ∧ y.slots = x.slots ∧ y.layers = (x.layers + 1) % 65536 ∧
      y.q = [{ j with layers := m }] ∧ (s'.clu clu).bucket = (if m < g.repm1.toNat then c.bucket - 1 else c.bucket) ∧
      ∀ i b, i < 8192 → b < 256 → (y.wire 0 i).getLsbD b =
        if i < (x.slot x.sel).nc then
          (x.cell x.sel i).testBit (((List.range 6).map fun n =>
            let sel := x.cell x.sel i / 2 ^ (64 + 14 * n) % 2 ^ 14
            if (x.wire (sel / 8192) (sel % 8192)).getLsbD b then 2 ^ n else 0).sum)
        else false

/-- R364, R402: the only command of a fabric starts on its unit with a token of the bucket when no other requester waits. -/
def Clauses.FabricCommandStarts : Prop :=
  ∀ (clu : Nat) (s : State) (j : FCmd), (s.clu clu).fab.q = [j] → isLcell j.i = true → j.eng.st = 0 →
    (s.clu clu).jobs = [] → (s.clu clu).moves = [] → (s.clu clu).copyQ = [] → (s.clu clu).streams = [] →
    0 < (s.clu clu).bucket →
    ∃ (s' : State) (j' : FCmd), exec (.fabricCommandStart clu (fabUnit j.i)) s = .next s' ∧
      (s'.clu clu).bucket = (s.clu clu).bucket - 1 ∧ (s'.clu clu).fab.q = [j'] ∧ j'.eng = { j.eng with st := 1 } ∧
      j'.i = j.i ∧ j'.cap = j.cap ∧ s'.mem = s.mem ∧ s'.thrs = s.thrs ∧
      (∀ g, j.i = .lcload g → ((s'.clu clu).fab.slot g.ctx.toNat).loaded = false)

/-- R365, R366, R374: an LCSEL without a message that has run selects its context; an LCLOAD whose records were all read
without a fault fills its slot and sets LOADED. The command leaves the fabric and its status, with DONE, its id and no
fault, goes to its thread. -/
def Clauses.FabricCommandCompletes : Prop :=
  ∀ (clu k : Nat) (s : State) (j : FCmd) (t : Thread), (s.clu clu).fab.q = [j] → j.eng.st = 5 → s.holds = [] →
    j.eng.xf = none → j.eng.pz = false → j.nv = false → j.nctx = false → j.cap.id < 256 →
    s.thrs = [(k, t)] → j.cap.uid = t.ser →
    let done := fun (s' : State) => exec (.fabricCommandComplete clu (fabUnit j.i)) s = .next s' ∧
      (s'.clu clu).fab.q = [] ∧ s'.mem = s.mem ∧
      ∃ t', s'.thr k = some t' ∧ t' = { t with status := t'.status } ∧
        tget t'.status (512 + j.cap.id) = some (BitVec.ofNat 64 (1 + 65536 * j.cap.id))
    (∀ g, j.i = .lcsel g → g.ntf = 0#1 → ∃ s', done s' ∧ (s'.clu clu).fab.sel = g.ctx.toNat) ∧
    (∀ g n, j.i = .lcload g → g.ntf = 0#1 → n = j.b.toNat % 2 ^ 14 → (∀ d ∈ j.eng.segs, d.dst = false) →
      ∃ s', done s' ∧ ((s'.clu clu).fab.slot g.ctx.toNat).loaded = true ∧
        ((s'.clu clu).fab.slot g.ctx.toNat).nc = n ∧
        ∀ c, c < n → (s'.clu clu).fab.cell g.ctx.toNat c = leNat (j.eng.bytes (20 * c) 20))

/-- R354, R361, R368, R370, R374: an LCIN without a message whose elements were all read fills its wires: sample s of wire
WB + f × m + n is bit 7 - n of element f in plane mode and whether the element reaches threshold n in threshold mode, zero from
sample NS on; other wires keep their values, and a NaN that was met sets NV in its status. An LCOUT that owns its destination sends
its scores, each the count of the group's wires that are set in the sample, as 16-bit numbers. -/
def Clauses.WiresAndScoresMove : Prop :=
  ∀ (clu k : Nat) (s : State) (j : FCmd) (t : Thread), (s.clu clu).fab.q = [j] → s.holds = [] → j.cap.id < 256 →
    s.thrs = [(k, t)] → j.cap.uid = t.ser →
    let b := j.b.toNat
    let fld := fun (lo w : Nat) => b / 2 ^ lo % 2 ^ w
    let x := (s.clu clu).fab
    (∀ g : LcinF, j.i = .lcin g → g.ntf = 0#1 → j.eng.st = 5 → j.eng.xf = none → j.eng.pz = false → j.nctx = false →
      (∀ d ∈ j.eng.segs, d.dst = false) → (g.thr = 0#1 → g.ty.toNat = 0 ∨ g.ty.toNat = 4) →
      (g.thr = 1#1 → g.ty.toNat ∈ [0, 1, 4, 5, 9, 0x0A]) →
      let nf := fld 16 13 + 1
      let ns := fld 32 8 + 1
      let m := if g.thr = 1#1 then fld 40 8 + 1 else g.plm1.toNat + 1
      let w := elemBits g.ty.toNat / 8
      let elem := fun (r i : Nat) => leNat (j.eng.bytes ((r * nf + i) * w) w)
      let limit := fun (i n : Nat) => leNat (j.eng.bytes ((ns * nf + i * m + n) * w) w)
      let F := fmtOf g.ty.toNat
      let isNan := fun (c : Nat) => 8 ≤ g.ty.toNat ∧ ∃ q, decodeF F false c = .nan q
      let reach := fun (c l : Nat) => if g.ty.toNat < 8 then codeInt (g.ty.toNat < 4) (8 * w) l ≤ codeInt (g.ty.toNat < 4) (8 * w) c
        else (relX .ge (decodeF F false c) (decodeF F false l)).1 = true
      ∃ (s' : State) (t' : Thread) (st : Word), exec (.fabricCommandComplete clu 4) s = .next s' ∧ (s'.clu clu).fab.q = [] ∧
        s'.mem = s.mem ∧ s'.thr k = some t' ∧ t' = { t with status := t'.status } ∧ tget t'.status (512 + j.cap.id) = some st ∧
        (∀ i n r, i < nf → n < m → r < 256 → (((s'.clu clu).fab.wire g.bank.toNat (fld 0 13 + i * m + n)).getLsbD r = true ↔
          r < ns ∧ (g.thr = 0#1 → (elem r i).testBit (7 - n) = true) ∧ (g.thr = 1#1 → reach (elem r i) (limit i n)))) ∧
        (∀ bank a, bank < 2 → (bank = g.bank.toNat → a < fld 0 13 ∨ fld 0 13 + nf * m ≤ a) →
          (s'.clu clu).fab.wire bank a = x.wire bank a) ∧
        (st.getLsbD 1 = true ↔ g.thr = 1#1 ∧ ∃ i, i < nf ∧
          ((∃ r, r < ns ∧ isNan (elem r i)) ∨ ∃ n, n < m ∧ isNan (limit i n)))) ∧
    (∀ (g : LcoutF) (d : Seg), j.i = .lcout g → j.eng.st = 2 → j.eng.out = [] → j.eng.segs = [d] → d.dst = true → d.cls ≠ 5 →
      0 < d.len → d.pa % 64 + d.len ≤ 64 →
      let ng := fld 32 13 + 1
      let sz := fld 16 13 + 1
      ∃ (s' : State) (j' : FCmd) (m : Msg), exec (.fabricCommandComplete clu 4) s = .next s' ∧ s'.mem = s.mem ∧
        (s'.clu clu).fab.q = [j'] ∧ j'.eng.st = 4 ∧ s'.msg s.fresh = some m ∧ m.kind = .engWrite ∧ m.pa = d.pa / 64 * 64 ∧
        ∀ (r i y : Nat), i < ng → d.off ≤ 2 * (r * ng + i) + y → 2 * (r * ng + i) + y < d.off + d.len → y < 2 →
          let v := ((List.range sz).filter fun n => (x.wire g.bank.toNat (fld 0 13 + i * sz + n)).getLsbD r).length
          m.data[d.pa % 64 + (2 * (r * ng + i) + y - d.off)]? = some (some (BitVec.ofNat 8 (v / 256 ^ y))))

/-! ### The copy engine -/

/-- R80, R379, R384, R386, R387: the codes of the copy checks, with nothing of the block before the instruction: 0x70 for a count of CPY or an entry
number, 0x71 for a CPY to the port window, 0x72 for a descriptor of CPYS, 0x73 for an entry that is not open for the context, 0x74 for a slot that is not full;
the ninth CPY or CPYS gives 0x75. -/
def Clauses.StreamCheckCodes : Prop :=
  ∀ (s : State) (k : Nat) (t : Thread) (f : Frame) (o : Op),
    let a := o.a.word.toNat
    let ninth := 8 ≤ issuedBelow f (o.lsid.getD 0) isCopy
    let ent := tget (s.clu (cluOf k)).stab (a % 16)
    let open_ := ∃ e, ent = some e ∧ e.ctx = t.ctx
    (∀ g, o.i = .cpy g →
      let n := fun (d : Nat) => (o.c.vec.toNat / 2 ^ (32 * d)) % 2 ^ 32
      let b := o.b.word.toNat
      let counts := ∃ d, d < 4 ∧ (n d = 0 ∨ 2 ^ 24 < n d)
      let window := b / 2 ^ 56 = 0xF2 ∧ (g.cv = 1#1 ∨ n 1 ≠ 1 ∨ n 2 ≠ 1 ∨ n 3 ≠ 1 ∨ n 0 % 8 ≠ 0 ∨ 65536 < n 0 ∨ b % 2 ^ 17 ≠ 0)
      (counts → copyCheck s k t f o = some 0x70) ∧ (¬counts → window → copyCheck s k t f o = some 0x71) ∧
      (¬counts → ¬window → ninth → copyCheck s k t f o = some 0x75) ∧
      (¬counts → ¬window → ¬ninth → copyCheck s k t f o = none)) ∧
    (∀ g, o.i = .cpys g →
      let w := fun (j : Nat) => o.b.vec.toNat / 2 ^ (64 * j) % 2 ^ 64
      let count := fun (n : Nat) => 1 ≤ n ∧ n ≤ 2 ^ 24
      let tiling := w 0 / 8 % 32 = 0 ∧ w 0 / 2 ^ 11 = 0 ∧ count (w 4 % 2 ^ 32) ∧ count (w 4 / 2 ^ 32) ∧ w 5 / 2 ^ 16 = 0 ∧
        w 6 = 0 ∧ w 7 = 0
      let fld := fun (j lo n : Nat) => o.c.vec.toNat / 2 ^ (128 * j + lo) % 2 ^ n
      let on := fun (j : Nat) => fld j 0 1 = 1
      let nv := fun (j : Nat) => 2 ^ fld j 11 2
      let z := 2 ^ (w 0 % 8 + 9)
      let branch := fun (j : Nat) => fld j 123 5 = 0 ∧ fld j 11 2 ≠ 3 ∧ 1 ≤ fld j 5 6 ∧ fld j 100 23 % z = 0 ∧
        fld j 100 23 + (fld j 5 6 + nv j) / nv j * z ≤ 2 ^ 23 ∧ (∀ i, i < 4 → nv j ≤ i → fld j (36 + 16 * i) 16 = 0) ∧
        (∀ i, i < nv j → ∀ i', i' < nv j → ∀ p c p' c', mapAt s (cluOf k) t.ctx (fld j (36 + 16 * i) 16) = .ok (p, c) →
          mapAt s (cluOf k) t.ctx (fld j (36 + 16 * i') 16) = .ok (p', c') → p = p' ∧ c / 80 = c' / 80)
      let valid := tiling ∧ on 0 ∧ (∀ j, j < 3 → on (j + 1) → on j) ∧ (∀ j, j < 4 → on j → branch j) ∧
        ∀ i j, i < 4 → j < 4 → i ≠ j → on i → on j → fld i 20 16 = fld j 20 16 → fld i 1 4 ≠ fld j 1 4
      (¬valid → copyCheck s k t f o = some 0x72) ∧ (valid → ninth → copyCheck s k t f o = some 0x75) ∧
      (valid → ¬ninth → copyCheck s k t f o = none)) ∧
    (∀ g, o.i = .stclose g →
      (16 ≤ a → copyCheck s k t f o = some 0x70) ∧ (a < 16 → ¬open_ → copyCheck s k t f o = some 0x73) ∧
      (a < 16 → open_ → copyCheck s k t f o = none)) ∧
    (∀ g, o.i = .stfree g → f.ops = [o] →
      (16 ≤ a → copyCheck s k t f o = some 0x70) ∧ (a < 16 → ¬open_ → copyCheck s k t f o = some 0x73) ∧
      (∀ e, a < 16 → ent = some e → e.ctx = t.ctx → e.st ≠ 1 → copyCheck s k t f o = some 0x73) ∧
      (∀ e, a < 16 → ent = some e → e.ctx = t.ctx → e.st = 1 → e.c = e.f → e.c < 2 ^ 32 →
        copyCheck s k t f o = some 0x74) ∧
      (∀ e, a < 16 → ent = some e → e.ctx = t.ctx → e.st = 1 → e.c ≠ e.f → e.c < 2 ^ 32 → e.f < 2 ^ 32 →
        copyCheck s k t f o = none))

/-- R377, R379, R380, R390, R391: a CPY or CPYS of the oldest block whose turn has come produces its command id when R379's
checks pass and every cluster it names is mapped, and the queue entries that its block waits for are reserved; STFREE and STCLOSE pass and act at commit; STQ produces a word of its
entry. A check that fails leaves the stream fault of class 0x0C in the block, naming the entry for codes 0x73 and 0x74. -/
def Clauses.CopyFormsFire : Prop :=
  ∀ (s : State) (t : Thread) (f : Frame) (a : Word), HasTok f 0 s.cur.2.2 (.s a) → t.isOldest f.seq = true →
    let n := s.cur.2.2
    let id := fun (l : Nat) => Tok.s (BitVec.ofNat 64 ((t.cnts.2.2 + issuedBelow f l isCopy) % 256))
    let check := fun (i : Instr) (l : Nat) => copyCheck s s.cur.1 t (firedFrame s f (firedOp s f i l)) (firedOp s f i l)
    let turn := fun (i : Instr) (l : Nat) => (firedFrame s f (firedOp s f i l)).turn (firedOp s f i l) = true
    let bad := fun (i : Instr) (l c : Nat) => firedBad s f i (some l) 0x0C
      (n + 512 * c + 65536 * l + if c = 0x73 ∨ c = 0x74 then 2 ^ 21 * (a.toNat % 16) else 0)
    (∀ (g : CpyF) (b : Word) (c : Vec), Fires s 0#2 t f → HasTok f 1 n (.s b) → HasTok f 2 n (.v c) →
      FreshAt f n (some g.lsid.toNat) → turn (.cpy g) g.lsid.toNat →
      (check (.cpy g) g.lsid.toNat = none →
        exec (.cpy g) s =
          .next (reserveAll (firedWith s f (.cpy g) (some g.lsid.toNat) (id g.lsid.toNat)) (cluOf s.cur.1))) ∧
      (∀ x, check (.cpy g) g.lsid.toNat = some x → exec (.cpy g) s = .next (bad (.cpy g) g.lsid.toNat x))) ∧
    (∀ (g : CpysF) (b c : Vec), Fires s 0#2 t f → HasTok f 1 n (.v b) → HasTok f 2 n (.v c) →
      FreshAt f n (some g.lsid.toNat) → turn (.cpys g) g.lsid.toNat →
      (check (.cpys g) g.lsid.toNat = none →
        (∀ m ∈ branchClus (.v c), ∃ p, mapAt s (cluOf s.cur.1) t.ctx m = .ok p) → (s.clu (cluOf s.cur.1)).mapc = [] →
        ∃ (s' : State) (f' : Frame) (o : Op), exec (.cpys g) s = .next s' ∧ s'.frame s.cur.1 f.seq = some f' ∧
          f'.transit = (f.send [g.t0, g.t1] (id g.lsid.toNat)).transit ∧ f'.op n = some o ∧
          o.ans = some (id g.lsid.toNat) ∧ o.stage = 1 ∧ s'.mem = s.mem ∧
          (s'.clu (cluOf s.cur.1)).copyQ = (s.clu (cluOf s.cur.1)).copyQ) ∧
      (∀ x, check (.cpys g) g.lsid.toNat = some x → exec (.cpys g) s = .next (bad (.cpys g) g.lsid.toNat x))) ∧
    (∀ g : LsF, Fires s g.p t f → FreshAt f n (some g.lsid.toNat) →
      (turn (.stclose g) g.lsid.toNat →
        (check (.stclose g) g.lsid.toNat = none →
          exec (.stclose g) s = .next (reserveAll (firedOk s f (.stclose g) (some g.lsid.toNat)) (cluOf s.cur.1))) ∧
        (16 ≤ a.toNat → exec (.stclose g) s = .next (bad (.stclose g) g.lsid.toNat 0x70)) ∧
        (a.toNat < 16 → tget (s.clu (cluOf s.cur.1)).stab a.toNat = none →
          exec (.stclose g) s = .next (bad (.stclose g) g.lsid.toNat 0x73))) ∧
      (turn (.stfree g) g.lsid.toNat →
        (check (.stfree g) g.lsid.toNat = none →
          ∃ (s' : State) (f' : Frame) (o : Op), exec (.stfree g) s = .next s' ∧ s'.frame s.cur.1 f.seq = some f' ∧
            f'.op n = some o ∧ o.ans = some .null ∧ o.stage = 1 ∧ f'.transit = f.transit ∧ s'.mem = s.mem ∧
            (s'.clu (cluOf s.cur.1)).stab = (s.clu (cluOf s.cur.1)).stab) ∧
        (∀ x, check (.stfree g) g.lsid.toNat = some x →
          exec (.stfree g) s = .next (bad (.stfree g) g.lsid.toNat x)))) ∧
    (∀ (g : StqF) (e : SEnt), Fires s g.p t f → FreshAt f n none → a.toNat < 16 →
      tget (s.clu (cluOf s.cur.1)).stab a.toNat = some e → e.ctx = t.ctx →
      ∃ r : Word, exec (.stq g) s = .next (firedWith s f (.stq g) none (.s r)) ∧
        (g.sel = 0#2 → e.w < 2 ^ 32 → e.c < 2 ^ 32 → r.toNat % 2 ^ 32 = e.w ∧ r.toNat / 2 ^ 32 = e.c) ∧
        (g.sel = 1#2 → e.f < 2 ^ 32 → e.base < 2 ^ 32 → r.toNat % 2 ^ 32 = e.f ∧ r.toNat / 2 ^ 32 = e.base) ∧
        (g.sel = 3#2 → r = e.vc))

/-- The statement of `Clauses.StreamCheckCodes`, `Clauses.CopyFormsFire`: each part says with its rules what it covers. -/
def Obligations.CopyInstructionsFire : Prop := Clauses.StreamCheckCodes ∧ Clauses.CopyFormsFire

/-- R83, R380, R402: the only command of a copy engine, a CPY, starts with a token of the bucket when no other requester
waits; once what its tokens pay for has been read, it takes one more for its next 32 KiB. -/
def Clauses.CopyStartsAndPaysForPortions : Prop :=
  ∀ (clu : Nat) (s : State) (j : CCmd) (g : CpyF), (s.clu clu).copyQ = [j] → j.i = .cpy g → (s.clu clu).jobs = [] →
    (s.clu clu).moves = [] → (s.clu clu).fab.q = [] → (s.clu clu).streams = [] → 0 < (s.clu clu).bucket →
    (j.eng.st = 0 → ∃ s', exec (.copyStart clu) s = .next s' ∧ (s'.clu clu).bucket = (s.clu clu).bucket - 1 ∧
      (s'.clu clu).copyQ = [{ j with portions := 1, eng := { j.eng with st := 1 } }] ∧ s'.mem = s.mem ∧ s'.thrs = s.thrs) ∧
    (j.eng.st = 3 → j.eng.out = [] → j.portions * 32768 < cpyBytes j →
      (∀ d ∈ j.eng.segs, d.dst = false → d.st = 0 → paid j g d = false) →
      ∃ s', exec (.cpyPortionToken clu j.place) s = .next s' ∧ (s'.clu clu).bucket = (s.clu clu).bucket - 1 ∧
        (s'.clu clu).copyQ = [{ j with portions := j.portions + 1 }] ∧ s'.mem = s.mem ∧ s'.thrs = s.thrs)

/-- R85, R382: a byte CPY whose source piece has been read writes those bytes to its destination: one write of the
destination's line is on its way, and no byte of memory has changed yet. -/
def Clauses.CopyWritesWhatItRead : Prop :=
  ∀ (clu : Nat) (s : State) (j : CCmd) (g : CpyF) (x d : Seg), (s.clu clu).copyQ = [j] → j.i = .cpy g → g.cv = 0#1 →
    toWindow j.b.word = false → j.eng.st = 3 → j.eng.out = [] → j.eng.segs = [x, d] → x.dst = false → d.dst = true →
    x.st = 1 → x.off = 0 → d.off = 0 → x.len = d.len → x.data.length = x.len → x.poison = 0 →
    d.pa % 64 + d.len ≤ 64 → 0 < d.len →
    ∃ (s' : State) (j' : CCmd) (m : Msg), exec (.copySourceRead clu j.place) s = .next s' ∧ s'.mem = s.mem ∧
      (s'.clu clu).copyQ = [j'] ∧ j'.eng.st = 4 ∧ j'.eng.out = [s.fresh] ∧ s'.msg s.fresh = some m ∧
      m.kind = .engWrite ∧ m.pa = d.pa / 64 * 64 ∧ m.data.length = 64 ∧
      ∀ i, i < 64 → m.data[i]? = some (if d.pa % 64 ≤ i ∧ i < d.pa % 64 + d.len then x.data[i - d.pa % 64]? else none)

/-- R87, R380, R392: a CPY whose writes have landed and that posts no message completes: it leaves the engine and its status
with DONE, its id, its flags and its fault goes to its thread. -/
def Clauses.CopyCompletes : Prop :=
  ∀ (clu k : Nat) (s : State) (j : CCmd) (g : CpyF) (t : Thread), (s.clu clu).copyQ = [j] → (s.clu clu).streams = [] →
    j.i = .cpy g → g.ntf = 0#1 → toWindow j.b.word = false → j.eng.st = 5 → j.eng.out = [] → s.holds = [] → j.cap.id < 256 →
    s.thrs = [(k, t)] → j.cap.uid = t.ser → (∀ c, j.eng.xf = some c → c < 16) →
    ∃ (s' : State) (t' : Thread) (w : Word), exec (.copyCompletion clu j.place) s = .next s' ∧ (s'.clu clu).copyQ = [] ∧
      s'.mem = s.mem ∧ s'.thr k = some t' ∧ t' = { t with status := t'.status } ∧ tget t'.status j.cap.id = some w ∧
      w.getLsbD 0 = true ∧ bits w 1 6 = j.eng.fl ∧ w.getLsbD 7 = j.eng.xf.isSome ∧ w.getLsbD 8 = j.eng.pz ∧
      (bits w 12 4).toNat = j.eng.xf.getD 0 ∧ w.toNat / 65536 = j.cap.id

/-- R77, R388, R390: a CPYS at the head of the queue opens its stream when its branch's entry is free, its ring is free of
holds and fits, and the engine has a stream left: the entry is open with its counts zero and the full bits of the ring
are cleared. With the entry taken, it completes without opening. Entry and ring are on this package. -/
def Clauses.StreamOpens : Prop :=
  ∀ (clu : Nat) (s : State) (j : CCmd) (g : CpysF) (b : Branch) (i r : Nat), (s.clu clu).copyQ = [j] → j.i = .cpys g →
    j.eng.st = 0 → branchesOf j.c = [(i, r)] → openBranches s clu j = some [b] → s.queues = [] → b.clu < 1024 →
    (∀ v ∈ b.vaults, v < 1024) → s.resvs = [] →
    (tget (s.clu b.clu).stab b.ent = none → (s.clu clu).streams = [] → s.holds = [] →
      (∀ v ∈ b.vaults, brEnd (cpysZ j.b) r ≤ 2 ^ 23 - 128 * (s.clu v).kennel.size) →
      ∃ (s' : State) (e : SEnt) (x : Stream), exec (.streamOpen clu) s = .next s' ∧ (s'.clu clu).copyQ = [] ∧
        (s'.clu clu).streams = [x] ∧ x.cmd = j ∧ x.branches = [b] ∧ x.read = 0 ∧ x.closing = false ∧
        tget (s'.clu b.clu).stab b.ent = some e ∧ e.ctx = j.cap.ctx ∧ e.st = 1 ∧ e.w = 0 ∧ e.c = 0 ∧ e.f = 0 ∧
        s'.mem = s.mem ∧ ∀ a ∈ b.slots s.mod.pkg (cpysZ j.b), ∀ y ∈ gransOf a (cpysZ j.b), y ∉ s'.full) ∧
    (tget (s.clu b.clu).stab b.ent ≠ none → (s.clu clu).streams.length < 3 →
      ∃ s', exec (.streamOpen clu) s = .next s' ∧ (s'.clu clu).copyQ = [{ j with eng := { j.eng with st := 5 } }] ∧
        (s'.clu clu).streams = (s.clu clu).streams ∧ s'.mem = s.mem)

/-- R78, R388: the bytes of a stream's tile that has been read go into staging under the tile's number; the oldest staged tile
of a branch with a free slot starts there with a token of the bucket, its holds asked for and its consumer told; the
notice raises W of the consumer's entry. -/
def Clauses.TilesAreReadAndStarted : Prop :=
  (∀ (clu : Nat) (s : State) (x : Stream), (s.clu clu).streams = [x] → x.cmd.eng.st = 3 → x.cmd.eng.out = [] →
    (∀ d ∈ x.cmd.eng.segs, d.st = 1 ∧ d.dst = false ∧ d.poison = 0) → x.closing = false →
    ∃ (s' : State) (y : Stream) (z : Tile), exec (.tileRead clu x.cmd.place) s = .next s' ∧ s'.mem = s.mem ∧
      (s'.clu clu).streams = [y] ∧ y.read = x.read + 1 ∧ y.staging = x.staging ++ [z] ∧ z.t = x.read ∧
      z.bytes.length = cpysZ x.cmd.b ∧ z.xf = x.cmd.eng.xf ∧ z.bad = [] ∧
      ∀ i d, i < cpysZ x.cmd.b → x.cmd.eng.segs.find? (fun d => d.off ≤ i && i < d.off + d.len) = some d →
        z.bytes.getD i 0 = d.data.getD (i - d.off) 0) ∧
  (∀ (clu : Nat) (s : State) (x : Stream) (b : Branch) (z : Tile), (s.clu clu).streams = [x] → x.branches = [b] →
    x.staging = [z] → z.t = b.w → b.clu < 1024 → (∀ v ∈ b.vaults, v < 1024) → b.w - b.f < b.s → x.closing = false → (s.clu clu).copyQ = [] → (s.clu clu).jobs = [] →
    (s.clu clu).moves = [] → (s.clu clu).fab.q = [] → 0 < (s.clu clu).bucket →
    ∃ (s' : State) (y : Stream) (m n : Msg), exec (.tileStart clu x.cmd.place 0) s = .next s' ∧
      (s'.clu clu).bucket = (s.clu clu).bucket - 1 ∧ (s'.clu clu).streams = [y] ∧
      y.branches = [{ b with w := b.w + 1, run := b.run ++ [(0, z)] }] ∧ y.staging = [] ∧ s'.mem = s.mem ∧
      s'.msg s.fresh = some m ∧ m.kind = .engOwn ∧ m.pa = tilePa s x b b.w ∧ m.len = x.z ∧
      s'.msg (s.fresh + 1) = some n ∧ n.kind = .startNotice ∧ n.arg = (b.w + 1) % 2 ^ 32) ∧
  (∀ (n clu : Nat) (s : State) (m : Msg) (e : SEnt), s.net = [(n, m)] → m.kind = .startNotice → m.node = 9 + clu →
    tget (s.clu clu).stab m.par = some e → e.ctx = m.ctx → (s.ctx m.ctx).gen = m.gen →
    ∃ s', exec (.startNotice n) s = .next s' ∧ s'.net = [] ∧ s'.mem = s.mem ∧
      tget (s'.clu clu).stab m.par = some { e with w := m.arg })

/-- R79, R81, R388, R391: the oldest tile of a branch that has landed completes: its granules read full, its holds end and C
rises; a freed-slot notice brings the producer's F up, and a close notice ends the reading and starting of tiles. -/
def Clauses.TilesCompleteAndNoticesArrive : Prop :=
  (∀ (clu : Nat) (s : State) (x : Stream) (b : Branch) (z : Tile) (e : SEnt), (s.clu clu).streams = [x] →
    x.branches = [b] → b.run = [(2, z)] → b.port = none → b.clu < 1024 → (∀ v ∈ b.vaults, v < 1024) → tget (s.clu b.clu).stab b.ent = some e → s.queues = [] →
    ∃ (s' : State) (y : Stream) (e' : SEnt), exec (.tileComplete clu x.cmd.place 0) s = .next s' ∧ s'.mem = s.mem ∧
      (s'.clu clu).streams = [y] ∧ y.branches = [{ b with c := b.c + 1, run := [] }] ∧
      tget (s'.clu b.clu).stab b.ent = some e' ∧ e'.c = (e.c + 1) % 2 ^ 32 ∧ e'.w = e.w ∧ e'.f = e.f ∧
      ∀ r ∈ gransOf (tilePa s x b b.c) x.z, r ∈ s'.full ∧ ∀ h ∈ s'.holds, h.1 = r →
        h.2 ≠ .eng clu 0 x.cmd.place) ∧
  (∀ (n clu : Nat) (s : State) (m : Msg) (x : Stream) (b : Branch), s.net = [(n, m)] → m.node = 9 + clu →
    (s.clu clu).streams = [x] → x.branches = [b] → m.par = x.cmd.place → m.port = 0 → m.arg < 2 ^ 32 →
    (m.kind = .freedNotice → ∃ (s' : State) (y : Stream) (b' : Branch), exec (.freedSlotNotice n) s = .next s' ∧
      s'.net = [] ∧ s'.mem = s.mem ∧ (s'.clu clu).streams = [y] ∧ y.branches = [b'] ∧ b.f ≤ b'.f ∧
      b'.f < b.f + 2 ^ 32 ∧ b'.f % 2 ^ 32 = m.arg) ∧
    (m.kind = .closeNotice → ∃ s', exec (.closeNotice n) s = .next s' ∧ s'.net = [] ∧ s'.mem = s.mem ∧
      (s'.clu clu).streams = [{ x with closing := true }]))

/-! ### Ports, patterns and handlers -/

/-- R346 to R351: in the oldest block and in their LSID order (R348), SEND and SENDT with a well-formed destination on this package
ask its port for room with their message; a nonzero reserved field of a is class 0x0A, code 0x51. PORTCFG and PATCLR of the context's own port
or pattern pass and act at commit, PATSET reads its handler entry; PORTQ produces the port's state; HEND marks its block. -/
def Obligations.PortInstructionsFire : Prop :=
  ∀ (s : State) (t : Thread) (f : Frame) (a : Word), HasTok f 0 s.cur.2.2 (.s a) → t.isOldest f.seq = true →
    let n := s.cur.2.2
    let clu := cluOf s.cur.1
    let turn := fun (i : Instr) (l : Nat) => (firedFrame s f (firedOp s f i l)).turn (firedOp s f i l) = true
    let asks := fun (i : Instr) (l : Nat) (x : PMsg) => ∀ c, turn i l →
      mapAt s clu t.ctx (a.toNat / 2 ^ 16 % 2 ^ 16) = .ok (s.mod.pkg, c) →
      ∃ (s' : State) (m : Msg), exec i s = .next s' ∧ s'.msg s.fresh = some m ∧ m.kind = .grantReq ∧ m.node = 9 + c ∧
        m.port = a.toNat % 64 ∧ m.pm = some x ∧ m.ctx = t.ctx ∧ m.src = .acc s.cur.1 f.seq n 0 ∧ s'.mem = s.mem ∧
        s'.frame s.cur.1 f.seq =
          some { f.fireAt n with ops := f.ops ++ [{ firedOp s f i l with stage := 2, aux := s.fresh + 1 }] }
    let odd := fun (i : Instr) (l : Nat) => turn i l →
      exec i s = .next (firedBad s f i (some l) 0x0A (n + 512 * 0x51 + 65536 * l + 2 ^ 21 * (a.toNat % 64)))
    (∀ (g : SendF) (b : Tok), Fires s g.p t f → HasTok f 1 n b → b ≠ .null → FreshAt f n (some g.lsid.toNat) →
      let words := if g.v = 1#1 then (List.range (g.wcm1.toNat + 1)).map fun j => bits b.vec (64 * j) 64 else [b.word]
      (a.toNat / 64 % 2 ^ 10 = 0 → a.toNat < 2 ^ 48 →
        (a.toNat < 2 ^ 32 → asks (.send g) g.lsid.toNat ⟨words, 0, false, t.spec.thid.toNat % 2048, 0⟩) ∧
        asks (.sendt g) g.lsid.toNat ⟨words, a.toNat / 2 ^ 32, true, t.spec.thid.toNat % 2048, 0⟩) ∧
      (a.toNat / 64 % 2 ^ 10 ≠ 0 ∨ 2 ^ 48 ≤ a.toNat → odd (.send g) g.lsid.toNat ∧ odd (.sendt g) g.lsid.toNat) ∧
      (2 ^ 32 ≤ a.toNat → odd (.send g) g.lsid.toNat)) ∧
    (∀ (g : LsF) (b : Word), Fires s g.p t f → HasTok f 1 n (.s b) → FreshAt f n (some g.lsid.toNat) →
      (turn (.portcfg g) g.lsid.toNat → a.toNat < 64 → ((s.clu clu).port a.toNat).owner = t.ctx → b.toNat < 2 ^ 27 → b.toNat / 32 % 2 ^ 11 = 0 →
        b.toNat / 4 % 4 ≠ 3 → exec (.portcfg g) s = .next (firedOk s f (.portcfg g) (some g.lsid.toNat))) ∧
      (turn (.portcfg g) g.lsid.toNat → ((s.clu clu).port (a.toNat % 64)).owner ≠ t.ctx → exec (.portcfg g) s =
        .next (firedBad s f (.portcfg g) (some g.lsid.toNat) 0x0A
          (n + 512 * 0x50 + 65536 * g.lsid.toNat + 2 ^ 21 * (a.toNat % 64)))) ∧
      (turn (.patclr g) g.lsid.toNat → a.toNat < 32 → ((s.clu clu).pat a.toNat).owner = t.ctx →
        exec (.patclr g) s = .next (firedOk s f (.patclr g) (some g.lsid.toNat))) ∧
      exec (.hend g) s = .next (firedOk s f (.hend g) (some g.lsid.toNat))) ∧
    (∀ (g : C3F) (b c : Word) (q : Nat), Fires s 0#2 t f → HasTok f 1 n (.s b) → HasTok f 2 n (.s c) →
      FreshAt f n (some g.lsid.toNat) → turn (.patset g) g.lsid.toNat → a.toNat < 32 →
      ((s.clu clu).pat a.toNat).owner = t.ctx → q < 64 →
      b = BitVec.ofNat 64 (2 ^ q) → ((s.clu clu).port q).owner = t.ctx → c.toNat < 2 ^ 31 → bits c 14 2 = 0#2 →
      bits c 16 8 ≠ 0#8 → (bits c 0 10).toNat < (s.ctx t.ctx).word 7 % 2 ^ 11 → (∀ e ∈ s.net, ∀ g, e.2.src ≠ .store g s.cur.1) →
      ∃ (s' : State) (m : Msg), exec (.patset g) s = .next s' ∧ s'.msg s.fresh = some m ∧ m.kind = .ucLoad ∧
        m.pa = (s.ctx t.ctx).word 6 % 2 ^ 56 / 16 * 16 + 16 * (bits c 0 10).toNat ∧ m.len = 16 ∧ s'.mem = s.mem ∧
        s'.frame s.cur.1 f.seq =
          some { f.fireAt n with ops := f.ops ++ [{ firedOp s f (.patset g) g.lsid.toNat with stage := 2, aux := s.fresh }] }) ∧
    (∀ g : GF, Fires s g.p t f → FreshAt f n none → a.toNat < 64 →
      let q := (s.clu clu).port a.toNat
      q.owner < 2 ^ 16 → q.drops < 2 ^ 16 → q.res.length ≤ 8 → q.pol < 4 → (kennelOf (s.clu clu) a.toNat).length < 2 ^ 24 →
      ∃ r : Word, exec (.portq g) s = .next (firedWith s f (.portq g) none (.s r)) ∧ r.toNat / 2 ^ 48 = q.owner ∧
        (q.owner ≠ t.ctx → r.toNat % 2 ^ 48 = 0) ∧
        (q.owner = t.ctx → r.toNat / 2 ^ 32 % 2 ^ 16 = q.drops ∧
          r.toNat / 256 % 2 ^ 24 = (kennelOf (s.clu clu) a.toNat).length ∧ r.toNat / 16 % 16 = q.res.length ∧
          r.toNat / 4 % 4 = q.pol ∧ r.getLsbD 1 = q.open_ ∧ r.getLsbD 0 = q.en))

/-- R329, R333: a request that reaches a port which does not accept its sender gets status 3; an accepted one is granted
with status 0 while fewer than 8 resident slots are held or granted and nothing is in the Kennel for the port; without
room it gets status 1 under DROP, 2 under FAULT, and waits under BLOCK. A SEND produces the status that returns. -/
def Clauses.GrantsFollowThePort : Prop :=
  (∀ (n clu : Nat) (s : State) (m : Msg) (k q slot : Nat), s.msg n = some m → m.kind = .grantReq → m.st = 0 →
    m.node = 9 + clu → m.src = .acc k q slot 0 →
    let c := s.clu clu
    let p := c.port m.port
    let accepts := p.en = true ∧ (p.open_ = true ∨ m.ctx = p.owner)
    let full := 8 ≤ p.res.length + p.granted.length ∧ p.waiting = [] ∧ p.klim = 0
    let status := fun (s' : State) (x : Nat) => exec (.grantRequest n) s = .next s' ∧
      s'.msg n = some { m with kind := .grantStatus, sub := x } ∧ s'.mem = s.mem ∧ s'.thrs = s.thrs
    (¬accepts → ∃ s', status s' 3 ∧ s'.clus = s.clus) ∧
    (accepts → p.waiting = [] → p.res.length + p.granted.length < 8 → c.kennel.ents = [] → p.kgranted = [] →
      ∃ s', status s' 0 ∧ (s'.clu clu).port m.port = { p with granted := p.granted ++ [n] }) ∧
    (accepts → full → p.pol = 1 → ∃ s', status s' 1 ∧ s'.clus = s.clus) ∧
    (accepts → full → p.pol = 2 → ∃ s', status s' 2 ∧ s'.clus = s.clus) ∧
    (accepts → full → p.pol = 0 →
      ∃ s', exec (.grantRequest n) s = .next s' ∧ s'.msg n = some { m with st := 1, t0 := BitVec.ofNat 64 s.fresh } ∧
        (s'.clu clu).port m.port = { p with waiting := [n] })) ∧
  (∀ (n k q slot : Nat) (s : State) (m : Msg) (f : Frame) (o : Op) (g : SendF), s.msg n = some m → m.kind = .grantStatus →
    m.st = 0 → m.src = .acc k q slot 0 → s.frame k q = some f → f.op slot = some o → o.i = .send g ∨ o.i = .sendt g →
    ∃ (s' : State) (f' : Frame), exec (.grantStatus n) s = .next s' ∧ s'.frame k q = some f' ∧ s'.mem = s.mem ∧
      f'.transit = (f.send [g.t0, g.t1] (.s (BitVec.ofNat 64 m.sub))).transit)

/-- R331, R333, R336: a granted message that arrives takes its resident slot with the next arrival number, and its signature
joins the port's. -/
def Clauses.MessageIsDelivered : Prop :=
  ∀ (n clu : Nat) (s : State) (m : Msg) (x : PMsg), s.net = [(n, m)] → m.kind = .deliver → m.node = 9 + clu →
    m.pm = some x → m.sub = 0 → ((s.clu clu).port m.port).en = true → (s.clu clu).kennel.ents = [] →
    ((s.clu clu).port m.port).kgranted = [] → (∀ p, ((s.clu clu).port p).waiting = []) →
    (x.tagged = true → ∀ y ∈ ((s.clu clu).port m.port).res, y.tagged = true → y.tag ≠ x.tag) →
    ∃ s', exec (.messageDelivery n) s = .next s' ∧ s'.net = [] ∧ s'.mem = s.mem ∧ s'.thrs = s.thrs ∧
      (s'.clu clu).arr = ((s.clu clu).arr + 1) % 2 ^ 32 ∧
      ((s'.clu clu).port m.port).res = ((s.clu clu).port m.port).res ++ [{ x with arr := (s.clu clu).arr }] ∧
      ((s'.clu clu).port m.port).granted = ((s.clu clu).port m.port).granted.filter (· != n) ∧
      ((s'.clu clu).port m.port).sig = ((s.clu clu).port m.port).sig.or (m.sig.getD Sig.empty)

/-- R339 to R343: the only enabled pattern of a cluster, on one port that holds one message, fires when its context runs
there and a grid of its pool has a free context: the message is consumed and its handler exists at the pattern's target
with the message's first word in g4 and the descriptor of R342 in g96; its fetch then starts with its leash. -/
def Obligations.PatternFires : Prop :=
  (∀ (clu e q k : Nat) (s : State) (m : PMsg), e < 32 →
    let c := s.clu clu
    let p := c.pat e
    (∀ i, i < 32 → i ≠ e → (c.pat i).en = false) → p.en = true → runningOn s p.owner clu = true → p.maxh = 0 →
    p.ports = [q] → p.tagMode = false → c.kennel.ents = [] → (c.port q).res = [m] → (∀ j, (c.port j).waiting = []) →
    allocate s clu p.width p.pool p.last = some k → p.wpp = 1 → m.words.length = 1 →
    ∃ (s' : State) (t : Thread), exec (.firing clu) s = .next s' ∧ s'.thr k = some t ∧ t.run = false ∧
      t.ctx = p.owner ∧ t.pc = p.target ∧ t.width = p.width ∧ t.pat = some (e, p.serial) ∧
      regCommitted t 0 4 = .s (m.words.getD 0 0) ∧
      (m.tag < 2 ^ 16 → m.sender < 2 ^ 12 → q < 64 → ∃ d : Word, regCommitted t 0 96 = .s d ∧ (bits d 0 16).toNat = m.tag ∧
        (bits d 16 12).toNat = m.sender ∧ (bits d 28 4).toNat = 1 ∧ d.getLsbD 32 = m.tagged ∧ (bits d 33 6).toNat = q) ∧
      ((s'.clu clu).port q).res = [] ∧ ((s'.clu clu).pat e).running = p.running + 1 ∧ s'.mem = s.mem) ∧
  (∀ (k : Nat) (s : State) (t : Thread) (h : Handler), s.thr k = some t → t.frames = [] →
    (s.clu (cluOf k)).handlers = [h] → h.thr = k →
    ∃ s', exec (.handlerFetchStart k) s = .next s' ∧
      s'.thr k = some { t with run := true, leash0 := s.cycThr k } ∧ (s'.clu (cluOf k)).handlers = [] ∧
      ((∀ e ∈ s.thrs, e.2.frames = []) → s'.mem = s.mem) ∧
      ∀ g ∈ coreGrids (gridOfThr k) t.width, ∀ y ∈ (s'.grid g).l1, y.cls ≠ 1 → h.sig.has y.line = false)

/-! ### Threads, width and packs -/

/-- R167, R168, R173 to R175, R400, R405, R406, R410: in the oldest block, SPAWN and SPAWNP with a valid descriptor for a
cluster of this package send their request. With a bad one they hold class 0x0D: code 0x10 for a number that is 0 or that, with those of
a pack, passes 0x7FFFFFFF; else 0x11 for reserved bits of c or of a; else 0x12 for a pool without an aligned set of the width, or, for
SPAWNP, a width other than 1 or fewer than two grids (that the codes go in this order is the model's choice, log 128). COMPOSE
produces the width it will have, 0 for a number that is no width, its present width when a grid it needs has another thread; DECOMP and
FOLLOW their result; UNFOLLOW, REJOIN and TEND mark their block. -/
def Obligations.ThreadInstructionsFire : Prop :=
  ∀ (s : State) (t : Thread) (f : Frame) (a : Word), HasTok f 0 s.cur.2.2 (.s a) → t.isOldest f.seq = true →
    let n := s.cur.2.2
    let width := fun (w : Nat) => w = 1 ∨ w = 2 ∨ w = 4 ∨ w = 8
    (∀ (g : SpawnF) (b c : Word), Fires s 0#2 t f → HasTok f 1 n (.s b) → HasTok f 2 n (.s c) →
      FreshAt f n (some g.lsid.toNat) →
      let thid := c.toNat / 2 ^ 32
      let pool := c.toNat / 256 % 256
      let grids := (List.range 8).filter pool.testBit
      let w := 2 ^ (c.toNat / 64 % 4)
      let plain := c.toNat % 16 = 0 ∧ a.toNat % 128 = 0
      let holdsSet := ∃ i, i < 8 / w ∧ ∀ j, j < w → pool.testBit (w * i + j) = true
      let number := 1 ≤ thid ∧ thid < 2 ^ 31
      let numbers := 1 ≤ thid ∧ thid + grids.length ≤ 2 ^ 31
      let asks := fun (i : Instr) => ∀ x, mapAt s (cluOf s.cur.1) t.ctx (c.toNat / 2 ^ 16 % 2 ^ 16) = .ok (s.mod.pkg, x) →
        ∃ (s' : State) (m : Msg), exec i s = .next s' ∧ s'.msg s.fresh = some m ∧ m.kind = .spawnReq ∧ m.node = 9 + x ∧
          m.src = .acc s.cur.1 f.seq n 0 ∧ s'.mem = s.mem ∧ s'.frame s.cur.1 f.seq =
            some { f.fireAt n with ops := f.ops ++ [{ firedOp s f i g.lsid.toNat with stage := 2, aux := s.fresh }] }
      let bad := fun (i : Instr) (code : Nat) => exec i s =
        .next (firedBad s f i (some g.lsid.toNat) 0x0D (n + 512 * code + 65536 * g.lsid.toNat))
      (number → plain → holdsSet → asks (.spawn g)) ∧
      (numbers → thid < 2 ^ 31 → plain → w = 1 → 2 ≤ grids.length → asks (.spawnp g)) ∧
      (thid = 0 ∨ 2 ^ 31 ≤ thid → bad (.spawn g) 0x10 ∧ bad (.spawnp g) 0x10) ∧
      (2 ^ 31 < thid + grids.length → bad (.spawnp g) 0x10) ∧
      (¬plain → (number → bad (.spawn g) 0x11) ∧ (numbers → thid < 2 ^ 31 → bad (.spawnp g) 0x11)) ∧
      (plain → (number → ¬holdsSet → bad (.spawn g) 0x12) ∧
        (numbers → thid < 2 ^ 31 → w ≠ 1 ∨ grids.length < 2 → bad (.spawnp g) 0x12))) ∧
    (∀ g : GF, Fires s g.p t f → FreshAt f n none →
      (¬width a.toNat → exec (.compose g) s = .next (firedWith s f (.compose g) none (.s 0)) ∧
        exec (.decomp g) s = .next (firedWith s f (.decomp g) none (.s 0))) ∧
      (width a.toNat → a.toNat ≤ t.width ∨ t.pack ≠ .none →
        exec (.compose g) s = .next (firedWith s f (.compose g) none (.s (BitVec.ofNat 64 t.width)))) ∧
      (width a.toNat → (∃ h ∈ coreGrids (gridOfThr s.cur.1) a.toNat, ∃ i, i < 4 ∧ 4 * h + i ≠ s.cur.1 ∧
          s.thr (4 * h + i) ≠ none) →
        exec (.compose g) s = .next (firedWith s f (.compose g) none (.s (BitVec.ofNat 64 t.width)))) ∧
      (width a.toNat → t.width < a.toNat → t.pack = .none →
        (∀ h ∈ coreGrids (gridOfThr s.cur.1) a.toNat, (s.grid h).held = none ∧ (s.grid h).leaving = none ∧
          ∀ i, i < 4 → 4 * h + i ≠ s.cur.1 → s.thr (4 * h + i) = none) →
        (s.clu (cluOf s.cur.1)).spawns = [] → (∀ d ∈ following s, d.2 ≠ s.cur.1) →
        ∃ (s' : State) (f' : Frame), exec (.compose g) s = .next s' ∧ s'.frame s.cur.1 f.seq = some f' ∧
          f'.transit = (f.send [g.t0, g.t1] (.s a)).transit ∧ s'.mem = s.mem ∧
          ∀ h ∈ coreGrids (gridOfThr s.cur.1) a.toNat, h ∉ coreGrids (gridOfThr s.cur.1) t.width →
            (s'.grid h).held = some s.cur.1) ∧
      (width a.toNat → exec (.decomp g) s = .next (firedWith s f (.decomp g) none
        (.s (if t.width ≤ a.toNat then BitVec.ofNat 64 t.width else a)))) ∧
      ((∀ e ∈ s.thrs, ¬(cluOf e.1 = cluOf s.cur.1 ∧ e.2.ctx = t.ctx ∧ e.2.spec.thid = a)) →
        exec (.follow g) s = .next (firedWith s f (.follow g) none (.s 0))) ∧
      (∀ (j : Nat) (u : Thread), s.thrs = [(j, u), (s.cur.1, t)] → cluOf j = cluOf s.cur.1 → gridOfThr j ≠ gridOfThr s.cur.1 →
        u.ctx = t.ctx → u.spec.thid = a → u.pack = .none → u.width = 1 → t.width = 1 → t.pack = .none →
        following s = [] → (∀ i, i < 8 → (s.grid (8 * cluOf j + i)).held = none) →
        ∃ (s' : State) (f' : Frame), exec (.follow g) s = .next s' ∧ s'.frame s.cur.1 f.seq = some f' ∧
          f'.transit = (f.send [g.t0, g.t1] (.s 1)).transit ∧ s'.mem = s.mem ∧ s'.thr j = some u)) ∧
    (∀ g : PF, Fires s g.p t f → FreshAt f n none →
      exec (.unfollow g) s = .next (firedOk s f (.unfollow g) none) ∧
      (t.pack ≠ .leader → exec (.rejoin g) s = .next (firedOk s f (.rejoin g) none))) ∧
    (∀ g : LsF, Fires s g.p t f → FreshAt f n (some g.lsid.toNat) →
      exec (.tend g) s = .next (firedOk s f (.tend g) (some g.lsid.toNat)))

/-- R399 to R401, R405: a spawn request with a grid of its pool free and no pattern to fire is granted the first free context
after the grid granted last, and answered with the thread number of its descriptor; without a free context it is queued
behind at most 15 others, and a seventeenth is answered 0. The answer is the instruction's result. A queued request is
granted when it is the only one and its context runs there. -/
def Clauses.SpawnRequestsAreGranted : Prop :=
  (∀ (n clu k q slot : Nat) (s : State) (m : Msg) (t : Thread) (f : Frame) (o : Op) (g : SpawnF), s.msg n = some m →
    m.kind = .spawnReq → m.node = 9 + clu → m.src = .acc k q slot 0 → s.thr k = some t → s.frame k q = some f →
    f.op slot = some o → o.i = .spawn g → arbitrate s clu = none →
    let d := o.c.word
    let thid := d.toNat / 2 ^ 32
    (∀ h, spawnGrant s clu false d = some [h] →
      ∃ (s' : State) (x : Spawn), exec (.spawnRequest n) s = .next s' ∧
        s'.msg n = some { m with kind := .spawnAns, sub := thid } ∧ s'.mem = s.mem ∧ s'.thrs = s.thrs ∧
        tget (s'.clu clu).spawns (s.clu clu).nextSpawn = some x ∧ x.got = [h] ∧ x.firm = false ∧ x.arg = o.b.word ∧
        x.entry = regDest f o.a.word ∧ x.ctx = t.ctx) ∧
    (spawnGrant s clu false d = none → (spawnQueue (s.clu clu)).length < 16 →
      ∃ (s' : State) (x : Spawn), exec (.spawnRequest n) s = .next s' ∧
        s'.msg n = some { m with kind := .spawnAns, sub := thid } ∧
        tget (s'.clu clu).spawns (s.clu clu).nextSpawn = some x ∧ x.got = []) ∧
    (spawnGrant s clu false d = none → 16 ≤ (spawnQueue (s.clu clu)).length →
      ∃ s', exec (.spawnRequest n) s = .next s' ∧ s'.msg n = some { m with kind := .spawnAns, sub := 0 } ∧
        s'.clus = s.clus)) ∧
  (∀ (n k q slot : Nat) (s : State) (m : Msg) (f : Frame) (o : Op), s.msg n = some m → m.kind = .spawnAns →
    m.src = .acc k q slot 0 → s.frame k q = some f → f.op slot = some o →
    ∃ (s' : State) (f' : Frame), exec (.spawnAnswer n) s = .next s' ∧ s'.frame k q = some f' ∧ s'.mem = s.mem ∧
      f'.transit = (f.send o.i.targets (.s (BitVec.ofNat 64 m.sub))).transit) ∧
  (∀ (clu i h : Nat) (s : State) (x : Spawn), arbitrate s clu = none → (s.clu clu).spawns = [(i, x)] → x.got = [] →
    x.pack = false → runningOn s x.ctx clu = true → spawnGrant s clu false x.desc = some [h] →
    ∃ (s' : State) (y : Spawn), exec (.spawnQueueGrant clu) s = .next s' ∧ tget (s'.clu clu).spawns i = some y ∧
      y.got = [h] ∧ s'.mem = s.mem ∧ s'.thrs = s.thrs)

/-- R395, R396, R407: a granted and firm spawn creates its thread at its entry, with the argument in g4, the parent's number in
g5, its own number and the streams of its parent's seed, and the spawn's signature applied in its grid. -/
def Clauses.SpawnedThreadIsCreated : Prop :=
  ∀ (clu i h : Nat) (s : State) (x : Spawn), tget (s.clu clu).spawns i = some x → x.got = [h] → x.firm = true →
    x.pack = false → runningOn s x.ctx clu = true → s.thr h = none → x.desc.toNat / 64 % 4 = 0 →
    ∃ (s' : State) (t : Thread), exec (.threadCreation clu i) s = .next s' ∧ s'.thr h = some t ∧ t.run = true ∧
      t.ctx = x.ctx ∧ t.gen = x.gen ∧ t.pc = x.entry ∧ t.width = 1 ∧ t.pack = .none ∧ t.frames = [] ∧
      regCommitted t 0 4 = .s x.arg ∧ regCommitted t 0 5 = .s x.parent.thid ∧ regCommitted t 0 6 = .s 0 ∧
      t.spec.thid.toNat = x.desc.toNat / 2 ^ 32 ∧ t.spec.jseed = x.parent.jseed ∧
      t.spec.srkey = srkeyOf x.parent.jseed t.spec.thid ∧ t.spec.tstat = x.parent.tstat &&& 1#64 ∧
      t.spec.leash = x.parent.leash ∧ t.leash0 = s.gridCyc (h / 4) ∧
      ((∀ e ∈ s.thrs, e.2.frames = []) → s'.mem = s.mem ∧ ∀ j, j ≠ h → s'.thr j = s.thr j) ∧
      ∀ y ∈ (s'.grid (h / 4)).l1, y.cls ≠ 1 → x.sig.has y.line = false

/-- R167, R168, R145, R174: a grid that a core has given up, with no block on it and nothing to drain, hands its pending
signature to grid 0 of the core and is free. A leader's REJOIN resolves when its limit has passed or none of its members
is Stray, and waits before: each Waiting member at the leader's next block follows it, each Waiting member elsewhere is Stray, and every
other thread, a Stray member too, stays as it is. -/
def Obligations.GridsReturnAndRejoinsResolve : Prop :=
  (∀ (k g : Nat) (s : State) (t : Thread), s.thr k = some t → t.frames = [] → (s.grid g).leaving = some (k, t.ser) →
    cluOfGrid g = cluOf k → (∀ h, h ≠ g → ∀ e, (s.grid h).leaving = some e → e.1 ≠ k) → (s.grid g).l1 = [] → (s.grid g).wtq = [] →
    s.net = [] → g ≠ coreGrid0 (gridOfThr k) t.width →
    ∃ s', exec (.gridReturn k) s = .next s' ∧ (s'.grid g).leaving = none ∧ (s'.grid g).pend = Sig.empty ∧
      (s'.grid (coreGrid0 (gridOfThr k) t.width)).pend =
        (s.grid (coreGrid0 (gridOfThr k) t.width)).pend.or (s.grid g).pend ∧ s'.mem = s.mem ∧ s'.thrs = s.thrs) ∧
  (∀ (k l : Nat) (t0 : Word) (s : State) (t : Thread), tabWf s.thrs = true → s.thr k = some t → t.pack = .leader →
    t.rejoin = some (l, t0) →
    let waits := (∃ j u, s.thr j = some u ∧ u.pack = .stray k) ∧ (s.cycThr k - t0).toNat < l
    (waits → exec (.rejoinResolve k) s = .next s) ∧
    (¬waits → ∃ s', exec (.rejoinResolve k) s = .next s' ∧ s'.thr k = some { t with rejoin := none } ∧ s'.mem = s.mem ∧
      ∀ j u, j ≠ k → s.thr j = some u →
        (u.pack = .waiting k → u.pc = t.pc → s'.thr j = some { u with pack := .following k, pos := t.pos }) ∧
        (u.pack = .waiting k → u.pc ≠ t.pc → s'.thr j = some { u with pack := .stray k }) ∧
        (u.pack ≠ .waiting k → s'.thr j = some u)))

/-! ### Blocks and translations -/

/-- R203, R204: codes of the block check, with the `efault` each gives. In the header pass a wrong MARK comes before a set reserved
bit, and that before a misaligned address. With a sound header, the first slot that is not empty decides: an opcode of zero is
0x0B, an undefined opcode or xop the reserved-instruction code, a wide instruction at a last slot of its row 0x09, a word that the
decoder rejects the reserved-instruction code; PRED = 01 of an instruction without targets is 0x08. -/
def Clauses.BlockCheckCodes : Prop :=
  ∀ (addr : VAddr) (sup : Bool) (h ws : List Slot32) (rsv : Slot32 → Slot32 → Bool),
    let h0 := (wordAt h 0).toNat
    let reserved := h0 % 2 ^ 18 ≠ 0 ∨ ∃ j, j < 22 ∧ (let w := (wordAt h (10 + j)).toNat
      (w / 2 ^ 31 = 1 ∧ w / 2 ^ 26 % 32 ≠ 0) ∨ (w / 2 ^ 31 ≠ 1 ∧ w ≠ 0))
    let first := fun (i : Nat) (e : Nat) =>
      (∀ c, checkHeader addr sup h c = none) → i < ws.length → i < 128 → (∀ j, j < i → wordAt ws j = 0) → mapCheck addr sup h ws rsv = some e
    (h0 / 2 ^ 24 ≠ 0xA5 → mapCheck addr sup h ws rsv = some 0x200) ∧
    (h0 / 2 ^ 24 = 0xA5 → reserved → mapCheck addr sup h ws rsv = some 0x400) ∧
    (h0 / 2 ^ 24 = 0xA5 → ¬reserved → addr.toNat % 128 ≠ 0 → mapCheck addr sup h ws rsv = some 0x600) ∧
    (∀ i, let w := wordAt ws i
      (w ≠ 0 → w.toNat / 2 ^ 25 = 0 → first i (i + 512 * 0x0B)) ∧
      (w.toNat / 2 ^ 25 ≠ 0 → xopDefined w = false → first i i) ∧
      (w.toNat / 2 ^ 25 ≠ 0 → xopDefined w = true → isWide w = true → i % 16 = 15 → first i (i + 512 * 0x09)) ∧
      (w.toNat / 2 ^ 25 ≠ 0 → (isWide w = true → i % 16 ≠ 15 ∧ i + 1 < ws.length) → rsv w (wordAt ws (i + 1)) = true → first i i) ∧
      (w.toNat / 2 ^ 25 ≠ 0 → (isWide w = true → i % 16 ≠ 15 ∧ i + 1 < ws.length) → rsv w (wordAt ws (i + 1)) = false →
        xopDefined w = true → targetsOf w (wordAt ws (i + 1)) = [] → w.toNat / 2 ^ 23 % 4 = 1 → first i (i + 512 * 0x08)))

/-- R48, R162 to R166, R183, R197, R203 to R205: a running thread with no block in flight and a free frame takes one at its
next block address, refused at once when that is not a multiple of 128; its next chunk, when the block cache lacks it, is
asked for with two line requests; the chunk is the words of the two lines that come; a complete block is mapped, its read
entries to be sent, or refused as R203 finds; a token that reaches its target is kept, and a second one is a collision; a
read entry sends its register's value. -/
def Clauses.BlocksAreFetchedAndMapped : Prop :=
  (∀ (k e : Nat) (s : State) (t : Thread), s.thrs = [(k, t)] → t.frames = [] → t.run = true → t.stop = false →
    t.rejoin = none → t.post = .idle → t.pack = .none → t.width = 1 ∨ t.width = 2 ∨ t.width = 4 ∨ t.width = 8 →
    ∃ (s' : State) (t' : Thread) (f : Frame), exec (.blockFetch k e) s = .next s' ∧ s'.thr k = some t' ∧ s'.mem = s.mem ∧
      t' = { t with frames := [f], nextSeq := t.nextSeq + 1, ret := t'.ret } ∧ f.addr = t.pc ∧ f.seq = t.nextSeq ∧
      f.stage = 0 ∧ f.width = t.width ∧ f.sup = t.spec.tstat.getLsbD 0 ∧ f.chunks = [] ∧
      (t.pc.toNat % 128 = 0 → f.refused = none) ∧ (t.pc.toNat % 128 ≠ 0 → f.refused = some 0x600)) ∧
  (∀ (k e pa cls kind : Nat) (d : Bool) (s : State) (t : Thread) (f : Frame), s.thr k = some t → t.frames = [f] →
    f.stage = 0 → f.refused = none → f.lead = none → f.chunks = [] → f.missing = [] → f.fails = [] →
    let g := coreGrid0 (gridOfThr k) f.width
    translate s t.ctx f.sup (some g) (cluOf k) 2 f.addr.toNat = .ok pa cls kind d → tget (s.grid g).bc (pa / 64) = none →
    (s.grid g).fetchReg.length < 7 →
    ∃ (s' : State) (f' : Frame) (m n : Msg), exec (.blockFetch k e) s = .next s' ∧ s'.frame k f.seq = some f' ∧
      f'.missing = [(0, [s.fresh, s.fresh + 1])] ∧ s'.msg s.fresh = some m ∧ s'.msg (s.fresh + 1) = some n ∧
      m.pa = pa / 64 * 64 ∧ n.pa = pa / 64 * 64 + 64 ∧ m.kind = .ownLoad ∧ n.kind = .ownLoad ∧ s'.mem = s.mem ∧
      (s'.grid g).fetchReg = (s.grid g).fetchReg ++ [s.fresh, s.fresh + 1]) ∧
  (∀ (k q c n n' : Nat) (s : State) (f : Frame) (m m' : Msg), s.frame k q = some f → f.missing = [(c, [n, n'])] → n ≠ n' →
    s.msg n = some m → s.msg n' = some m' → m.kind = .reply → m'.kind = .reply → m.poison = 0 → m'.poison = 0 →
    m.data.length = 64 → m'.data.length = 64 → (s.ctx m.ctx).gen = m.gen → (s.ctx m'.ctx).gen = m'.gen →
    ∃ (s' : State) (f' : Frame) (ws : List Slot32), exec (.blockChunkArrival k q c) s = .next s' ∧
      s'.frame k q = some f' ∧ s'.mem = s.mem ∧ f'.missing = [] ∧ f'.poisoned = f.poisoned ∧
      tget f'.chunks c = some ws ∧ ws.length = 32 ∧
      ∀ i, i < 32 → ∀ b, b < 4 →
        some (some (bits (wordAt ws i) (8 * b) 8)) = ((m.data ++ m'.data).map fun x => some (x.getD 0))[4 * i + b]?) ∧
  (∀ (k q : Nat) (s : State) (t : Thread) (f : Frame) (h : List Slot32), Solo s k t → t.frames = [f] → f.seq = q → f.stage = 0 →
    f.refused = none → f.fails = [] → f.poisoned = false → tget f.chunks 0 = some h → h ≠ [] →
    (∀ c, c ≤ (bits (wordAt h 0) 22 2).toNat + 1 → tget f.chunks c ≠ none) →
    exec (.blockMap k q) s = .next (s.modFrame k q fun _ => { f with
      stage := 1
      unread := (rdEntries h).map (·.1)
      refused := (mapCheck f.addr f.sup h f.words isReserved).map (BitVec.ofNat 64)
      cyc := s.cycThr k })) ∧
  (∀ (k q : Nat) (s : State) (t : Thread) (f : Frame) (x : Nat × Tok) (r : List (Nat × Tok)), s.thr k = some t →
    t.frames = [f] → f.seq = q → f.transit = x :: r →
    (tget f.toks x.1 = none → ∃ (s' : State) (f' : Frame), exec (.tokenArrival k q 0) s = .next s' ∧
      s'.frame k q = some f' ∧ f' = { f with transit := r, toks := f'.toks } ∧ tget f'.toks x.1 = some x.2 ∧
      (∀ j, j ≠ x.1 → tget f'.toks j = tget f.toks j) ∧ s'.mem = s.mem) ∧
    (tget f.toks x.1 ≠ none → exec (.tokenArrival k q 0) s = .next (s.modFrame k q fun _ => { f with
      transit := r
      colls := f.colls ++ [if 384 ≤ x.1 then (0x21, x.1 % 128 + 384) else (0x20, x.1 % 128)] }))) ∧
  (∀ (k j r t0 t1 : Nat) (s : State) (t : Thread) (f : Frame), s.thr k = some t → t.frames = [f] → f.stage = 1 →
    f.refused = none → f.transit = [] → f.unread = [j] → (j, r, t0, t1) ∈ rdEntries f.hdr →
    exec (.tokenArrival k f.seq 0) s = .next (s.modFrame k f.seq fun _ => { f with
      unread := []
      transit := ([t0, t1].filter (· ≠ 0x1FF)).map fun n => (n, regCommitted t f.cyc r) }))

/-- The statement of `Clauses.BlockCheckCodes`, `Clauses.BlocksAreFetchedAndMapped`: each part says with its rules what it covers. -/
def Obligations.BlocksComeIn : Prop := Clauses.BlockCheckCodes ∧ Clauses.BlocksAreFetchedAndMapped

/-- R10, R12, R13, R16, R24, R472: an address below the window regions goes through the TLBs: a privileged page fails with
cause 3 outside supervisor mode, then a missing W with cause 1 or X with cause 2, then an unpopulated page with cause 5,
and else the page's base and the offset in it are its physical address. The vault window names the executing cluster's
vault, the system window needs supervisor mode, regions 0xF3 to 0xFE fail with cause 6. That the causes 1, 2 and 3 record the leaf's
level is the model's choice (log 112). -/
def Clauses.TranslationChecks : Prop :=
  ∀ (s : State) (ctx clu need va : Nat) (sup : Bool) (g : Option Nat) (r : Tr), r = translate s ctx sup g clu need va →
    let region := va / 2 ^ 72 % 256
    (∀ e, region < 0xF0 → tlbGet s g clu ctx (pageOf va) = some e →
      (e.p = true → sup = false → r = .fail 3 e.lvl) ∧
      (¬(e.p = true ∧ sup = false) → (need = 1 → e.w = false → r = .fail 1 e.lvl) ∧ (need = 2 → e.x = false → r = .fail 2 e.lvl)) ∧
      (¬(e.p = true ∧ sup = false) → ¬(need = 1 ∧ e.w = false) → ¬(need = 2 ∧ e.x = false) →
        let pa := e.pa + va % 2 ^ (16 + leafShift e.lvl)
        ((populated s.mod.cxl (pa / 2 ^ 16 * 2 ^ 16) = false ∨ s.mod.presence.getLsbD (pa / 2 ^ 50 % 64) = false) →
          r = .fail 5 e.lvl) ∧
        (populated s.mod.cxl (pa / 2 ^ 16 * 2 ^ 16) = true → s.mod.presence.getLsbD (pa / 2 ^ 50 % 64) = true →
          r = .ok pa (e.cls + 1) e.kind e.d))) ∧
    (region < 0xF0 → tlbGet s g clu ctx (pageOf va) = none → r = .miss) ∧
    (0xF3 ≤ region → region ≤ 0xFE → r = .fail 6 0) ∧
    (region = 0xF0 → need ≠ 2 → va / 2 ^ 23 % 2 ^ 49 = 0 →
      r = .ok (s.mod.pkg * 2 ^ 50 + 2 ^ 49 + clu / 80 * 2 ^ 30 + clu % 80 * 2 ^ 23 + va % 2 ^ 23) 4 3 true) ∧
    (region = 0xFF → need ≠ 2 → (sup = false → r = .fail 3 0) ∧
      (sup = true → va / 2 ^ 56 % 2 ^ 16 = 0 → r = .ok (va % 2 ^ 56) 4 4 true))

/-- R22, R26 to R36: a miss that no TLB serves takes a walk slot, at once or from its cluster's queue, and reads the root
table's entry for its page; a walk-cache entry moves a walk to the next level's table; a valid leaf fills the TLBs with
its page, permissions and physical base and ends the walk, and an invalid entry ends it without a translation; an update
of A and D that found the entry as it was read ends it too. No thread is waiting. -/
def Clauses.WalksReadTheTables : Prop :=
  (∀ (clu st : Nat) (s : State) (m : Miss), (s.clu clu).misses = [m] → m.st = st → m.gen = (s.ctx m.ctx).gen →
    (s.die (dieOf clu)).walks = [] → (s.die (dieOf clu)).wcache = [] → tlbGet s none clu m.ctx m.page = none →
    let root := (s.ctx m.ctx).word 0 / 2 ^ 16 % 2 ^ 40 * 2 ^ 16
    let pa := root + 8 * (m.page / 2 ^ 52 % 4096)
    populated s.mod.cxl pa = true → s.mod.presence.getLsbD (pa / 2 ^ 50 % 64) = true →
    ∀ i, (st = 0 ∧ i = Instr.walkStart clu 0) ∨ (st = 1 ∧ i = Instr.walkSlotGrant clu) →
    ∃ (s' : State) (w : Walk) (x : Msg), exec i s = .next s' ∧ tget (s'.die (dieOf clu)).walks 0 = some w ∧ w.lvl = 1 ∧
      w.page = m.page ∧ w.ctx = m.ctx ∧ w.clus = [clu] ∧ w.msg = some s.fresh ∧ s'.msg s.fresh = some x ∧
      x.kind = .ucLoad ∧ x.pa = pa ∧ x.len = 8 ∧ (s'.clu clu).misses = [{ m with st := 2 }] ∧ s'.mem = s.mem) ∧
  (∀ (die j e : Nat) (s : State) (w : Walk), tget (s.die die).walks j = some w → w.msg = none → w.leaf = none → w.lvl < 5 →
    (s.die die).wcache = [((w.ctx, w.lvl, lvlTag w.page w.lvl), e)] → e.testBit 0 = true → e < 2 ^ 56 →
    e.testBit 11 = false → tabWf (s.die die).walks = true →
    let pa := e / 2 ^ 16 * 2 ^ 16 + 8 * lvlIndex w.page (w.lvl + 1)
    populated s.mod.cxl pa = true → s.mod.presence.getLsbD (pa / 2 ^ 50 % 64) = true →
    ∃ (s' : State) (w' : Walk) (x : Msg), exec (.walkCacheHit die j) s = .next s' ∧ tget (s'.die die).walks j = some w' ∧
      w'.lvl = w.lvl + 1 ∧ w'.msg = some s.fresh ∧ s'.msg s.fresh = some x ∧ x.kind = .ucLoad ∧ x.pa = pa ∧ s'.mem = s.mem) ∧
  (∀ (die j n e clu : Nat) (s : State) (w : Walk) (m : Msg) (c : Miss) (i : Instr), (s.die die).walks = [(j, w)] →
    w.msg = some n → s.msg n = some m → m.kind = .reply → m.data.length = 8 → leNat (m.data.map (·.getD 0)) = e →
    w.clus = [clu] → w.real = [clu] → (s.clu clu).misses = [c] → c.ctx = w.ctx → c.page = w.page → c.gen = w.gen → c.st = 2 →
    s.thrs = [] → w.lvl = 5 →
    let valid := e.testBit 0 = true ∧ e < 2 ^ 56 ∧ e.testBit 11 = true ∧ e / 256 % 8 < 3 ∧ paKind (e / 2 ^ 16 * 2 ^ 16) < 2 ∧
      populated s.mod.cxl (e / 2 ^ 16 * 2 ^ 16) = true ∧ s.mod.presence.getLsbD (e / 2 ^ 50) = true
    ((w.leaf = none ∧ i = .walkEntryRead die j ∧ e.testBit 1 = true ∧ (w.setD = true → w.w = true → e.testBit 2 = true)) ∨
      (∃ d, w.leaf = some (e, d) ∧ i = .accessedDirtyUpdate die j ∧ (d = 1 ∨ (d = 0 ∧ w.setD = false)) ∧ valid)) →
    ∃ s', exec i s = .next s' ∧ (s'.die die).walks = [] ∧ (s'.clu clu).misses = [] ∧ s'.mem = s.mem ∧
      (valid →
        ∃ x r, (s'.clu clu).tlb = x :: r ∧ x.ctx = w.ctx ∧ x.page = w.page ∧ x.pa = e / 2 ^ 16 * 2 ^ 16 ∧
          x.w = (w.w && e.testBit 3) ∧ x.x = (w.x && e.testBit 4) ∧ x.p = (w.p || e.testBit 5) ∧ x.cls = e / 64 % 4 ∧
          x ∈ (s'.die die).stlb) ∧
      (w.leaf = none → e.testBit 0 = false → (s'.clu clu).tlb = (s.clu clu).tlb))

/-! ### Homes, copies and vaults -/

/-- R89 to R93, R101: at its home, a line whose copies need no recall is given out: to an own load shared, with its bytes and
its grid among the owners; to an ownership request exclusively; to a write-through or self-managed load with its grid among
the self-managed copies; an uncached load takes the bytes it names. A store's bytes are merged, its signature is found by the
next reader of its granule, and a write-back's bytes are merged. A line that a grid owns is recalled from it first. -/
def Clauses.HomeServesRequests : Prop :=
  ∀ (n : Nat) (s : State) (m : Msg), AtHome s n m →
    let line := lineOf m.pa
    let g := (m.agent - 1) % 640
    let d := s.dir 0 line
    let whole := (mread s.mem (64 * line) 64).map some
    (HasReg s n m → m.kind = .ownLoad → m.wr = false → d.st ≠ .e →
      ∃ s' m', exec (.ownLoadMiss n) s = .next s' ∧ s'.msg n = some m' ∧ m'.kind = .reply ∧ m'.pa = 64 * line ∧ m'.sub = 2 ∧
        m'.data = whole ∧ (s'.dir 0 line).st = .s ∧ g ∈ (s'.dir 0 line).own.members ∧
        (∀ a ∈ d.own.members, a ∈ (s'.dir 0 line).own.members) ∧ s'.mem = s.mem) ∧
    (HasReg s n m → m.kind = .ownership → Untracked d →
      ∃ s' m', exec (.ownershipRequest n) s = .next s' ∧ s'.msg n = some m' ∧ m'.kind = .reply ∧ m'.pa = 64 * line ∧
        m'.sub = 1 ∧ m'.data = whole ∧ (s'.dir 0 line).st = .e ∧ (s'.dir 0 line).owner = g ∧
        (s'.dir 0 line).self = d.self ∧ s'.mem = s.mem) ∧
    (HasReg s n m → m.kind = .wtSiLoad → m.wr = false → d.st ≠ .e →
      ∃ s' m', exec (.wtSiLoadMiss n) s = .next s' ∧ s'.msg n = some m' ∧ m'.kind = .reply ∧ m'.pa = 64 * line ∧ m'.sub = 2 ∧
        m'.data = whole ∧ g ∈ (s'.dir 0 line).self.members ∧ (s'.dir 0 line).own = d.own ∧ s'.mem = s.mem) ∧
    (HasReg s n m → m.kind = .ucLoad → m.wr = false → d.st ≠ .e →
      ∃ s' m', exec (.ucLoad n) s = .next s' ∧ s'.msg n = some m' ∧ m'.kind = .reply ∧ m'.pa = m.pa ∧
        m'.data = (mread s.mem m.pa m.len).map some ∧ s'.dirs = s.dirs ∧ s'.mem = s.mem) ∧
    (HasReg s n m → m.kind = .wtUcStore → Untracked d → 0 < m.len → Memory.wf s.mem = true →
      ∃ s' m', exec (.wtUcStore n) s = .next s' ∧ s'.msg n = some m' ∧ m'.kind = .ack ∧ Stored s s' m.pa m.data ∧
        s'.dirs = s.dirs ∧ ∀ x l, m.sig = some x → x.has l = true → (s'.sigFor m.pa).has l = true) ∧
    (m.kind = .siWb → HasReg s n m ∨ m.isStore = false → Untracked d → Memory.wf s.mem = true →
      ∃ s' m', exec (.siWriteBack n) s = .next s' ∧ s'.msg n = some m' ∧ m'.kind = .ack ∧ Stored s s' m.pa m.data ∧
        s'.dirs = s.dirs) ∧
    (m.kind = .ownWb → m.sub = 1 → d.st = .e → d.owner = g → Memory.wf s.mem = true →
      ∃ s' m', exec (.siWriteBack n) s = .next s' ∧ s'.msg n = some m' ∧ m'.kind = .ack ∧ Stored s s' m.pa m.data ∧
        (s'.dir 0 line).st = .s ∧ g ∈ (s'.dir 0 line).own.members) ∧
    (∀ i, HasReg s n m → d.st = .e → d.own.members = [] → s.fresh ≠ n →
      (m.kind = .ownLoad ∧ m.wr = false ∧ i = Instr.ownLoadMiss n) ∨ (m.kind = .ownership ∧ i = Instr.ownershipRequest n) →
      ∃ s' m' r, exec i s = .next s' ∧ s'.msg n = some m' ∧ m'.kind = m.kind ∧ m'.st = 2 ∧ s'.msg s.fresh = some r ∧
        r.kind = .recall ∧ r.agent = d.owner ∧ r.par = n ∧ r.pa = 64 * line ∧ r.wr = (m.kind == .ownership) ∧
        s'.dirs = s.dirs ∧ s'.mem = s.mem)

/-- R46, R91: a recall that reaches a grid takes its line away, or downgrades it to a shared one, and its dirty bytes go with the
acknowledgement; a grid without the line only acknowledges. The acknowledgement of a downgraded owner gives the home its
bytes and the waiting own load is performed: both grids then share the line. -/
def Clauses.RecallsTakeCopies : Prop :=
  (∀ (n : Nat) (s : State) (m : Msg), s.net = [(n, m)] → m.kind = .recall → m.st = 0 → m.agent < 640 →
    let line := lineOf m.pa
    let g := agentGrid m.node line m.agent
    (∀ e ∈ s.thrs, cluOf e.1 ≠ cluOfGrid g) → (s.grid g).wb.length < 8 →
    ((s.grid g).line line = none → ∃ s' m', exec (.recallReach n) s = .next s' ∧ s'.msg n = some m' ∧ m'.kind = .recallAck ∧
      m'.data = [] ∧ (s'.grid g).l1 = (s.grid g).l1 ∧ s'.mem = s.mem) ∧
    (∀ y, (s.grid g).line line = some y → y.cls = 1 → m.takes % 2 = 1 → m.wr = true →
      ∃ s' m', exec (.recallReach n) s = .next s' ∧ s'.msg n = some m' ∧ m'.kind = .recallAck ∧
        m'.data = (if y.dirty = 0#4 then [] else dirtyBytes y) ∧ (s'.grid g).line line = none ∧
        (∀ l, l ≠ line → (s'.grid g).line l = (s.grid g).line l) ∧ s'.mem = s.mem) ∧
    (∀ y, (s.grid g).line line = some y → y.excl = true → m.wr = false →
      ∃ s' m', exec (.recallReach n) s = .next s' ∧ s'.msg n = some m' ∧ m'.kind = .recallAck ∧
        m'.data = (if y.dirty = 0#4 then [] else dirtyBytes y) ∧
        (s'.grid g).line line = some { y with excl := false, dirty := 0#4 } ∧ s'.mem = s.mem)) ∧
  (∀ (n p : Nat) (s : State) (m q : Msg), n ≠ p → s.net = [(p, q), (n, m)] → m.kind = .recallAck → m.st = 0 → m.par = p →
    m.agent < 640 → m.takes = 1 → m.wr = false → lineOf m.pa = lineOf q.pa → q.kind = .ownLoad → q.st = 2 → q.node = 0 →
    q.wr = false → 1 ≤ q.agent → (q.agent - 1) / 640 = homeDie q.pa → q.src.outside = false → paPkg q.pa = s.mod.pkg →
    s.queue (lineOf q.pa) = [p] → lineOf q.pa ∈ s.l2 → s.resvs = [] → (s.dir 0 (lineOf q.pa)).st = .e →
    (s.dir 0 (lineOf q.pa)).owner = m.agent → Memory.wf s.mem = true →
    let line := lineOf q.pa
    ∃ s' q', exec (.recallAck n) s = .next s' ∧ s'.msg n = none ∧ s'.msg p = some q' ∧ q'.kind = .reply ∧ q'.sub = 2 ∧
      Stored s s' (64 * line) m.data ∧ q'.data = (mread s'.mem (64 * line) 64).map some ∧ (s'.dir 0 line).st = .s ∧
      m.agent ∈ (s'.dir 0 line).own.members ∧ (q.agent - 1) % 640 ∈ (s'.dir 0 line).own.members)

/-- R47, R52, R57, R62, R64, R101, R279: a fill brings a line into a home slice with room, at the most recently used place of its set
or, for a no-allocate page, at the least, and performs the request that waited for it. A reply installs its line in the L1, frees its miss register and gives the load that waits for it its bytes, under those
of older stores. An acknowledgement leaves every list that counted it. A committed store that waits takes a free register. -/
def Clauses.RepliesReachTheirGrid : Prop :=
  (∀ (n : Nat) (s : State) (m : Msg), s.net = [(n, m)] → m.kind = .ownLoad → m.st = 1 → m.node = 0 → m.wr = false →
    1 ≤ m.agent → (m.agent - 1) / 640 = homeDie m.pa → m.src.outside = false → s.queue (lineOf m.pa) = [n] →
    lineOf m.pa ∉ s.l2 → s.resvs = [] → (s.dir 0 (lineOf m.pa)).st ≠ .e → (s.dir 0 (lineOf m.pa)).st ≠ .eo →
    paPkg m.pa = s.mod.pkg → (l2Set s 0 (lineOf m.pa)).length < 16 →
    ∃ s' m', exec (.memoryFill 0 (lineOf m.pa)) s = .next s' ∧
      s'.l2 = (if m.noAlloc then lineOf m.pa :: s.l2 else s.l2 ++ [lineOf m.pa]) ∧ s'.msg n = some m' ∧
      m'.kind = .reply ∧ s'.mem = s.mem) ∧
  (∀ (n v k : Nat) (s : State) (m : Msg) (t : Thread) (f : Frame) (o : Op) (p : Part) (x : Acc) (l pa : Nat),
    s.msg n = some m → m.kind = .reply → m.sub = 2 → m.takes = 0 → 1 ≤ m.agent → m.src = .acc k f.seq o.slot 0 →
    (s.ctx m.ctx).gen = m.gen → m.data.length = 64 → m.poison = 0 → m.pa = 64 * lineOf pa →
    ((s.grid (m.agent - 1)).setOf (lineOf pa)).length < 8 → (s.grid (m.agent - 1)).line (lineOf pa) = none →
    s.thrs = [(k, t)] → t.frames = [f] → f.ops = [o] → o.parts = [p] → p.st = .sent n → p.pa = some pa → p.kind = 0 → p.off = 0 →
    p.len = x.size → pa % 64 + p.len ≤ 64 → o.ans = none → o.lsid = some l → memForm o.i = some (false, false, l) →
    accOf o.i = some x → x.kind = 0 → x.fe = 0 → x.ord = 0 → o.i.wellFormed = true →
    ∃ (s' : State) (f' : Frame), exec (.loadReply n v) s = .next s' ∧ s'.frame k f.seq = some f' ∧
      f'.transit = (f.send o.i.targets (loadTok x.size x.sx ((List.range x.size).map fun j =>
        (p.data.getD j none).getD ((m.data.getD (pa % 64 + j) none).getD 0)))).transit ∧
      (s'.grid (m.agent - 1)).line (lineOf pa) = some ⟨lineOf pa, m.cls, false, 0#4, m.data.map (·.getD 0), 0#4⟩ ∧
      n ∉ (s'.grid (m.agent - 1)).mshr ∧ s'.mem = s.mem) ∧
  (∀ (n : Nat) (s : State) (m : Msg), s.net = [(n, m)] → m.kind = .ack → m.st = 0 → 1 ≤ m.agent → (∀ c u d, m.src ≠ .eng c u d) →
    ∃ s', exec (.storeAck n) s = .next s' ∧ s'.net = [] ∧ n ∉ (s'.grid (m.agent - 1)).mshr ∧
      n ∉ (s'.grid (m.agent - 1)).wtq ∧ n ∉ (s'.grid (m.agent - 1)).wb ∧ s'.thrs = s.thrs ∧ s'.mem = s.mem) ∧
  (∀ (n k q i : Nat) (s : State) (m : Msg), s.net = [(n, m)] → m.st = 0 → m.isStore = true → m.kind ≠ .siWb → m.kind ≠ .ownWb →
    m.agent = gridOfThr k + 1 → m.grp = none → s.thr k = none → n ∉ (s.grid (gridOfThr k)).mshr → n ∉ (s.grid (gridOfThr k)).fetchReg →
    (s.grid (gridOfThr k)).mshr.length < 32 →
    exec (.missRegisterGrant k q i) s = .next (s.modGrid (gridOfThr k) fun x => { x with mshr := x.mshr ++ [n] }))

/-- R270, R271, R272: an atomic of the oldest block that nothing holds back goes to its home on a miss register, with its
operand's bytes. There, or at its vault, it reads the old value, which its reply carries; memory is not written, but its
block has the new value of R270 reserved, unless it writes none. A reservation that has made a write wait 512 cycles is
broken: its block is discarded and the write is performed. -/
def Clauses.AtomicsReserve : Prop :=
  (∀ (k l pa : Nat) (s : State) (t : Thread) (f : Frame) (o : Op) (p : Part) (x : Acc), s.thr k = some t → t.frames = [f] →
    f.ops = [o] → o.parts = [p] → accOf o.i = some x → x.kind = 2 → o.lsid = some l → p.st = .want → p.pa = some pa →
    acquireOk t f l = true → olderAcquire t f l = false → fencesDue f l = [] → f.below l (fun w _ => atomicWord w) = [] →
    lineHeld s k t f.seq (lineOf pa) true = false →
    (∀ g ∈ coreGrids (gridOfThr k) f.width, (s.grid g).line (lineOf pa) = none) →
    let g := slotGrid (gridOfThr k) f.width o.slot
    (s.grid g).mshr.length < 32 → regOf s g (lineOf pa) = none →
    ∃ s' m f' o', exec (.atomicIssue k f.seq o.slot) s = .next s' ∧ s'.msg s.fresh = some m ∧ m.kind = .atomic ∧
      m.src = .acc k f.seq o.slot 0 ∧ m.pa = pa ∧ m.len = p.len ∧ m.wr = true ∧ m.sub = atomicOp o.i ∧
      m.data = tokBytes o.b x.size ∧ m.arg = o.c.word.toNat % 2 ^ (8 * x.size) ∧ m.agent = g + 1 ∧
      (s'.grid g).mshr = (s.grid g).mshr ++ [s.fresh] ∧ s'.frame k f.seq = some f' ∧ f'.op o.slot = some o' ∧
      o'.parts.map (·.st) = [.sent s.fresh] ∧ s'.mem = s.mem) ∧
  (∀ (n k q i j : Nat) (s : State) (m : Msg), (AtHome s n m ∧ HasReg s n m ∧ Untracked (s.dir 0 (lineOf m.pa))) ∨
      (AtVault s n m ∧ m.st = 0) →
    m.kind = .atomic → m.src = .acc k q i j → m.len = 4 ∨ m.len = 8 → m.data.length = m.len → (∀ b ∈ m.data, b ≠ none) →
    m.arg < 2 ^ (8 * m.len) → m.sub < 12 → (∀ bs, ownBytes s k q i bs = bs) →
    let v := leNat (mread s.mem m.pa m.len)
    let b := leNat (m.data.map (·.getD 0))
    ∃ (s' : State) (m' : Msg) (x : Option Nat), exec (.atomicAtHome n) s = .next s' ∧ s'.msg n = some m' ∧ m'.kind = .reply ∧
      m'.data = (mread s.mem m.pa m.len).map some ∧ AtomicVal m.sub m.len v b m.arg x ∧
      s'.resvs = (x.toList.map fun y => (⟨k, q, i, m.pa, leBytes m.len y⟩ : Resv)) ∧ s'.mem = s.mem) ∧
  (∀ (n gran g u : Nat) (s : State) (m : Msg) (t : Thread) (f : Frame) (r : Resv), s.net = [(n, m)] → m.kind = .wtUcStore →
    m.st = 1 → m.wr = true → m.node = 0 → m.src = .store g u → s.queue (lineOf m.pa) = [n] → lineOf m.pa ∈ s.l2 →
    (s.dir 0 (lineOf m.pa)).st ≠ .eo → Untracked (s.dir 0 (lineOf m.pa)) → paPkg m.pa = s.mod.pkg → paKind r.pa ≠ 2 →
    s.resvs = [r] → s.holds = [] → gran ∈ gransOf r.pa r.data.length → lineOf r.pa = lineOf m.pa →
    (gransOf m.pa m.len).any (gransOf r.pa r.data.length).contains = true → f.stage ≠ 2 → 512 ≤ (nowAt s m - m.t0).toNat → Solo s r.thr t → t.frames = [f] →
    f.seq = r.seq → f.ops = [] → Memory.wf s.mem = true →
    ∃ s' m', exec (.reservationBreak gran) s = .next s' ∧ s'.thr r.thr = some { t with frames := [] } ∧ s'.resvs = [] ∧
      s'.msg n = some m' ∧ m'.kind = .ack ∧ Stored s s' m.pa m.data)

/-- R68 to R71: at its vault an unqualified load takes its bytes; a `.fe` or `.fec` load whose granules are full takes
them, and a `.fec` load holds its granules for its block; one whose granules are empty waits. A `.fe` store whose granules
are empty holds them. A committed store writes its bytes, and a `.fs` store makes its granules full. No bit changes
otherwise; a returned access that is sent again acts the same. -/
def Clauses.VaultsServeAccesses : Prop :=
  ∀ (n : Nat) (s : State) (m : Msg) (i : Instr), AtVault s n m → m.kind = .vault →
    (m.st = 0 ∧ i = .vaultAccess n) ∨ (m.st = 3 ∧ i = .vaultRetry n) →
    let gs := gransOf m.pa m.len
    let bytes := (mread s.mem m.pa m.len).map some
    (m.wr = false → (m.sub = 0 ∨ m.sub = 1 ∧ ∀ g ∈ gs, g ∈ s.full) →
      ∃ s' m', exec i s = .next s' ∧ s'.msg n = some m' ∧ m'.kind = .reply ∧ m'.data = bytes ∧ s'.full = s.full ∧
        s'.holds = [] ∧ s'.mem = s.mem) ∧
    (∀ k q u v, m.wr = false → m.sub = 2 → (∀ g ∈ gs, g ∈ s.full) → m.src = .acc k q u v →
      ∃ s' m', exec i s = .next s' ∧ s'.msg n = some m' ∧ m'.kind = .reply ∧ m'.data = bytes ∧ s'.full = s.full ∧
        (∀ g, tget s'.holds g = if g ∈ gs then some (.block k q false) else none) ∧ s'.mem = s.mem) ∧
    (m.wr = false → m.sub = 1 ∨ m.sub = 2 → (∃ g ∈ gs, g ∉ s.full) →
      ∃ s' m', exec i s = .next s' ∧ s'.msg n = some m' ∧ m'.kind = .vault ∧ m'.st = 1 ∧ s'.queue (nodeKey m.node 0) = [n] ∧
        s'.holds = [] ∧ s'.full = s.full ∧ s'.mem = s.mem) ∧
    (∀ k q u v, m.wr = true → m.sub = 1 → (∀ g ∈ gs, g ∉ s.full) → m.src = .acc k q u v →
      ∃ s' m', exec i s = .next s' ∧ s'.msg n = some m' ∧ m'.kind = .reply ∧ s'.full = s.full ∧
        (∀ g, tget s'.holds g = if g ∈ gs then some (.block k q true) else none) ∧ s'.mem = s.mem) ∧
    (m.wr = true → m.sub = 0 ∨ m.sub = 2 → Memory.wf s.mem = true →
      ∃ s' m', exec i s = .next s' ∧ s'.msg n = some m' ∧ m'.kind = .ack ∧ Stored s s' m.pa m.data ∧ s'.holds = [] ∧
        ∀ g, (g ∈ s'.full ↔ g ∈ s.full ∨ (m.sub = 2 ∧ g ∈ gs)))

/-- R102: a purge starts when an overflow signature is `all`: every self-managed line leaves its grid, a dirty one written
back, while tracked lines stay; when the grids have answered, the overflow signatures that were `all` are empty. No thread is
waiting. -/
def Clauses.SignaturesArePurged : Prop :=
  (∀ (u : Nat) (s : State) (b : SigBuf), tget s.sigbufs u = some b → b.ovf.all = true → s.mod.purge = none → s.thrs = [] →
    ∃ s' us ms, exec (.signaturePurge u) s = .next s' ∧ s'.mod.purge = some (us, ms) ∧ u ∈ us ∧ s'.mem = s.mem ∧
      (∀ g y, y ∈ (s'.grid g).l1 → y.cls = 1) ∧
      (∀ g y, y ∈ (s.grid g).l1 → y.cls = 1 → y ∈ (s'.grid g).l1) ∧
      ∀ g y, y ∈ (s.grid g).l1 → y.cls ≠ 1 → y.dirty ≠ 0#4 → y.excl = false →
        ∃ n m, n ∈ ms ∧ s'.msg n = some m ∧ m.kind = .siWb ∧ m.pa = 64 * y.line ∧ m.data = dirtyBytes y) ∧
  (∀ (s : State) (us ms : List Nat), s.mod.purge = some (us, ms) →
    (∀ n ∈ ms, ∀ m, s.msg n = some m → m.kind ≠ .siWb) →
    ∃ s', exec .purgeClear s = .next s' ∧ s'.mod.purge = none ∧ s'.mem = s.mem ∧
      (∀ u b, tget s.sigbufs u = some b → tget s'.sigbufs u =
        some (if u ∈ us then { b with ovf := Sig.empty, absorbed := 0 } else b)))

/-- R83 to R85, R402: an engine's ownership request takes a line that no one has for the engine, and one at a vault holds its
granules for the command; its write lands: its bytes are merged and no one owns the line then, and the write of a killed
context is dropped. A refill gives every cluster of its island its tokens, up to 64. -/
def Clauses.EnginesOwnAndWrite : Prop :=
  (∀ (n c u j : Nat) (s : State) (m : Msg), s.net = [(n, m)] → m.kind = .engOwn → m.st = 0 → m.node = 0 → m.wr = true →
    m.agent = 0 → m.src = .eng c u j → dieOf c = homeDie m.pa → (s.ctx m.ctx).gen = m.gen → s.queue (lineOf m.pa) = [] →
    lineOf m.pa ∈ s.l2 → s.resvs = [] → s.dir 0 (lineOf m.pa) = Dir.none → paPkg m.pa = s.mod.pkg → NoneGranted s →
    ∃ s' m', exec (.engineOwnership n) s = .next s' ∧ s'.msg n = some m' ∧ m'.kind = .reply ∧
      (s'.dir 0 (lineOf m.pa)).st = .eo ∧ (s'.dir 0 (lineOf m.pa)).owner = m.arg ∧ s'.mem = s.mem) ∧
  (∀ (n c u j : Nat) (s : State) (m : Msg), s.net = [(n, m)] → m.kind = .engOwn → m.st = 0 → 9 ≤ m.node → m.wr = true →
    m.agent = 0 → m.src = .eng c u j → s.queue (nodeKey m.node 0) = [] → s.resvs = [] → s.holds = [] →
    ∃ s' m', exec (.engineOwnership n) s = .next s' ∧ s'.msg n = some m' ∧ m'.kind = .reply ∧
      (∀ g, tget s'.holds g = if g ∈ gransOf m.pa m.len then some (.eng c u j) else none) ∧ s'.mem = s.mem) ∧
  (∀ (n c u j : Nat) (s : State) (m : Msg), s.msg n = some m → m.kind = .engWrite → m.node < 9 → m.src = .eng c u j →
    (∀ e ∈ s.net, e.1 ≠ n → e.2.kind = .engWrite → e.2.src = m.src → lineOf e.2.pa ≠ lineOf m.pa) → tabWf s.net = true → s.queues = [] → paPkg m.pa = s.mod.pkg → Memory.wf s.mem = true → tabWf s.dirs = true →
    (s.dir 0 (lineOf m.pa)).st = .eo → (s.dir 0 (lineOf m.pa)).up = .i →
    ∃ s' m', exec (.engineWriteLands n) s = .next s' ∧ s'.msg n = some m' ∧ m'.kind = .ack ∧
      s'.dir 0 (lineOf m.pa) = Dir.none ∧ ((s.ctx m.ctx).gen = m.gen → Stored s s' m.pa m.data) ∧
      ((s.ctx m.ctx).gen ≠ m.gen → s'.mem = s.mem)) ∧
  (∀ (i : Nat) (s : State), (tget s.mod.refills i).getD 0 < ((tget s.cyc i).getD 0).toNat / 256 →
    ∃ s', exec (.bucketRefill i) s = .next s' ∧ (∀ c, (s'.clu c).bucket =
      if islandOf c = i then min 64 ((s.clu c).bucket + (tget s.mod.refill i).getD 64) else (s.clu c).bucket) ∧
      s'.mem = s.mem ∧ s'.thrs = s.thrs)

/-- R96: a signature matches every line that was inserted, and goes on matching it under any insert and under the OR with
another; two signatures that match one line meet; the empty signature matches none and meets none. -/
def Clauses.SignaturesCover : Prop :=
  (∀ (x : Sig) (l : Nat), (x.insert l).has l = true) ∧
  (∀ (x : Sig) (l m : Nat), x.has l = true → (x.insert m).has l = true) ∧
  (∀ (x y : Sig) (l : Nat), x.has l = true ∨ y.has l = true → (x.or y).has l = true) ∧
  (∀ (x y : Sig) (l : Nat), x.has l = true → y.has l = true → x.isEmpty = false → y.isEmpty = false → x.meet y = true) ∧
  (∀ l : Nat, Sig.empty.has l = false) ∧ ∀ x : Sig, Sig.empty.meet x = false ∧ x.meet Sig.empty = false

/-! ### Hosts, peers, bring-up and the mailbox -/

/-- R91, R112 to R114, R333, R437, R438: a host's read of device memory takes its line's bytes and is remembered as a holder; a
host's write and a peer's uncached store are merged at the home, a peer's uncached load takes its bytes, and its atomic
takes the old ones and writes the new value. A back-invalidation's answer and a conflict bring dirty bytes home; a conflict in which the host asked for the
line leaves the host its holder in E. A write to
the port window becomes a request for its port; one that breaks a rule is discarded and counted, and an access to memory
that is not exposed changes none. That a peer's atomic reads and writes in one step (log 58) and that a host's read of device memory leaves
it a holder (log 59) are the model's choice. -/
def Clauses.OutsideAccessesAreServed : Prop :=
  (∀ (ag off len : Nat) (s : State) (bytes : List Byte) (pz : BitVec 4), s.mod.st = .ready → s.mod.pkg < 64 → ag = 64 ∨ ag = 65 → off < 2 ^ 40 →
    s.net = [] → s.resvs = [] → Memory.wf s.mem = true →
    let a := s.mod.pkg * 2 ^ 50 + off
    let line := lineOf a
    s.queue line = [] → line ∈ s.l2 → filterRoom s line = true →
    (0 < len → (s.dir 0 line).st ≠ .e → (s.dir 0 line).st ≠ .eo → off % 64 + len ≤ 64 →
      ∃ s' m, exec (.hostHdmRead ag off len) s = .next s' ∧ s'.msg s.fresh = some m ∧ m.kind = .reply ∧ m.src = .ext ag ∧
        m.data = (mread s.mem (64 * line) 64).map some ∧ ag ∈ ((tget (s'.die (homeDie a)).filter line).getD ([], false)).1 ∧
        s'.mem = s.mem) ∧
    (s.dir 0 line = Dir.none → off % 64 + bytes.length ≤ 64 →
      ∃ s' m, exec (.hostWrite ag off ⟨bytes, pz⟩) s = .next s' ∧ s'.msg s.fresh = some m ∧ m.kind = .ack ∧
        Stored s s' a (bytes.map some))) ∧
  (∀ (pkg kind pa cls sc len : Nat) (bytes : List Byte) (sig : Option (BitVec 1024 × Nat × Bool)) (pz : BitVec 4) (s : State),
    s.mod.st = .ready → kind = 0 ∨ kind = 1 ∨ (16 ≤ kind ∧ kind < 28) →
    paPkg pa = s.mod.pkg → paKind pa < 2 → populated s.mod.cxl pa = true → s.net = [] → s.resvs = [] → Memory.wf s.mem = true →
    s.queue (lineOf pa) = [] → lineOf pa ∈ s.l2 → (s.dir 0 (lineOf pa)).st ≠ .eo → Untracked (s.dir 0 (lineOf pa)) →
    pa % 64 + len ≤ 64 → len ≤ bytes.length →
    ∃ s' m, exec (.peerAccess pkg kind pa cls sc len ⟨bytes, pz⟩ sig) s = .next s' ∧ s'.msg s.fresh = some m ∧
      (kind = 0 → cls = 4 → m.kind = .reply ∧ m.data = (mread s.mem pa len).map some ∧ s'.mem = s.mem) ∧
      (kind = 1 → cls = 2 ∨ cls = 4 → m.kind = .ack ∧ Stored s s' pa ((bytes.take len).map some)) ∧
      (∀ op, kind = 16 + op → op < 12 → len = 4 ∨ len = 8 → leNat (bytes.drop len) < 2 ^ (8 * len) →
        ∃ x, AtomicVal op len (leNat (mread s.mem pa len)) (leNat (bytes.take len)) (leNat (bytes.drop len)) x ∧
          m.kind = .reply ∧ m.data = (mread s.mem pa len).map some ∧
          Stored s s' pa (x.elim [] fun y => (leBytes len y).map some))) ∧
  (∀ (n h : Nat) (bytes : List Byte) (pz : BitVec 4) (s : State) (m : Msg), s.net = [(n, m)] → m.kind = .bisnp → paPkg m.pa = s.mod.pkg →
    Memory.wf s.mem = true → h < 128 → s.resvs = [] → (s.dir 0 (lineOf m.pa)).st ≠ .eo →
    (m.par = n → ∃ s', exec (.birsp n ⟨bytes, pz⟩) s = .next s' ∧ Stored s s' (64 * lineOf m.pa) ((bytes.take 64).map some) ∧
      s'.net = []) ∧
    (s.grids = [] → bytes ≠ [] →
      ((tget (s.die (homeDie m.pa)).filter (lineOf m.pa)).any (·.2) = true → 64 ≤ bytes.length) →
      ∃ s', exec (.biconflict n ⟨⟨bytes, pz⟩, h⟩) s = .next s' ∧ Stored s s' (64 * lineOf m.pa) ((bytes.take 64).map some) ∧
        s'.net = s.net) ∧
    (s.grids = [] → tabWf s.dirs = true → ∃ s', exec (.biconflict n ⟨⟨[], pz⟩, h⟩) s = .next s' ∧ s'.net = s.net ∧
      (s'.dir 0 (lineOf m.pa)).st = .e ∧ (s'.dir 0 (lineOf m.pa)).owner = 648 ∧
      tget (s'.die (homeDie m.pa)).filter (lineOf m.pa) = some ([h], true))) ∧
  (∀ (ag addr : Nat) (words : List Word) (rest : List Byte) (s : State),
    let good := s.mod.st = .ready ∧ addr % 64 = 0 ∧ addr < 2 ^ 39 ∧ addr / 2 ^ 29 % 128 ≤ 79 ∧
      (addr / 2 ^ 22 % 2 = 0 → addr / 2 ^ 6 % 2 ^ 16 = 0) ∧ 1 ≤ words.length ∧ words.length ≤ 8 ∧ rest = []
    let bytes := words.flatMap (fun w => leBytes 8 w.toNat) ++ rest
    rest.length < 8 → ag = 64 ∨ ag = 65 →
    (good → s.mod.postq.length < 64 → ∃ s' m, exec (.portWindowPost ag addr bytes) s = .next s' ∧
      s'.mod.postq = s.mod.postq ++ [s.fresh] ∧ s'.msg s.fresh = some m ∧ m.kind = .grantReq ∧
      m.node = 9 + 80 * (addr / 2 ^ 36 % 8) + addr / 2 ^ 29 % 128 ∧ m.port = addr / 2 ^ 23 % 64 ∧ s'.mem = s.mem ∧
      m.pm = some ⟨words, addr / 2 ^ 6 % 2 ^ 16, decide (addr / 2 ^ 22 % 2 = 1), 0xFF1 + (ag - 64), 0⟩) ∧
    (¬good → exec (.portWindowPost ag addr bytes) s =
      .next { s with mod := { s.mod with ioErr := min (s.mod.ioErr + 1) 0xFFFFFFFF } })) ∧
  ∀ (ag off len : Nat) (bytes : List Byte) (pz : BitVec 4) (s : State) (i : Instr), i = .hostHdmRead ag off len ∨ i = .hostWrite ag off ⟨bytes, pz⟩ →
    s.mod.st ≠ .ready ∨ (64 ≤ ag ∧ 2 ^ 40 ≤ off) → ∃ s', exec i s = .next s' ∧ s'.mem = s.mem ∧ s'.thrs = s.thrs

/-- R440, R443 to R447, R451: power-up, a reset of both ports and RESET by the owner of LOCK leave the machine as after
reset; LOCK goes to the first of the host ports that asks while it is free, its owner lets it go, and so does its link going down;
START, GO, the load window, the checks and the initialisation move the module from POWERED to READY, or to FAILED with the code of what
went wrong; a DOE mailbox answers discovery always, CDAT and SPDM, of R447's capabilities and measurements, from VERIFIED on. The digest
and the signature check (log 7) and the answers (log 8) are free functions, the model's choice. What a lost link cuts off leaves the presence mask; a thermal reduction is counted and raises no clock. -/
def Clauses.BringUp : Prop :=
  ∀ (s : State) (p : Nat), s.mod.postq = [] → p = 1 ∨ p = 2 →
    let m := s.mod
    let becomes := fun (i : Instr) (m' : Module) => exec i s = .next { s with mod := m' }
    let fresh := Host.Outcome.next (φ := Fault) (ρ := Refusal)
      { State.reset with agenda := s.agenda, fresh := s.fresh }
    exec .powerUp s = fresh ∧ exec .fundamentalReset s = fresh ∧ (m.lock = p → exec (.reset p) s = fresh) ∧
    (m.lock = 0 → becomes (.acq p) { m with lock := p }) ∧ (m.lock ≠ 0 → becomes (.acq p) m) ∧
    (m.lock ≠ p → becomes (.rel p) m ∧ becomes (.hostLinkDown p) m) ∧
    (m.lock = p → (m.st = .loading ∧ m.vbusy = false →
        becomes (.rel p) { m with lock := 0, st := .failed, failc := 7 } ∧
        becomes (.hostLinkDown p) { m with lock := 0, st := .failed, failc := 7 }) ∧
      (¬(m.st = .loading ∧ m.vbusy = false) →
        becomes (.rel p) { m with lock := 0 } ∧ becomes (.hostLinkDown p) { m with lock := 0 })) ∧
    (∀ n : BitVec 25, (m.lock ≠ p → becomes (.start p n) { m with ign := min (m.ign + 1) 0xFFFF }) ∧
      (m.lock = p → m.st = .powered ∨ m.st = .failed →
        (0x2000 ≤ n.toNat → n.toNat ≤ 0x1000000 →
          becomes (.start p n) { m with st := .loading, failc := 0, len := n.toNat, win := [], winBad := false, vbusy := false }) ∧
        (n.toNat < 0x2000 ∨ 0x1000000 < n.toNat → becomes (.start p n) { m with st := .failed, failc := 3 })) ∧
      (m.lock = p → m.st ≠ .powered → m.st ≠ .failed → becomes (.start p n) m)) ∧
    (m.lock = p → m.st = .loading → m.vbusy = false →
      becomes (.go p) { m with vbusy := true, meas := Config.sha256 (mread m.win 0 m.len) }) ∧
    (∀ (off : Nat) (bytes : List Byte), m.lock = p → m.st = .loading → m.vbusy = false → Memory.wf m.win = true →
      ∃ w, becomes (.loadWindowWrite p off bytes) { m with win := w } ∧
        ∀ a, mget w a = if off ≤ a ∧ a < off + bytes.length ∧ a < m.len then bytes.getD (a - off) 0 else mget m.win a) ∧
    (m.st = .loading → m.vbusy = true →
      let img := mread m.win 0 m.len
      let w := fun (o n : Nat) => leNat ((img.drop o).take n)
      let key := (img.drop 0x10).take 32
      let form := w 0 4 = 0x5A474657 ∧ w 6 2 = 0 ∧ w 8 4 + 0x2000 = m.len ∧ w 0xC 4 = 0 ∧ w 0x1EE0 288 = 0
      let trust := Config.sha256 key = Config.keyHash
      let newer := Config.minSvn.toNat ≤ w 4 2
      let signed := Config.slhDsaVerify key (img.take 0x30 ++ img.drop 0x2000) ((img.drop 0x30).take 7856) = true
      let fails := fun (c : Nat) => becomes .verificationComplete { m with st := .failed, vbusy := false, failc := c }
      (m.winBad = true → fails 6) ∧ (m.winBad = false →
      (¬form → fails 8) ∧ (form → ¬trust → fails 2) ∧ (form → trust → ¬newer → fails 4) ∧
      (form → trust → newer → ¬signed → fails 1) ∧
      (form → trust → newer → signed → becomes .verificationComplete
        { m with st := .verified, vbusy := false, svn := BitVec.ofNat 16 (w 4 2) }))) ∧
    (∀ k, m.st = .verified → becomes (.firmwareInitialisation false k) { m with st := .failed, failc := 5 } ∧
      ∃ s', exec (.firmwareInitialisation true k) s = .next s' ∧ s'.mod = { m with st := .ready, cxl := s'.mod.cxl } ∧
        (∀ r ∈ s'.mod.cxl, 2 ^ 40 ≤ r.1 ∧ r.1 + r.2 ≤ 2 ^ 48) ∧ s'.mem = s.mem ∧
        s'.thrs = s.thrs ∧ ∀ c, c < 640 → k % 4 ≠ 0 → (s'.clu c).kennel = ⟨256 * 2 ^ (k % 4), 0, 0, []⟩) ∧
    (∀ q, ∃ s', exec (.spdmRequest p q) s = .next s' ∧ s'.mem = s.mem ∧ s'.thrs = s.thrs ∧
      let up := m.st = .verified ∨ m.st = .ready
      let b := s'.mod.mbox p
      let device : Config.SpdmDevice :=
        { caps := [.cert, .chal, .meas, .measSig, .keyEx, .encrypt, .mac], hash := .sha256, sign := .slhDsaSha2128s,
          kex := .mlKem768, aead := .aes256Gcm, identity := Config.uid, firmware := m.meas
          measurements := [(1, leBytes 32 m.meas.toNat), (2, leBytes 32 Config.keyHash.toNat ++ leBytes 2 Config.minSvn.toNat),
            (3, leBytes 8 0x00014100), (4, leBytes 2 m.svn.toNat)] }
      match Config.doeKind q with
      | .discovery => b.doe = Config.doeDiscovery q
      | .spdm | .secured =>
        (up → (b.doe, b.session, b.ide) = Config.spdmAnswer device (m.mbox p).session (m.mbox p).ide q) ∧ (¬up → b.doe = [])
      | .cdat => (up → b.doe = Config.doeCdat q) ∧ (¬up → b.doe = [])
      | .other => b.doe = []) ∧
    (∀ lost, ∃ s', exec (.peerLinkDown lost) s = .next s' ∧ s'.mem = s.mem ∧ ∀ j, j < 64 →
      s'.mod.presence.getLsbD j = (m.presence.getLsbD j && (!lost.getLsbD j || j == m.pkg))) ∧
    ∀ i, i < 18 → ∃ s', exec (.thermalReduction i) s = .next s' ∧ s'.mem = s.mem ∧ s'.thrs = s.thrs ∧
      tget s'.mod.throt i = some (min ((tget m.throt i).getD 0 + 1) 0xFFFF) ∧
      (∃ x, tget s'.mod.freq i = some x ∧ x ≤ (tget m.freq i).getD 1600) ∧ s'.mod.refillOf i ≤ m.refillOf i ∧
      (i < 16 → 1 ≤ m.refillOf i → 1 ≤ s'.mod.refillOf i)

/-- R441 to R444, R448: a register write of host port p asks for LOCK, starts a load for LOCK's owner, writes an argument of its
own mailbox, and starts a command there, which then waits its turn behind the earlier ones; a command that R449 does not
name is a bad argument (the model's choice, log 22). A register that is read-only ignores it. -/
def Clauses.RegisterWritesAct : Prop :=
  ∀ (s : State) (p : Nat) (v : Word), s.mod.postq = [] → p = 1 ∨ p = 2 →
    (v.getLsbD 8 = true → s.mod.lock = 0 →
      exec (.registerWrite p 0x100#64 v) s = .next { s with mod := { s.mod with lock := p } }) ∧
    (s.mod.lock = p → s.mod.st = .powered → bits v 0 3 = 1#3 → 0x2000 ≤ v.toNat / 2 ^ 32 % 2 ^ 25 →
      v.toNat / 2 ^ 32 % 2 ^ 25 ≤ 0x1000000 →
      exec (.registerWrite p 0x200#64 v) s = .next { s with mod := { s.mod with
        st := .loading, failc := 0, len := v.toNat / 2 ^ 32 % 2 ^ 25, win := [], winBad := false, vbusy := false } }) ∧
    (s.mod.st = .ready → ∀ i, i < 7 → ∃ s', exec (.registerWrite p (BitVec.ofNat 64 (0x1000 * p + 8 + 8 * i)) v) s = .next s' ∧
      argOf s' p i = v.toNat ∧ (∀ j, j ≠ i → argOf s' p j = argOf s p j) ∧ s'.mem = s.mem ∧ s'.thrs = s.thrs) ∧
    (s.mod.st = .ready → (s.mod.mbox p).busy = false →
      ∃ s', exec (.registerWrite p (BitVec.ofNat 64 (0x1000 * p)) v) s = .next s' ∧ s'.mem = s.mem ∧ s'.thrs = s.thrs ∧
        let c := v.toNat % 256
        ((1 ≤ c ∧ c ≤ 6) ∨ (0x10 ≤ c ∧ c ≤ 0x12) → s'.mod.queue = s.mod.queue ++ [p] ∧ (s'.mod.mbox p).busy = true ∧
          (s'.mod.mbox p).cmd = c) ∧
        (¬((1 ≤ c ∧ c ≤ 6) ∨ (0x10 ≤ c ∧ c ≤ 0x12)) → s'.mod.queue = s.mod.queue ∧ (s'.mod.mbox p).busy = false ∧
          (s'.mod.mbox p).result = 1)) ∧
    exec (.registerWrite p 0#64 v) s = .next s

/-- R6, R179, R418, R428, R440, R448 to R451: the module's commands. CTX_CREATE takes the lowest free id from 1, keeps the descriptor's
words, reserved bits zero, with the id and generation in them and gives the context its launch port, open to all; CTX_KILL kills, and is
answered when the kill is done; KILL_QUERY answers with the reason and the generation killed; CTX_MAP writes a map entry of a context
without threads, saving the cluster whose entry it makes invalid; POD_SET gives the module its package number, under which its memory is
found then, and its presence mask; POWER_SET takes a limit from 1,000 to 5,200 W and leaves every clock from 400 to 1,600; ERR_CLEAR
clears every error counter. The last three need LOCK. The model's choices are the lowest id and the launch port's bits (log 70), the
memory under a new package number (log 72), and LOCK checked before the arguments with the RESULT codes (log 69). -/
def Clauses.CommandsAreAnswered : Prop :=
  ∀ (s : State) (p : Nat),
    (∀ (off l id : Nat) (allot : List (Nat × Nat × Nat)), Turn s p 0x01 [off, l] → Calm s → s.mod.pkg < 64 →
      off + 104 ≤ 2 ^ 40 → 1 ≤ id → (∀ i, 1 ≤ i → i < id → (s.ctx i).alive = true) → id < 0xFFF →
      (s.ctx id).alive = false → (∀ a ∈ allot, a.2.1 ≤ 1 ∨ (s.clu a.1).fab.owner = 0xFFF) →
      let w := fun (i : Nat) => mword s.mem (s.mod.pkg * 2 ^ 50 + off + 8 * i)
      let kept := [0x00FFFFFFFFFFFFFF, 0xFFFFFFFF, 0x00FFFFFFFFFFC000, 0x00FFFFFFFFFFFF00, 0xFFFF, 0xFFFFFFFF, 0x00FFFFFFFFFFFFF0,
        0x7FF, 0xFFFFFFFFFFFFFFFF, 0xFFFFFFFFFFFFFF80, 0xFFFF003F, 0x00FFFFFFFFFFC000, 0x00FFFFFFFFC0FFFF]
      let clu := 80 * (l % 8) + l / 8 % 128
      let port := l / 1024 % 64
      l / 8 % 128 ≤ 79 → ((s.clu clu).port port).owner = 0xFFF → w 0 / 256 % 256 ≤ 0xEF → 1 ≤ w 4 % 2 ^ 16 →
      w 4 % 2 ^ 16 ≤ 40960 → w 7 % 2 ^ 11 ≤ 1024 →
      ∃ s', exec (.ctxCreate p allot) s = .next s' ∧ Answered s s' p 0 ∧ (s'.ctx id).alive = true ∧
        (s'.ctx id).gen = (s.ctx id).gen ∧ (s'.ctx id).dying = none ∧
        (∀ i, i < 13 → i ≠ 1 → (s'.ctx id).word i = w i &&& kept.getD i 0) ∧
        (s'.ctx id).word 1 = (id + 4096 * (s.ctx id).gen) % 2 ^ 32 ∧
        tget (s'.mod.mbox p).res 0 = some (BitVec.ofNat 64 (id + 4096 * (s.ctx id).gen)) ∧
        ((s'.clu clu).port port).owner = id ∧ ((s'.clu clu).port port).en = true ∧
        ((s'.clu clu).port port).open_ = true ∧ s'.mem = s.mem ∧ s'.thrs = s.thrs) ∧
    (∀ c, Turn s p 0x02 [c] → tabWf s.thrs = true →
      ((s.mod.mbox p).began = false → (s.ctx c).alive = true → NoneCommits s c →
        ∃ s', exec (.ctxKill p) s = .next s' ∧ Answered s s' p 0 ∧ Killed s s' c 0xF0) ∧
      ((s.mod.mbox p).began = false → (s.ctx c).alive = false →
        ∃ s', exec (.ctxKill p) s = .next s' ∧ Answered s s' p 3 ∧ s'.thrs = s.thrs) ∧
      ((s.mod.mbox p).began = true → (s.ctx c).alive = false →
        ∃ s', exec (.ctxKill p) s = .next s' ∧ Answered s s' p 0 ∧ s'.thrs = s.thrs)) ∧
    (∀ c, Turn s p 0x06 [c] → ∃ s', exec (.killQuery p) s = .next s' ∧ s'.thrs = s.thrs ∧ s'.mem = s.mem ∧
      (tget s.ctxs c = none → Answered s s' p 3) ∧
      (tget s.ctxs c ≠ none → Answered s s' p 0 ∧ tget (s'.mod.mbox p).res 0 = some
        (match (s.ctx c).killReason with | some x => BitVec.ofNat 64 (x.1 + 256 * x.2) | none => 0))) ∧
    (∀ c l e, Turn s p 0x05 [c, l, e] → (s.ctx c).alive = true → (s.ctx c).dying = none →
      let at_ := (s.ctx c).word 3 / 256 % 2 ^ 48 * 256 + 4 * l
      ((s.ctx c).word 4 % 2 ^ 16 ≤ l → ∃ s', exec (.ctxMap p) s = .next s' ∧ Answered s s' p 1 ∧ s'.mem = s.mem) ∧
      (mapArg s c l e = true → (∃ x ∈ s.thrs, x.2.ctx = c) →
        ∃ s', exec (.ctxMap p) s = .next s' ∧ Answered s s' p 4 ∧ s'.mem = s.mem) ∧
      (mapArg s c l e = true → (∀ x ∈ s.thrs, x.2.ctx ≠ c) → Calm s → paPkg at_ = s.mod.pkg → Memory.wf s.mem = true →
        ((tget (s.ctx c).parked l = none ∧ ∃ x, mapCluster s (s.ctx c) l = .error x) ∨
            (∃ x, mapCluster s (s.ctx c) l = .ok x ∧ x.1 ≠ s.mod.pkg) →
          ∃ s', exec (.ctxMap p) s = .next s' ∧ Answered s s' p 0 ∧ mread s'.mem at_ 4 = leBytes 4 e ∧
            ∀ a, a < at_ ∨ at_ + 4 ≤ a → mget s'.mem a = mget s.mem a) ∧
        (∀ q, e < 2 ^ 31 → mapCluster s (s.ctx c) l = .ok (s.mod.pkg, q) → (s.clu q).jobs = [] → (s.clu q).moves = [] →
          (s.clu q).fab.q = [] → (s.clu q).copyQ = [] → (s.clu q).saving = [] → (∀ x ∈ s.clus, x.2.streams = []) →
          (∀ y ∈ (s.clu q).phys, ∀ w, y.2.owner = some w → w.1 = c → w.2.1 = l ∧ w.2.2 < 64) →
          let rec_ := (s.ctx c).word 12 % 2 ^ 56 / 2 ^ 22 * 2 ^ 22 + 2 ^ 22 * l
          ∃ s', exec (.ctxMap p) s = .next s' ∧ Answered s s' p 0 ∧ mread s'.mem at_ 4 = leBytes 4 e ∧
            tget (s'.ctx c).parked l = some q ∧
            ∀ a, (a < at_ ∨ at_ + 4 ≤ a) → (a < rec_ ∨ rec_ + 2 ^ 22 ≤ a) → mget s'.mem a = mget s.mem a))) ∧
    (∀ a b, Turn s p 0x10 [a, b] →
      (s.mod.lock ≠ p → ∃ s', exec (.podSet p) s = .next s' ∧ Answered s s' p 2 ∧ s'.mod.pkg = s.mod.pkg ∧ s'.mem = s.mem) ∧
      (s.mod.lock = p → s.mod.pkg < 64 → Memory.wf s.mem = true → (∀ c ∈ s.mem, paPkg c.1 = s.mod.pkg) →
        ∃ s', exec (.podSet p) s = .next s' ∧ Answered s s' p 0 ∧ s'.mod.pkg = a % 64 ∧
          s'.mod.presence = BitVec.ofNat 64 b ∧ ∀ off, off < 2 ^ 50 → isCxl off = false →
            mget s'.mem (a % 64 * 2 ^ 50 + off) = mget s.mem (s.mod.pkg * 2 ^ 50 + off))) ∧
    (∀ w, Turn s p 0x11 [w] → s.mod.lock ≠ p →
      ∃ s', exec (.powerSet p) s = .next s' ∧ Answered s s' p 2 ∧ s'.mod.power = s.mod.power ∧ s'.mod.freq = s.mod.freq ∧
        s'.mem = s.mem) ∧
    (Turn s p 0x12 [] → s.mod.lock ≠ p → ∃ s', exec (.errClear p) s = .next s' ∧ Answered s s' p 2 ∧
      s'.mod.ioErr = s.mod.ioErr ∧ s'.dies = s.dies ∧ s'.mem = s.mem) ∧
    (∀ w, Turn s p 0x11 [w] → s.mod.lock = p →
      (w < 1000 ∨ 5200 < w → ∃ s', exec (.powerSet p) s = .next s' ∧ Answered s s' p 1 ∧ s'.mod.power = s.mod.power) ∧
      (1000 ≤ w → w ≤ 5200 → ∃ s', exec (.powerSet p) s = .next s' ∧ Answered s s' p 0 ∧ s'.mod.power = w ∧
        s'.mem = s.mem ∧ ∀ i, i < 18 → (∃ x, tget s'.mod.freq i = some x ∧ 400 ≤ x ∧ x ≤ 1600) ∧
          (i < 16 → 1 ≤ s'.mod.refillOf i ∧ s'.mod.refillOf i ≤ 64))) ∧
    (Turn s p 0x12 [] → s.mod.lock = p → ∃ s', exec (.errClear p) s = .next s' ∧ Answered s s' p 0 ∧ s'.mod.ioErr = 0 ∧
      (∀ d, (s'.die d).errs = []) ∧ s'.mem = s.mem ∧ s'.thrs = s.thrs)

/-- R423, R424, R425, R448: CTX_PREEMPT of clusters without threads stops them at once; a thread that has drained is written to
the lowest free save record, the places of its dead registers left as they were, and the command is complete when the last one is.
CTX_RESUME lets clusters run again, and a saved thread takes a context of its old home grid, with the next block address and the live
registers of its record. A record holds a thread's next block address, registers and statuses at the offsets of R424. The lowest free
record and the place of a resumed thread (log 65) and the handler's pattern that it keeps (log 64) are the model's choice. -/
def Clauses.ThreadsAreSavedAndResumed : Prop :=
  (∀ (s : State) (p c first n : Nat), (s.ctx c).alive = true → (s.ctx c).dying = none → first + n ≤ (s.ctx c).word 4 % 2 ^ 16 →
    let x := s.ctx c
    (Turn s p 0x03 [c, first, n] → (s.mod.mbox p).began = false →
      (∀ l, first ≤ l → l < first + n → l ∉ x.stopped) →
      (∀ e ∈ s.thrs, e.2.ctx = c → e.2.lclu < first ∨ first + n ≤ e.2.lclu) → x.saved.length ≤ x.word 12 % 2 ^ 16 →
      ∃ s', exec (.ctxPreempt p) s = .next s' ∧ Answered s s' p 0 ∧ s'.thrs = s.thrs ∧ s'.mem = s.mem ∧
        ∀ l, (l ∈ (s'.ctx c).stopped ↔ l ∈ x.stopped ∨ (first ≤ l ∧ l < first + n))) ∧
    (Turn s p 0x04 [c, first, n] → (s.mod.mbox p).began = false →
      (∀ l, first ≤ l → l < first + n → l ∈ x.stopped) → x.saved = [] → x.fabs = [] →
      ∃ s', exec (.ctxResume p) s = .next s' ∧ Answered s s' p 0 ∧ s'.thrs = s.thrs ∧ s'.mem = s.mem ∧
        ∀ l, (l ∈ (s'.ctx c).stopped ↔ l ∈ x.stopped ∧ ¬(first ≤ l ∧ l < first + n)))) ∧
  (∀ (s : State) (p c first n k r : Nat) (t : Thread), Turn s p 0x03 [c, first, n] → (s.mod.mbox p).began = true →
    (s.ctx c).alive = true → (s.ctx c).dying = none → first + n ≤ (s.ctx c).word 4 % 2 ^ 16 → Calm s → s.thrs = [(k, t)] → t.ctx = c →
    first ≤ t.lclu → t.lclu < first + n → t.frames = [] → t.post = .preempt → t.pack = .none →
    (∀ j, j < r → tget (s.ctx c).saved j ≠ none) → tget (s.ctx c).saved r = none → r < (s.ctx c).word 12 % 2 ^ 16 →
    let rec_ := (s.ctx c).word 11 / 2 ^ 14 % 2 ^ 42 * 2 ^ 14 + 2 ^ 14 * r
    paPkg rec_ = s.mod.pkg → Memory.wf s.mem = true →
    ∃ s', exec (.ctxPreempt p) s = .next s' ∧ Answered s s' p 0 ∧ s'.thrs = [] ∧
      tget (s'.ctx c).saved r = some ⟨t.lclu, t.pat, t.ser⟩ ∧
      (∀ o, o < 0x4000 →
        let dead := (0x408 ≤ o ∧ o < 0x800 ∧ t.gdead.getLsbD ((o - 0x400) / 8) = true) ∨
          (0x1000 ≤ o ∧ o < 0x2000 ∧ t.vdead.getLsbD ((o - 0x1000) / 64) = true)
        (dead → mget s'.mem (rec_ + o) = mget s.mem (rec_ + o)) ∧
        (¬dead → mget s'.mem (rec_ + o) = (saveBytes s k t).getD o 0)) ∧
      ∀ a, a < rec_ ∨ rec_ + 0x4000 ≤ a → mget s'.mem a = mget s.mem a) ∧
  (∀ (s : State) (p c first n r clu : Nat) (x : Saved), Turn s p 0x04 [c, first, n] →
    (s.mod.mbox p).began = true → (s.ctx c).alive = true → (s.ctx c).dying = none → first + n ≤ (s.ctx c).word 4 % 2 ^ 16 → Calm s →
    s.thrs = [] → (s.ctx c).fabs = [] → (s.ctx c).saved = [(r, x)] → first ≤ x.lclu → x.lclu < first + n →
    mapCluster s (s.ctx c) x.lclu = .ok (s.mod.pkg, clu) → (s.clu clu).spawns = [] →
    let rec_ := (s.ctx c).word 11 / 2 ^ 14 % 2 ^ 42 * 2 ^ 14 + 2 ^ 14 * r
    let w := fun (o : Nat) => mword s.mem (rec_ + o)
    paPkg rec_ = s.mod.pkg → w 0x10 % 4 = 0 → w 0x10 / 32 % 4 = 0 →
    ∃ (s' : State) (t : Thread), exec (.ctxResume p) s = .next s' ∧ Answered s s' p 0 ∧ (s'.ctx c).saved = [] ∧ s'.mem = s.mem ∧
      s'.thr (4 * (8 * clu + w 0x10 / 4 % 8)) = some t ∧ t.run = true ∧ t.ctx = c ∧ t.lclu = x.lclu ∧ t.width = 1 ∧
      t.frames = [] ∧ t.pack = .none ∧ t.pc.toNat = w 0 + 2 ^ 64 * (w 8 % 2 ^ 16) ∧ t.pat = x.pat ∧ t.ser = x.ser ∧
      ∀ i, 1 ≤ i → i < 128 → (w (0x20 + 8 * (i / 64))).testBit (i % 64) = false →
        tget t.g i = some (BitVec.ofNat 64 (w (0x400 + 8 * i)))) ∧
  (∀ (s : State) (k : Nat) (t : Thread),
    let w := fun (o : Nat) => BitVec.ofNat 64 (leNat (((saveBytes s k t).drop o).take 8))
    (saveBytes s k t).length = 0x4000 ∧ w 0 = bits t.pc 0 64 ∧ bits (w 8) 0 16 = bits t.pc 64 16 ∧
    w 0x130 = t.spec.thid ∧ w 0x168 = t.spec.epc ∧
    (∀ i, 1 ≤ i → i < 128 → w (0x400 + 8 * i) = if t.gdead.getLsbD i then 0 else (tget t.g i).getD 0) ∧
    (∀ i j, i < 64 → j < 8 → w (0x1000 + 64 * i + 8 * j) = if t.vdead.getLsbD i then 0 else bits ((tget t.v i).getD 0) (64 * j) 64) ∧
    ∀ u o i, (u, o) ∈ [(1, 0x2000), (2, 0x2800), (0, 0x3000)] → i < 256 → w (o + 8 * i) = (tget t.status (256 * u + i)).getD 0)

/-! ### Statements in several parts -/

/-- The statement of `Clauses.ScalarArithmetic`, `Clauses.ScalarLogicAndBits`, `Clauses.ScalarTests`, `Clauses.ScalarImmediates`: each part says with its rules what it covers. -/
def Obligations.ScalarResults : Prop := Clauses.ScalarArithmetic ∧ Clauses.ScalarLogicAndBits ∧ Clauses.ScalarTests ∧ Clauses.ScalarImmediates

/-- The statement of `Clauses.NullOperandGivesNull`, `Clauses.NullsPassThroughMoves`, `Clauses.PredicateMismatchPerformsNothing`: each part says with its rules what it covers. -/
def Obligations.NullsAndPredicates : Prop :=
  Clauses.NullOperandGivesNull ∧ Clauses.NullsPassThroughMoves ∧ Clauses.PredicateMismatchPerformsNothing

/-- The statement of `Clauses.VectorBitsShiftsAndMasks`, `Clauses.VectorMovesOfLanes`: each part says with its rules what it covers. -/
def Obligations.VectorBitsAndMoves : Prop := Clauses.VectorBitsShiftsAndMasks ∧ Clauses.VectorMovesOfLanes

/-- The statement of `Clauses.VectorFloatLanes`, `Clauses.VectorReductionsAndConversions`: each part says with its rules what it covers. -/
def Obligations.VectorFloatingPoint : Prop := Clauses.VectorFloatLanes ∧ Clauses.VectorReductionsAndConversions

/-- The statement of `Clauses.FencesAndBarriersFire`, `Clauses.ReleaseDrainEndsTheFence`: each part says with its rules what it covers. -/
def Obligations.FencesAndBarriers : Prop := Clauses.FencesAndBarriersFire ∧ Clauses.ReleaseDrainEndsTheFence

/-- The statement of `Clauses.SecondExitCollides`, `Clauses.ExitDiscardsTheWrongPath`: each part says with its rules what it covers. -/
def Obligations.ExitsSettleTheNextBlock : Prop := Clauses.SecondExitCollides ∧ Clauses.ExitDiscardsTheWrongPath

/-- The statement of `Clauses.FaultOfOldestBlockTraps`, `Clauses.EachFaultEventTraps`, `Clauses.LeashRunsOut`: each part says with its rules what it covers. -/
def Obligations.FaultsAndLeashTrap : Prop := Clauses.FaultOfOldestBlockTraps ∧ Clauses.EachFaultEventTraps ∧ Clauses.LeashRunsOut

/-- The statement of `Clauses.SupervisorForms`, `Clauses.SystemRegisterRead`: each part says with its rules what it covers. -/
def Obligations.SupervisorAndSystemRegisters : Prop := Clauses.SupervisorForms ∧ Clauses.SystemRegisterRead

/-- The statement of `Clauses.MclaimTakesTheLowestFreeName`, `Clauses.MatrixReadsTakeTheirPlace`: each part says with its rules what it covers. -/
def Obligations.ClaimsAndMatrixReads : Prop := Clauses.MclaimTakesTheLowestFreeName ∧ Clauses.MatrixReadsTakeTheirPlace

/-- The statement of `Clauses.MatrixJobStarts`, `Clauses.FabricCommandStarts`, `Clauses.CopyStartsAndPaysForPortions`: each part says with its rules what it covers. -/
def Obligations.EnginesStartWithAToken : Prop := Clauses.MatrixJobStarts ∧ Clauses.FabricCommandStarts ∧ Clauses.CopyStartsAndPaysForPortions

/-- The statement of `Clauses.FabricCommandCompletes`, `Clauses.WiresAndScoresMove`, `Clauses.CopyCompletes`: each part says with its rules what it covers. -/
def Obligations.FabricAndCopyCommandsComplete : Prop :=
  Clauses.FabricCommandCompletes ∧ Clauses.WiresAndScoresMove ∧ Clauses.CopyCompletes

/-- The statement of `Clauses.StreamOpens`, `Clauses.TilesAreReadAndStarted`, `Clauses.TilesCompleteAndNoticesArrive`: each part says with its rules what it covers. -/
def Obligations.StreamsOpenAndDeliverTiles : Prop := Clauses.StreamOpens ∧ Clauses.TilesAreReadAndStarted ∧ Clauses.TilesCompleteAndNoticesArrive

/-- The statement of `Clauses.GrantsFollowThePort`, `Clauses.MessageIsDelivered`: each part says with its rules what it covers. -/
def Obligations.MessagesReachTheirPort : Prop := Clauses.GrantsFollowThePort ∧ Clauses.MessageIsDelivered

/-- The statement of `Clauses.SpawnRequestsAreGranted`, `Clauses.SpawnedThreadIsCreated`: each part says with its rules what it covers. -/
def Obligations.SpawnsCreateThreads : Prop := Clauses.SpawnRequestsAreGranted ∧ Clauses.SpawnedThreadIsCreated

/-- The statement of `Clauses.TranslationChecks`, `Clauses.WalksReadTheTables`: each part says with its rules what it covers. -/
def Obligations.TranslationsAndWalks : Prop := Clauses.TranslationChecks ∧ Clauses.WalksReadTheTables

/-- The statement of `Clauses.HomeServesRequests`: each part says with its rules what it covers. -/
def Obligations.HomesServeRequests : Prop := Clauses.HomeServesRequests

/-- The statement of `Clauses.RecallsTakeCopies`, `Clauses.RepliesReachTheirGrid`: each part says with its rules what it covers. -/
def Obligations.CopiesAreRecalledAndFilled : Prop := Clauses.RecallsTakeCopies ∧ Clauses.RepliesReachTheirGrid

/-- The statement of `Clauses.AtomicsReserve`: each part says with its rules what it covers. -/
def Obligations.AtomicsReserveAtTheirHome : Prop := Clauses.AtomicsReserve

/-- The statement of `Clauses.VaultsServeAccesses`: each part says with its rules what it covers. -/
def Obligations.VaultsKeepFullEmptyBits : Prop := Clauses.VaultsServeAccesses

/-- The statement of `Clauses.SignaturesCover`, `Clauses.SignaturesArePurged`: each part says with its rules what it covers. -/
def Obligations.SignaturesCoverAndArePurged : Prop := Clauses.SignaturesCover ∧ Clauses.SignaturesArePurged

/-- The statement of `Clauses.EnginesOwnAndWrite`, `Clauses.CopyWritesWhatItRead`: each part says with its rules what it covers. -/
def Obligations.EnginesOwnReadAndWrite : Prop := Clauses.EnginesOwnAndWrite ∧ Clauses.CopyWritesWhatItRead

/-- The statement of `Clauses.OutsideAccessesAreServed`: each part says with its rules what it covers. -/
def Obligations.OutsideAccesses : Prop := Clauses.OutsideAccessesAreServed

/-- The statement of `Clauses.BringUp`, `Clauses.RegisterWritesAct`: each part says with its rules what it covers. -/
def Obligations.BringUpAndRegisters : Prop := Clauses.BringUp ∧ Clauses.RegisterWritesAct

/-- The statement of `Clauses.CommandsAreAnswered`: each part says with its rules what it covers. -/
def Obligations.MailboxCommands : Prop := Clauses.CommandsAreAnswered

/-- The statement of `Clauses.ThreadsAreSavedAndResumed`: each part says with its rules what it covers. -/
def Obligations.PreemptionSavesAndResumes : Prop := Clauses.ThreadsAreSavedAndResumed
end

