-- ==== Sys2Proof/Laws/Codec.lean ====
section
/-! SUPPORT. The words of the encoder, read back field by field: one lemma for each layout. -/

namespace Sys2Proof

set_option Elab.async false
set_option linter.unusedSimpArgs false

/-- A field above the low part of two joined words. -/
theorem bits_app_ge {v w : Nat} (x : BitVec v) (y : BitVec w) (s l : Nat) (h : w ≤ s) :
    bits (x ++ y) s l = bits x (s - w) l := by
  ext i hi
  simp only [bits, BitVec.getElem_extractLsb', BitVec.getLsbD_append]
  rw [if_neg (by omega)]
  congr 1
  omega

/-- A field inside the low part of two joined words. -/
theorem bits_app_lt {v w : Nat} (x : BitVec v) (y : BitVec w) (s l : Nat) (h : s + l ≤ w) :
    bits (x ++ y) s l = bits y s l := by
  ext i hi
  simp only [bits, BitVec.getElem_extractLsb', BitVec.getLsbD_append]
  rw [if_pos (by omega)]

/-- The whole of a word. -/
theorem bits_self {v : Nat} (x : BitVec v) : bits x 0 v = x := by simp [bits]

theorem opc_pkG (op : BitVec 7) (x : BitVec 5) (f : GF) : opc (pkG op x f) = op.toNat := by
  simp (disch := decide) only [opc, pkG, bits_app_ge, bits_app_lt, bits_self, Nat.reduceSub]

theorem xop_pkG (op : BitVec 7) (x : BitVec 5) (f : GF) : xop (pkG op x f) = x.toNat := by
  simp (disch := decide) only [xop, pkG, bits_app_ge, bits_app_lt, bits_self, Nat.reduceSub]

theorem unG_pk (op : BitVec 7) (x : BitVec 5) (f : GF) : unG (pkG op x f) = f := by
  simp (disch := decide) only [unG, pkG, bits_app_ge, bits_app_lt, bits_self, Nat.reduceSub]

theorem opc_pkFma (op : BitVec 7) (x : BitVec 5) (f : FmaF) : opc (pkFma op x f) = op.toNat := by
  simp (disch := decide) only [opc, pkFma, bits_app_ge, bits_app_lt, bits_self, Nat.reduceSub]

theorem xop_pkFma (op : BitVec 7) (x : BitVec 5) (f : FmaF) : xop (pkFma op x f) = x.toNat := by
  simp (disch := decide) only [xop, pkFma, bits_app_ge, bits_app_lt, bits_self, Nat.reduceSub]

theorem unFma_pk (op : BitVec 7) (x : BitVec 5) (f : FmaF) : unFma (pkFma op x f) = f := by
  simp (disch := decide) only [unFma, pkFma, bits_app_ge, bits_app_lt, bits_self, Nat.reduceSub]

theorem opc_pkI (op : BitVec 7) (f : IF) : opc (pkI op f) = op.toNat := by
  simp (disch := decide) only [opc, pkI, bits_app_ge, bits_app_lt, bits_self, Nat.reduceSub]

theorem unI_pk (op : BitVec 7) (f : IF) : unI (pkI op f) = f := by
  simp (disch := decide) only [unI, pkI, bits_app_ge, bits_app_lt, bits_self, Nat.reduceSub]

theorem opc_pkSh (op : BitVec 7) (f : ShF) : opc (pkSh op f) = op.toNat := by
  simp (disch := decide) only [opc, pkSh, bits_app_ge, bits_app_lt, bits_self, Nat.reduceSub]

theorem unSh_pk (op : BitVec 7) (f : ShF) : unSh (pkSh op f) = f := by
  simp (disch := decide) only [unSh, pkSh, bits_app_ge, bits_app_lt, bits_self, Nat.reduceSub]

theorem opc_pkC (op : BitVec 7) (f : CF) : opc (pkC op f) = op.toNat := by
  simp (disch := decide) only [opc, pkC, bits_app_ge, bits_app_lt, bits_self, Nat.reduceSub]

theorem unC_pk (op : BitVec 7) (f : CF) : unC (pkC op f) = f := by
  simp (disch := decide) only [unC, pkC, bits_app_ge, bits_app_lt, bits_self, Nat.reduceSub]

theorem opc_pkL (op : BitVec 7) (f : LF) : opc (pkL op f) = op.toNat := by
  simp (disch := decide) only [opc, pkL, bits_app_ge, bits_app_lt, bits_self, Nat.reduceSub]

theorem unL_pk (op : BitVec 7) (f : LF) : unL (pkL op f) = f := by
  simp (disch := decide) only [unL, pkL, bits_app_ge, bits_app_lt, bits_self, Nat.reduceSub]

theorem opc_pkS (op : BitVec 7) (f : SF) : opc (pkS op f) = op.toNat := by
  simp (disch := decide) only [opc, pkS, bits_app_ge, bits_app_lt, bits_self, Nat.reduceSub]

theorem unS_pk (op : BitVec 7) (f : SF) : unS (pkS op f) = f := by
  simp (disch := decide) only [unS, pkS, bits_app_ge, bits_app_lt, bits_self, Nat.reduceSub]

theorem opc_pkB (op : BitVec 7) (f : BF) : opc (pkB op f) = op.toNat := by
  simp (disch := decide) only [opc, pkB, bits_app_ge, bits_app_lt, bits_self, Nat.reduceSub]

theorem unB_pk (op : BitVec 7) (f : BF) : unB (pkB op f) = f := by
  simp (disch := decide) only [unB, pkB, bits_app_ge, bits_app_lt, bits_self, Nat.reduceSub]

theorem opc_pkBr (op : BitVec 7) (f : BrF) : opc (pkBr op f) = op.toNat := by
  simp (disch := decide) only [opc, pkBr, bits_app_ge, bits_app_lt, bits_self, Nat.reduceSub]

theorem unBr_pk (op : BitVec 7) (f : BrF) : unBr (pkBr op f) = f := by
  simp (disch := decide) only [unBr, pkBr, bits_app_ge, bits_app_lt, bits_self, Nat.reduceSub]

theorem opc_pkHint (f : HintF) : opc (pkHint f) = 0x6C + f.h.toNat := by
  have h : bits (pkHint f) 25 7 = 0x1B#5 ++ f.h := by
    apply BitVec.eq_of_getLsbD_eq
    intro i hi
    simp only [bits, pkHint, BitVec.getLsbD_extractLsb', BitVec.getLsbD_append, hi, decide_true, Bool.true_and]
    rw [if_neg (by omega), if_neg (by omega), if_neg (by omega), if_neg (by omega)]
    by_cases hc : i < 2
    · rw [if_pos (by omega), if_pos hc]
      congr 1
      omega
    · rw [if_neg (by omega), if_neg hc]
      congr 1
      omega
  simp only [opc, h, BitVec.toNat_append]
  have : f.h = 0#2 ∨ f.h = 1#2 ∨ f.h = 2#2 ∨ f.h = 3#2 := by
    generalize f.h = y; revert y; decide
  rcases this with e | e | e | e <;> rw [e] <;> rfl

theorem unHint_pk (f : HintF) : unHint (pkHint f) = f := by
  simp (disch := decide) only [unHint, pkHint, bits_app_ge, bits_app_lt, bits_self, Nat.reduceSub]

theorem okBr_pk (op : BitVec 7) (f : BrF) : okBr (pkBr op f) = true := by
  simp (disch := decide) only [okBr, pkBr, noTargets, bits_app_ge, bits_app_lt, bits_self, Nat.reduceSub]
  decide

theorem okSh_pk (op : BitVec 7) (f : ShF) : okSh (pkSh op f) = true := by
  simp (disch := decide) only [okSh, pkSh, bits_app_ge, bits_app_lt, bits_self, Nat.reduceSub]
  decide

theorem fmaPred_pk (op : BitVec 7) (x : BitVec 5) (f : FmaF) : bits (pkFma op x f) 23 2 = 0#2 := by
  simp (disch := decide) only [pkFma, bits_app_ge, bits_app_lt, bits_self, Nat.reduceSub]

theorem opc_pkW (op : BitVec 7) (x : BitVec 5) (p : BitVec 2) (t1 t0 : BitVec 9) : opc (pkW op x p t1 t0) = op.toNat := by
  simp (disch := decide) only [opc, pkW, bits_app_ge, bits_app_lt, bits_self, Nat.reduceSub]

theorem xop_pkW (op : BitVec 7) (x : BitVec 5) (p : BitVec 2) (t1 t0 : BitVec 9) : xop (pkW op x p t1 t0) = x.toNat := by
  simp (disch := decide) only [xop, pkW, bits_app_ge, bits_app_lt, bits_self, Nat.reduceSub]

theorem unMem_pk (op : BitVec 7) (x : BitVec 5) (f : MemF) :
    unMem (pkW op x f.p f.t1 f.t0) (f.off ++ f.sx ++ f.fe ++ f.ord ++ f.scope ++ f.cls ++ f.size ++ f.lsid) = f := by
  simp (disch := decide) only [unMem, pkW, bits_app_ge, bits_app_lt, bits_self, Nat.reduceSub]

theorem unSync_pk (op : BitVec 7) (x : BitVec 5) (f : SyncF) :
    unSync (pkW op x f.p f.t1 f.t0) (0#12 ++ f.bid ++ f.ord ++ f.scope ++ 0#6 ++ f.lsid) = f := by
  simp (disch := decide) only [unSync, pkW, bits_app_ge, bits_app_lt, bits_self, Nat.reduceSub]

theorem okSync_pk (op : BitVec 7) (x : BitVec 5) (f : SyncF) :
    okSync (pkW op x f.p f.t1 f.t0) (0#12 ++ f.bid ++ f.ord ++ f.scope ++ 0#6 ++ f.lsid) = true := by
  simp (disch := decide) only [okSync, pkW, noTargets, bits_app_ge, bits_app_lt, bits_self, Nat.reduceSub]
  decide

theorem unVec_pk (op : BitVec 7) (x : BitVec 5) (f : VecF) :
    unVec (pkW op x f.p f.t1 f.t0) (f.imm8 ++ f.pl ++ f.ty2 ++ f.sat ++ 0#4 ++ f.rnd ++ 0#3 ++ f.ty) = f := by
  simp (disch := decide) only [unVec, pkW, bits_app_ge, bits_app_lt, bits_self, Nat.reduceSub]

theorem okVec_pk (op : BitVec 7) (x : BitVec 5) (f : VecF) :
    okVec (pkW op x f.p f.t1 f.t0) (f.imm8 ++ f.pl ++ f.ty2 ++ f.sat ++ 0#4 ++ f.rnd ++ 0#3 ++ f.ty) = true := by
  simp (disch := decide) only [okVec, pkW, noTargets, bits_app_ge, bits_app_lt, bits_self, Nat.reduceSub]
  decide

theorem unClaim_pk (op : BitVec 7) (x : BitVec 5) (f : ClaimF) :
    unClaim (pkW op x f.p f.t1 f.t0) (0#26 ++ f.pair ++ f.lsid) = f := by
  simp (disch := decide) only [unClaim, pkW, bits_app_ge, bits_app_lt, bits_self, Nat.reduceSub]

theorem okClaim_pk (op : BitVec 7) (x : BitVec 5) (f : ClaimF) :
    okClaim (pkW op x f.p f.t1 f.t0) (0#26 ++ f.pair ++ f.lsid) = true := by
  simp (disch := decide) only [okClaim, pkW, noTargets, bits_app_ge, bits_app_lt, bits_self, Nat.reduceSub]
  decide

theorem unLs_pk (op : BitVec 7) (x : BitVec 5) (f : LsF) :
    unLs (pkW op x f.p noTarget noTarget) (0#27 ++ f.lsid) = f := by
  simp (disch := decide) only [unLs, pkW, bits_app_ge, bits_app_lt, bits_self, Nat.reduceSub]

theorem okLs_pk (op : BitVec 7) (x : BitVec 5) (f : LsF) :
    okLs (pkW op x f.p noTarget noTarget) (0#27 ++ f.lsid) = true := by
  simp (disch := decide) only [okLs, pkW, noTargets, bits_app_ge, bits_app_lt, bits_self, Nat.reduceSub]
  decide

theorem unRs_pk (op : BitVec 7) (x : BitVec 5) (f : RsF) :
    unRs (pkW op x f.p f.t1 f.t0) (0#27 ++ f.lsid) = f := by
  simp (disch := decide) only [unRs, pkW, bits_app_ge, bits_app_lt, bits_self, Nat.reduceSub]

theorem okRs_pk (op : BitVec 7) (x : BitVec 5) (f : RsF) :
    okRs (pkW op x f.p f.t1 f.t0) (0#27 ++ f.lsid) = true := by
  simp (disch := decide) only [okRs, pkW, noTargets, bits_app_ge, bits_app_lt, bits_self, Nat.reduceSub]
  decide

theorem unShape_pk (op : BitVec 7) (x : BitVec 5) (f : ShapeF) :
    unShape (pkW op x f.p noTarget noTarget) (f.rowsm1 ++ f.colsm1 ++ f.fmt ++ 0#5 ++ f.lsid) = f := by
  simp (disch := decide) only [unShape, pkW, bits_app_ge, bits_app_lt, bits_self, Nat.reduceSub]

theorem okShape_pk (op : BitVec 7) (x : BitVec 5) (f : ShapeF) :
    okShape (pkW op x f.p noTarget noTarget) (f.rowsm1 ++ f.colsm1 ++ f.fmt ++ 0#5 ++ f.lsid) = true := by
  simp (disch := decide) only [okShape, pkW, noTargets, bits_app_ge, bits_app_lt, bits_self, Nat.reduceSub]
  decide

theorem unXfer_pk (op : BitVec 7) (x : BitVec 5) (f : XferF) :
    unXfer (pkW op x 0#2 f.t1 f.t0) (f.row0 ++ f.nrowm1 ++ f.pl ++ f.scope ++ f.cls ++ 0#4 ++ f.lsid) = f := by
  simp (disch := decide) only [unXfer, pkW, bits_app_ge, bits_app_lt, bits_self, Nat.reduceSub]

theorem okXfer_pk (op : BitVec 7) (x : BitVec 5) (f : XferF) :
    okXfer (pkW op x 0#2 f.t1 f.t0) (f.row0 ++ f.nrowm1 ++ f.pl ++ f.scope ++ f.cls ++ 0#4 ++ f.lsid) = true := by
  simp (disch := decide) only [okXfer, pkW, noTargets, bits_app_ge, bits_app_lt, bits_self, Nat.reduceSub]
  decide

theorem unRow_pk (op : BitVec 7) (x : BitVec 5) (f : RowF) :
    unRow (pkW op x f.p f.t1 f.t0) (f.row ++ f.seg ++ 0#17 ++ f.lsid) = f := by
  simp (disch := decide) only [unRow, pkW, bits_app_ge, bits_app_lt, bits_self, Nat.reduceSub]

theorem okRow_pk (op : BitVec 7) (x : BitVec 5) (f : RowF) :
    okRow (pkW op x f.p f.t1 f.t0) (f.row ++ f.seg ++ 0#17 ++ f.lsid) = true := by
  simp (disch := decide) only [okRow, pkW, noTargets, bits_app_ge, bits_app_lt, bits_self, Nat.reduceSub]
  decide

theorem unCol_pk (op : BitVec 7) (x : BitVec 5) (f : ColF) :
    unCol (pkW op x f.p f.t1 f.t0) (f.row0 ++ f.col ++ 0#11 ++ f.lsid) = f := by
  simp (disch := decide) only [unCol, pkW, bits_app_ge, bits_app_lt, bits_self, Nat.reduceSub]

theorem okCol_pk (op : BitVec 7) (x : BitVec 5) (f : ColF) :
    okCol (pkW op x f.p f.t1 f.t0) (f.row0 ++ f.col ++ 0#11 ++ f.lsid) = true := by
  simp (disch := decide) only [okCol, pkW, noTargets, bits_app_ge, bits_app_lt, bits_self, Nat.reduceSub]
  decide

theorem unMma_pk (op : BitVec 7) (x : BitVec 5) (f : MmaF) :
    unMma (pkW op x f.p f.t1 f.t0) (f.pl ++ 0#24 ++ f.lsid) = f := by
  simp (disch := decide) only [unMma, pkW, bits_app_ge, bits_app_lt, bits_self, Nat.reduceSub]

theorem okMma_pk (op : BitVec 7) (x : BitVec 5) (f : MmaF) :
    okMma (pkW op x f.p f.t1 f.t0) (f.pl ++ 0#24 ++ f.lsid) = true := by
  simp (disch := decide) only [okMma, pkW, noTargets, bits_app_ge, bits_app_lt, bits_self, Nat.reduceSub]
  decide

theorem unScan_pk (op : BitVec 7) (x : BitVec 5) (f : ScanF) :
    unScan (pkW op x f.p f.t1 f.t0) (f.hrow ++ 0#20 ++ f.lsid) = f := by
  simp (disch := decide) only [unScan, pkW, bits_app_ge, bits_app_lt, bits_self, Nat.reduceSub]

theorem okScan_pk (op : BitVec 7) (x : BitVec 5) (f : ScanF) :
    okScan (pkW op x f.p f.t1 f.t0) (f.hrow ++ 0#20 ++ f.lsid) = true := by
  simp (disch := decide) only [okScan, pkW, noTargets, bits_app_ge, bits_app_lt, bits_self, Nat.reduceSub]
  decide

theorem unAccr_pk (op : BitVec 7) (x : BitVec 5) (f : AccrF) :
    unAccr (pkW op x f.p f.t1 f.t0) (f.rnd ++ f.clr ++ 0#23 ++ f.lsid) = f := by
  simp (disch := decide) only [unAccr, pkW, bits_app_ge, bits_app_lt, bits_self, Nat.reduceSub]

theorem okAccr_pk (op : BitVec 7) (x : BitVec 5) (f : AccrF) :
    okAccr (pkW op x f.p f.t1 f.t0) (f.rnd ++ f.clr ++ 0#23 ++ f.lsid) = true := by
  simp (disch := decide) only [okAccr, pkW, noTargets, bits_app_ge, bits_app_lt, bits_self, Nat.reduceSub]
  decide

theorem unLcload_pk (op : BitVec 7) (x : BitVec 5) (f : LcloadF) :
    unLcload (pkW op x f.p f.t1 f.t0) (0#11 ++ f.ctx ++ f.cls ++ f.scope ++ f.ntf ++ f.port ++ f.lsid) = f := by
  simp (disch := decide) only [unLcload, pkW, bits_app_ge, bits_app_lt, bits_self, Nat.reduceSub]

theorem okLcload_pk (op : BitVec 7) (x : BitVec 5) (f : LcloadF) :
    okLcload (pkW op x f.p f.t1 f.t0) (0#11 ++ f.ctx ++ f.cls ++ f.scope ++ f.ntf ++ f.port ++ f.lsid) = true := by
  simp (disch := decide) only [okLcload, pkW, noTargets, bits_app_ge, bits_app_lt, bits_self, Nat.reduceSub]
  decide

theorem unLcsel_pk (op : BitVec 7) (x : BitVec 5) (f : LcselF) :
    unLcsel (pkW op x f.p f.t1 f.t0) (0#11 ++ f.ctx ++ 0#3 ++ f.scope ++ f.ntf ++ f.port ++ f.lsid) = f := by
  simp (disch := decide) only [unLcsel, pkW, bits_app_ge, bits_app_lt, bits_self, Nat.reduceSub]

theorem okLcsel_pk (op : BitVec 7) (x : BitVec 5) (f : LcselF) :
    okLcsel (pkW op x f.p f.t1 f.t0) (0#11 ++ f.ctx ++ 0#3 ++ f.scope ++ f.ntf ++ f.port ++ f.lsid) = true := by
  simp (disch := decide) only [okLcsel, pkW, noTargets, bits_app_ge, bits_app_lt, bits_self, Nat.reduceSub]
  decide

theorem unLcin_pk (op : BitVec 7) (x : BitVec 5) (f : LcinF) :
    unLcin (pkW op x 0#2 f.t1 f.t0) (f.ty ++ f.plm1 ++ 0#4 ++ f.thr ++ f.bank ++ f.cls ++ f.scope ++ f.ntf ++ f.port ++ f.lsid) = f := by
  simp (disch := decide) only [unLcin, pkW, bits_app_ge, bits_app_lt, bits_self, Nat.reduceSub]

theorem okLcin_pk (op : BitVec 7) (x : BitVec 5) (f : LcinF) :
    okLcin (pkW op x 0#2 f.t1 f.t0) (f.ty ++ f.plm1 ++ 0#4 ++ f.thr ++ f.bank ++ f.cls ++ f.scope ++ f.ntf ++ f.port ++ f.lsid) = true := by
  simp (disch := decide) only [okLcin, pkW, noTargets, bits_app_ge, bits_app_lt, bits_self, Nat.reduceSub]
  decide

theorem unLcrun_pk (op : BitVec 7) (x : BitVec 5) (f : LcrunF) :
    unLcrun (pkW op x f.p f.t1 f.t0) (0#10 ++ f.repm1 ++ 0#3 ++ f.scope ++ f.ntf ++ f.port ++ f.lsid) = f := by
  simp (disch := decide) only [unLcrun, pkW, bits_app_ge, bits_app_lt, bits_self, Nat.reduceSub]

theorem okLcrun_pk (op : BitVec 7) (x : BitVec 5) (f : LcrunF) :
    okLcrun (pkW op x f.p f.t1 f.t0) (0#10 ++ f.repm1 ++ 0#3 ++ f.scope ++ f.ntf ++ f.port ++ f.lsid) = true := by
  simp (disch := decide) only [okLcrun, pkW, noTargets, bits_app_ge, bits_app_lt, bits_self, Nat.reduceSub]
  decide

theorem unLcout_pk (op : BitVec 7) (x : BitVec 5) (f : LcoutF) :
    unLcout (pkW op x f.p f.t1 f.t0) (0#13 ++ f.bank ++ f.cls ++ f.scope ++ f.ntf ++ f.port ++ f.lsid) = f := by
  simp (disch := decide) only [unLcout, pkW, bits_app_ge, bits_app_lt, bits_self, Nat.reduceSub]

theorem okLcout_pk (op : BitVec 7) (x : BitVec 5) (f : LcoutF) :
    okLcout (pkW op x f.p f.t1 f.t0) (0#13 ++ f.bank ++ f.cls ++ f.scope ++ f.ntf ++ f.port ++ f.lsid) = true := by
  simp (disch := decide) only [okLcout, pkW, noTargets, bits_app_ge, bits_app_lt, bits_self, Nat.reduceSub]
  decide

theorem unCpy_pk (op : BitVec 7) (x : BitVec 5) (f : CpyF) :
    unCpy (pkW op x 0#2 f.t1 f.t0) (f.cv ++ f.stype ++ f.dtype ++ f.rnd ++ f.cls ++ f.scope ++ f.ntf ++ f.port ++ f.lsid) = f := by
  simp (disch := decide) only [unCpy, pkW, bits_app_ge, bits_app_lt, bits_self, Nat.reduceSub]

theorem okCpy_pk (op : BitVec 7) (x : BitVec 5) (f : CpyF) :
    okCpy (pkW op x 0#2 f.t1 f.t0) (f.cv ++ f.stype ++ f.dtype ++ f.rnd ++ f.cls ++ f.scope ++ f.ntf ++ f.port ++ f.lsid) = true := by
  simp (disch := decide) only [okCpy, pkW, noTargets, bits_app_ge, bits_app_lt, bits_self, Nat.reduceSub]
  decide

theorem unCpys_pk (op : BitVec 7) (x : BitVec 5) (f : CpysF) :
    unCpys (pkW op x 0#2 f.t1 f.t0) (0#14 ++ f.cls ++ f.scope ++ f.ntf ++ f.port ++ f.lsid) = f := by
  simp (disch := decide) only [unCpys, pkW, bits_app_ge, bits_app_lt, bits_self, Nat.reduceSub]

theorem okCpys_pk (op : BitVec 7) (x : BitVec 5) (f : CpysF) :
    okCpys (pkW op x 0#2 f.t1 f.t0) (0#14 ++ f.cls ++ f.scope ++ f.ntf ++ f.port ++ f.lsid) = true := by
  simp (disch := decide) only [okCpys, pkW, noTargets, bits_app_ge, bits_app_lt, bits_self, Nat.reduceSub]
  decide

theorem unStq_pk (op : BitVec 7) (x : BitVec 5) (f : StqF) :
    unStq (pkW op x f.p f.t1 f.t0) (0#25 ++ f.sel ++ 0#5) = f := by
  simp (disch := decide) only [unStq, pkW, bits_app_ge, bits_app_lt, bits_self, Nat.reduceSub]

theorem okStq_pk (op : BitVec 7) (x : BitVec 5) (f : StqF) :
    okStq (pkW op x f.p f.t1 f.t0) (0#25 ++ f.sel ++ 0#5) = true := by
  simp (disch := decide) only [okStq, pkW, noTargets, bits_app_ge, bits_app_lt, bits_self, Nat.reduceSub]
  decide

theorem unSend_pk (op : BitVec 7) (x : BitVec 5) (f : SendF) :
    unSend (pkW op x f.p f.t1 f.t0) (0#18 ++ f.scope ++ f.wcm1 ++ f.v ++ 0#2 ++ f.lsid) = f := by
  simp (disch := decide) only [unSend, pkW, bits_app_ge, bits_app_lt, bits_self, Nat.reduceSub]

theorem okSend_pk (op : BitVec 7) (x : BitVec 5) (f : SendF) :
    okSend (pkW op x f.p f.t1 f.t0) (0#18 ++ f.scope ++ f.wcm1 ++ f.v ++ 0#2 ++ f.lsid) = true := by
  simp (disch := decide) only [okSend, pkW, noTargets, bits_app_ge, bits_app_lt, bits_self, Nat.reduceSub]
  decide

theorem unC3_pk (op : BitVec 7) (x : BitVec 5) (f : C3F) :
    unC3 (pkW op x 0#2 noTarget noTarget) (0#27 ++ f.lsid) = f := by
  simp (disch := decide) only [unC3, pkW, bits_app_ge, bits_app_lt, bits_self, Nat.reduceSub]

theorem okC3_pk (op : BitVec 7) (x : BitVec 5) (f : C3F) :
    okC3 (pkW op x 0#2 noTarget noTarget) (0#27 ++ f.lsid) = true := by
  simp (disch := decide) only [okC3, pkW, noTargets, bits_app_ge, bits_app_lt, bits_self, Nat.reduceSub]
  decide

theorem unSpawn_pk (op : BitVec 7) (x : BitVec 5) (f : SpawnF) :
    unSpawn (pkW op x 0#2 f.t1 f.t0) (0#18 ++ f.scope ++ 0#6 ++ f.lsid) = f := by
  simp (disch := decide) only [unSpawn, pkW, bits_app_ge, bits_app_lt, bits_self, Nat.reduceSub]

theorem okSpawn_pk (op : BitVec 7) (x : BitVec 5) (f : SpawnF) :
    okSpawn (pkW op x 0#2 f.t1 f.t0) (0#18 ++ f.scope ++ 0#6 ++ f.lsid) = true := by
  simp (disch := decide) only [okSpawn, pkW, noTargets, bits_app_ge, bits_app_lt, bits_self, Nat.reduceSub]
  decide

theorem unP_pk (op : BitVec 7) (x : BitVec 5) (f : PF) :
    unP (pkW op x f.p noTarget noTarget) (0#32) = f := by
  simp (disch := decide) only [unP, pkW, bits_app_ge, bits_app_lt, bits_self, Nat.reduceSub]

theorem okP_pk (op : BitVec 7) (x : BitVec 5) (f : PF) :
    okP (pkW op x f.p noTarget noTarget) (0#32) = true := by
  simp (disch := decide) only [okP, pkW, noTargets, bits_app_ge, bits_app_lt, bits_self, Nat.reduceSub]
  decide

theorem unTrap_pk (op : BitVec 7) (x : BitVec 5) (f : TrapF) :
    unTrap (pkW op x f.p noTarget noTarget) (0#8 ++ f.code ++ 0#8) = f := by
  simp (disch := decide) only [unTrap, pkW, bits_app_ge, bits_app_lt, bits_self, Nat.reduceSub]

theorem okTrap_pk (op : BitVec 7) (x : BitVec 5) (f : TrapF) :
    okTrap (pkW op x f.p noTarget noTarget) (0#8 ++ f.code ++ 0#8) = true := by
  simp (disch := decide) only [okTrap, pkW, noTargets, bits_app_ge, bits_app_lt, bits_self, Nat.reduceSub]
  decide

theorem unEret_pk (op : BitVec 7) (x : BitVec 5) (f : EretF) :
    unEret (pkW op x f.p noTarget noTarget) (0#24 ++ f.ex ++ 0#5) = f := by
  simp (disch := decide) only [unEret, pkW, bits_app_ge, bits_app_lt, bits_self, Nat.reduceSub]

theorem okEret_pk (op : BitVec 7) (x : BitVec 5) (f : EretF) :
    okEret (pkW op x f.p noTarget noTarget) (0#24 ++ f.ex ++ 0#5) = true := by
  simp (disch := decide) only [okEret, pkW, noTargets, bits_app_ge, bits_app_lt, bits_self, Nat.reduceSub]
  decide

theorem unTlbinv_pk (op : BitVec 7) (x : BitVec 5) (f : TlbinvF) :
    unTlbinv (pkW op x f.p noTarget noTarget) (0#18 ++ f.scope ++ 0#3 ++ f.mode ++ 0#1 ++ f.lsid) = f := by
  simp (disch := decide) only [unTlbinv, pkW, bits_app_ge, bits_app_lt, bits_self, Nat.reduceSub]

theorem okTlbinv_pk (op : BitVec 7) (x : BitVec 5) (f : TlbinvF) :
    okTlbinv (pkW op x f.p noTarget noTarget) (0#18 ++ f.scope ++ 0#3 ++ f.mode ++ 0#1 ++ f.lsid) = true := by
  simp (disch := decide) only [okTlbinv, pkW, noTargets, bits_app_ge, bits_app_lt, bits_self, Nat.reduceSub]
  decide

theorem unPerfr_pk (op : BitVec 7) (x : BitVec 5) (f : PerfrF) :
    unPerfr (pkW op x f.p f.t1 f.t0) (0#21 ++ f.sel ++ 0#8) = f := by
  simp (disch := decide) only [unPerfr, pkW, bits_app_ge, bits_app_lt, bits_self, Nat.reduceSub]

theorem okPerfr_pk (op : BitVec 7) (x : BitVec 5) (f : PerfrF) :
    okPerfr (pkW op x f.p f.t1 f.t0) (0#21 ++ f.sel ++ 0#8) = true := by
  simp (disch := decide) only [okPerfr, pkW, noTargets, bits_app_ge, bits_app_lt, bits_self, Nat.reduceSub]
  decide

theorem unCalli_pk (op : BitVec 7) (x : BitVec 5) (f : CalliF) :
    unCalli (pkW op x f.p noTarget noTarget) (0#8 ++ f.sig ++ f.ex ++ f.lsid) = f := by
  simp (disch := decide) only [unCalli, pkW, bits_app_ge, bits_app_lt, bits_self, Nat.reduceSub]

theorem okCalli_pk (op : BitVec 7) (x : BitVec 5) (f : CalliF) :
    okCalli (pkW op x f.p noTarget noTarget) (0#8 ++ f.sig ++ f.ex ++ f.lsid) = true := by
  simp (disch := decide) only [okCalli, pkW, noTargets, bits_app_ge, bits_app_lt, bits_self, Nat.reduceSub]
  decide

theorem unMov4_pk (op : BitVec 7) (x : BitVec 5) (f : Mov4F) :
    unMov4 (pkW op x f.p f.t1 f.t0) (0#14 ++ f.t3 ++ f.t2) = f := by
  simp (disch := decide) only [unMov4, pkW, bits_app_ge, bits_app_lt, bits_self, Nat.reduceSub]

theorem okMov4_pk (op : BitVec 7) (x : BitVec 5) (f : Mov4F) :
    okMov4 (pkW op x f.p f.t1 f.t0) (0#14 ++ f.t3 ++ f.t2) = true := by
  simp (disch := decide) only [okMov4, pkW, noTargets, bits_app_ge, bits_app_lt, bits_self, Nat.reduceSub]
  decide

theorem unG2_pk (op : BitVec 7) (x : BitVec 5) (f : GF) :
    unG (pkW op x f.p f.t1 f.t0) = f := by
  simp (disch := decide) only [unG, pkW, bits_app_ge, bits_app_lt, bits_self, Nat.reduceSub]

/-- A well-formed instruction found in a group passes its field rules. -/
theorem gate_wellFormed (i : Instr) (h : i.wellFormed = true) : gate (some i) = .ok i := by
  simp only [Instr.wellFormed, Bool.and_eq_true] at h
  simp [gate, h.1.1]

end Sys2Proof
end

