-- ==== Sys2Proof/Laws/Table.lean ====
section
/-! SUPPORT. What the sparse tables and the byte memory do: reading after writing, and the canonical forms kept. -/

namespace Sys2Proof.Machine

set_option Elab.async false

/-! ### Tables -/

@[simp] theorem tget_nil {α : Type} (a : Nat) : tget ([] : Tab α) a = none := rfl

@[simp] theorem tget_tset_same {α : Type} (t : Tab α) (a : Nat) (x : α) : tget (tset t a x) a = some x := by
  induction t with
  | nil => simp [tset, tget]
  | cons e r ih =>
    obtain ⟨k, v⟩ := e
    simp only [tset]
    split
    · simp [tget]
    · split
      · simp [tget]
      · rename_i h
        simp [tget, ih, Ne.symm h]

theorem tget_tset_other {α : Type} (t : Tab α) (a b : Nat) (x : α) (h : b ≠ a) : tget (tset t a x) b = tget t b := by
  induction t with
  | nil => simp [tset, tget, Ne.symm h]
  | cons e r ih =>
    obtain ⟨k, v⟩ := e
    simp only [tset]
    split
    · simp [tget, Ne.symm h]
    · split
      · rename_i h'
        subst h'
        simp [tget, Ne.symm h]
      · simp [tget, ih]

theorem tget_tdel_other {α : Type} (t : Tab α) (a b : Nat) (h : b ≠ a) : tget (tdel t a) b = tget t b := by
  induction t with
  | nil => rfl
  | cons e r ih =>
    obtain ⟨k, v⟩ := e
    simp only [tdel]
    split
    · rename_i h'
      subst h'
      simp [tget, Ne.symm h]
    · simp [tget, ih]

/-- A lower bound that every key of a rising table exceeds. -/
theorem keysFrom_lower {α : Type} (t : Tab α) (lo : Option Nat) (lo' : Option Nat)
    (h : keysFrom lo t = true) (hl : ∀ k v r, t = (k, v) :: r → lo'.all (· < k) = true) : keysFrom lo' t = true := by
  cases t with
  | nil => rfl
  | cons e r =>
    obtain ⟨k, v⟩ := e
    simp only [keysFrom, Bool.and_eq_true] at h ⊢
    exact ⟨hl k v r rfl, h.2⟩

theorem tget_above {α : Type} (t : Tab α) (lo a : Nat) (h : keysFrom (some lo) t = true) (ha : a ≤ lo) :
    tget t a = none := by
  induction t generalizing lo with
  | nil => rfl
  | cons e r ih =>
    obtain ⟨k, v⟩ := e
    simp only [keysFrom, Bool.and_eq_true, Option.all_some, decide_eq_true_eq] at h
    have : k ≠ a := by omega
    simp [tget, this, ih k h.2 (by omega)]

theorem keysFrom_tset {α : Type} (t : Tab α) (lo : Option Nat) (a : Nat) (x : α)
    (h : keysFrom lo t = true) (hl : lo.all (· < a) = true) : keysFrom lo (tset t a x) = true := by
  induction t generalizing lo with
  | nil => simp [tset, keysFrom, hl]
  | cons e r ih =>
    obtain ⟨k, v⟩ := e
    simp only [keysFrom, Bool.and_eq_true] at h
    simp only [tset]
    split
    · rename_i hk
      simp [keysFrom, hl, hk, h.2]
    · split
      · rename_i hk
        subst hk
        simp [keysFrom, hl, h.2]
      · simp only [keysFrom, Bool.and_eq_true]
        refine ⟨h.1, ih _ h.2 ?_⟩
        simp only [Option.all_some, decide_eq_true_eq]
        omega

theorem keysFrom_weaken {α : Type} (t : Tab α) (lo k : Nat) (h : keysFrom (some k) t = true) (hk : lo ≤ k) :
    keysFrom (some lo) t = true := by
  cases t with
  | nil => rfl
  | cons e r =>
    obtain ⟨k', v⟩ := e
    simp only [keysFrom, Bool.and_eq_true, Option.all_some, decide_eq_true_eq] at h ⊢
    exact ⟨by omega, h.2⟩

theorem keysFrom_tdel {α : Type} (t : Tab α) (lo : Option Nat) (a : Nat) (h : keysFrom lo t = true) :
    keysFrom lo (tdel t a) = true := by
  induction t generalizing lo with
  | nil => rfl
  | cons e r ih =>
    obtain ⟨k, v⟩ := e
    simp only [keysFrom, Bool.and_eq_true] at h
    simp only [tdel]
    split
    · cases lo with
      | none =>
        cases r with
        | nil => rfl
        | cons e' r' =>
          obtain ⟨k', v'⟩ := e'
          have h2 := h.2
          simp only [keysFrom, Bool.and_eq_true] at h2 ⊢
          exact ⟨rfl, h2.2⟩
      | some l =>
        have h1 := h.1
        simp only [Option.all_some, decide_eq_true_eq] at h1
        exact keysFrom_weaken r l k h.2 (by omega)
    · simp only [keysFrom, Bool.and_eq_true]
      exact ⟨h.1, ih _ h.2⟩

/-- Setting an entry keeps the keys rising. -/
theorem tabWf_tset {α : Type} (t : Tab α) (a : Nat) (x : α) (h : tabWf t = true) : tabWf (tset t a x) = true :=
  keysFrom_tset t none a x h rfl

/-- Removing an entry keeps the keys rising. -/
theorem tabWf_tdel {α : Type} (t : Tab α) (a : Nat) (h : tabWf t = true) : tabWf (tdel t a) = true :=
  keysFrom_tdel t none a h

theorem tget_tdel_same {α : Type} (t : Tab α) (a : Nat) (h : tabWf t = true) : tget (tdel t a) a = none := by
  suffices ∀ lo, keysFrom lo t = true → tget (tdel t a) a = none from this none h
  induction t with
  | nil => intro _ _; rfl
  | cons e r ih =>
    obtain ⟨k, v⟩ := e
    intro lo h'
    simp only [keysFrom, Bool.and_eq_true] at h'
    simp only [tdel]
    split
    · rename_i hk
      exact tget_above r k a h'.2 (by omega)
    · rename_i hk
      simp only [tget, hk, if_false]
      refine ih ?_ (some k) h'.2
      exact keysFrom_lower r (some k) none h'.2 (fun _ _ _ _ => rfl)

/-! ### Memory -/

theorem mem_of_mem_tdel {α : Type} (t : Tab α) (a : Nat) (c : Nat × α) (h : c ∈ tdel t a) : c ∈ t := by
  induction t with
  | nil => exact h
  | cons e r ih =>
    obtain ⟨k, v⟩ := e
    simp only [tdel] at h
    split at h
    · exact List.mem_cons_of_mem _ h
    · cases h with
      | head => exact List.mem_cons_self
      | tail _ h => exact List.mem_cons_of_mem _ (ih h)

theorem mem_of_mem_tset {α : Type} (t : Tab α) (a : Nat) (x : α) (c : Nat × α) (h : c ∈ tset t a x) :
    c = (a, x) ∨ c ∈ t := by
  induction t with
  | nil => simpa [tset] using h
  | cons e r ih =>
    obtain ⟨k, v⟩ := e
    simp only [tset] at h
    split at h
    · simpa using h
    · split at h
      · simp only [List.mem_cons] at h ⊢
        exact h.elim .inl fun h => .inr (.inr h)
      · simp only [List.mem_cons] at h ⊢
        rcases h with h | h
        · exact .inr (.inl h)
        · exact (ih h).elim .inl fun h => .inr (.inr h)

/-- Writing a byte keeps the canonical form. -/
theorem wf_mput (m : List Host.Cell) (a : Nat) (b : Byte) (h : Memory.wf m = true) : Memory.wf (mput m a b) = true := by
  simp only [Memory.wf, Bool.and_eq_true, List.all_eq_true] at h ⊢
  unfold mput
  split
  · exact ⟨tabWf_tdel m a h.1, fun c hc => h.2 c (mem_of_mem_tdel m a c hc)⟩
  · rename_i hb
    refine ⟨tabWf_tset m a b h.1, fun c hc => ?_⟩
    rcases mem_of_mem_tset m a b c hc with hc | hc
    · subst hc
      simpa using hb
    · exact h.2 c hc

/-- Writing bytes keeps the canonical form. -/
theorem wf_mwrite (l : List Byte) (m : List Host.Cell) (a : Nat) (h : Memory.wf m = true) :
    Memory.wf (mwrite m a l) = true := by
  induction l generalizing m a with
  | nil => exact h
  | cons b r ih => exact ih _ _ (wf_mput m a b h)

/-- Writing the bytes that are present keeps the canonical form. -/
theorem wf_mwriteOpt (l : List (Option Byte)) (m : List Host.Cell) (a : Nat) (h : Memory.wf m = true) :
    Memory.wf (mwriteOpt m a l) = true := by
  induction l generalizing m a with
  | nil => exact h
  | cons b r ih =>
    cases b with
    | none => exact ih _ _ h
    | some b => exact ih _ _ (wf_mput m a b h)

/-- A byte reads as it was written. -/
theorem mget_mput_same (m : List Host.Cell) (a : Nat) (b : Byte) (h : Memory.wf m = true) :
    mget (mput m a b) a = b := by
  simp only [Memory.wf, Bool.and_eq_true] at h
  unfold mget mput
  split
  · rename_i hb
    simp [tget_tdel_same m a h.1, hb]
  · simp

/-- A write leaves every other byte alone. -/
theorem mget_mput_other (m : List Host.Cell) (a a' : Nat) (b : Byte) (h : a' ≠ a) :
    mget (mput m a b) a' = mget m a' := by
  unfold mget mput
  split
  · rw [tget_tdel_other m a a' h]
  · rw [tget_tset_other m a a' b h]

/-- A write of bytes leaves every byte outside them alone. -/
theorem mget_mwrite_other (l : List Byte) (m : List Host.Cell) (a a' : Nat) (h : a' < a ∨ a + l.length ≤ a') :
    mget (mwrite m a l) a' = mget m a' := by
  induction l generalizing m a with
  | nil => rfl
  | cons b r ih =>
    simp only [List.length_cons] at h
    rw [mwrite, ih _ _ (by omega), mget_mput_other _ _ _ _ (by omega)]

/-- Bytes read as they were written. -/
theorem mread_mwrite (l : List Byte) (m : List Host.Cell) (a : Nat) (h : Memory.wf m = true) :
    mread (mwrite m a l) a l.length = l := by
  induction l generalizing m a with
  | nil => rfl
  | cons b r ih =>
    simp only [mwrite, List.length_cons, mread]
    rw [mget_mwrite_other r _ _ _ (by omega), mget_mput_same m a b h, ih _ _ (wf_mput m a b h)]

end Sys2Proof.Machine
end

