-- ==== Sys2Proof/Laws/Fire.lean ====
section
/-! SUPPORT. What firing does: one lemma for each shared operation of Machine/Ops.lean that a slot fires through. -/

namespace Sys2Proof.Machine

set_option Elab.async false

/-- A slot that may fire with its operands arrived and none of them null goes on. -/
theorem readiness_go (f : Frame) (i : Nat) (p : BitVec 2) (na nb nc : Bool) (hp : predOk f i p = true)
    (ha : na = true → ∃ x, HasTok f 0 i x ∧ x ≠ .null) (hb : nb = true → ∃ x, HasTok f 1 i x ∧ x ≠ .null)
    (hc : nc = true → ∃ x, HasTok f 2 i x ∧ x ≠ .null) : readiness f i p na nb nc = .go := by
  simp only [HasTok, Nat.mul_zero, Nat.zero_add, Nat.mul_one, show 128 * 2 = 256 from rfl] at ha hb hc
  have e1 : (na && (tget f.toks i).isNone) = false := by
    cases na <;> simp_all
    obtain ⟨x, hx, _⟩ := ha; simp [hx]
  have e2 : (nb && (tget f.toks (128 + i)).isNone) = false := by
    cases nb <;> simp_all
    obtain ⟨x, hx, _⟩ := hb; simp [hx]
  have e3 : (nc && (tget f.toks (256 + i)).isNone) = false := by
    cases nc <;> simp_all
    obtain ⟨x, hx, _⟩ := hc; simp [hx]
  have e4 : (na && tget f.toks i == some .null) = false := by
    cases na <;> simp_all
    obtain ⟨x, hx, h⟩ := ha; simp [hx, h]
  have e5 : (nb && tget f.toks (128 + i) == some .null) = false := by
    cases nb <;> simp_all
    obtain ⟨x, hx, h⟩ := hb; simp [hx, h]
  have e6 : (nc && tget f.toks (256 + i) == some .null) = false := by
    cases nc <;> simp_all
    obtain ⟨x, hx, h⟩ := hc; simp [hx, h]
  unfold predOk at hp
  by_cases h : p.toNat < 2
  · simp [readiness, h, e1, e2, e3, e4, e5, e6]
  · simp only [h, decide_false, Bool.false_or] at hp
    cases hx : tget f.toks (256 + i) with
    | none => rw [hx] at hp; simp at hp
    | some x =>
      rw [hx] at hp e3 e6
      simp only [Option.any_some, Bool.and_eq_true, Bool.not_eq_true', beq_iff_eq] at hp
      have hp2 : ((p == 2#2) != (x.word != 0#64)) = false := by simp [hp.2]
      simp [readiness, h, hx, hp.1, hp2, e1, e2, e4, e5]
      simpa using e6

/-- An operand that has arrived. -/
theorem operand_of (f : Frame) (j i : Nat) (x : Tok) (h : HasTok f j i x) : f.operand j i = x := by
  simp only [HasTok] at h
  simp [Frame.operand, h]

/-- A slot that fires with operands that are not null goes on with them. -/
theorem fireWith_go (s : State) (p : BitVec 2) (na nb nc : Bool) (null : Thread → Frame → State)
    (go : Thread → Frame → Tok → Tok → Tok → State) (t : Thread) (f : Frame) (h : Fires s p t f)
    (ha : na = true → ∃ x, HasTok f 0 s.cur.2.2 x ∧ x ≠ .null) (hb : nb = true → ∃ x, HasTok f 1 s.cur.2.2 x ∧ x ≠ .null)
    (hc : nc = true → ∃ x, HasTok f 2 s.cur.2.2 x ∧ x ≠ .null) :
    fireWith s p na nb nc null go =
      .next (go t f (f.operand 0 s.cur.2.2) (f.operand 1 s.cur.2.2) (f.operand 2 s.cur.2.2)) := by
  obtain ⟨h1, h2, h3⟩ := h
  simp only [fireWith, h1, h2]
  rw [readiness_go f _ p na nb nc h3 ha hb hc]
  rfl

/-- Everything that firing a slot can do when it answers a next state: nothing, the slot resolved without firing, the null
outcome, or the instruction's own. -/
theorem fireWith_cases (s s' : State) (p : BitVec 2) (na nb nc : Bool) (null : Thread → Frame → State)
    (go : Thread → Frame → Tok → Tok → Tok → State) (h : fireWith s p na nb nc null go = .next s') :
    ∃ t f, s.current = some (t, f) ∧
      (s' = s ∨
        (f.canFire s.cur.2.2 = true ∧
          ((readiness f s.cur.2.2 p na nb nc = .skip ∧ s' = s.putFrame (f.skipAt s.cur.2.2)) ∨
            (readiness f s.cur.2.2 p na nb nc = .null ∧ s' = null t f) ∨
            (readiness f s.cur.2.2 p na nb nc = .go ∧
              s' = go t f (f.operand 0 s.cur.2.2) (f.operand 1 s.cur.2.2) (f.operand 2 s.cur.2.2))))) := by
  unfold fireWith at h
  split at h
  · simp at h
  · rename_i t f hc
    refine ⟨t, f, hc, ?_⟩
    simp only at h
    split at h
    · simp only [Host.Outcome.next.injEq] at h
      exact .inl h.symm
    · rename_i hf
      simp only [Bool.not_eq_true', Bool.not_eq_false] at hf
      split at h <;> rename_i hr <;> simp only [Host.Outcome.next.injEq] at h <;> subst h
      · exact .inl rfl
      · exact .inr ⟨hf, .inl ⟨hr, rfl⟩⟩
      · exact .inr ⟨hf, .inr (.inl ⟨hr, rfl⟩)⟩
      · exact .inr ⟨hf, .inr (.inr ⟨hr, rfl⟩)⟩

/-- An instruction on operands a and b sends its result. -/
theorem scalar2_go (g : GF) (s : State) (op : Word → Word → Word) (t : Thread) (f : Frame) (a b : Word)
    (h : Fires s g.p t f) (ha : HasTok f 0 s.cur.2.2 (.s a)) (hb : HasTok f 1 s.cur.2.2 (.s b)) :
    scalar2 g s op = .next (sent s f [g.t0, g.t1] (.s (op a b))) := by
  simp only [scalar2, firePure]
  rw [fireWith_go s g.p true true false _ _ t f h (fun _ => ⟨_, ha, by simp⟩) (fun _ => ⟨_, hb, by simp⟩) (by simp)]
  rw [operand_of f 0 _ _ ha, operand_of f 1 _ _ hb]
  rfl

/-- An instruction on operand a sends its result. -/
theorem scalar1_go (g : GF) (s : State) (op : Word → Word) (t : Thread) (f : Frame) (a : Word)
    (h : Fires s g.p t f) (ha : HasTok f 0 s.cur.2.2 (.s a)) :
    scalar1 g s op = .next (sent s f [g.t0, g.t1] (.s (op a))) := by
  simp only [scalar1, firePure]
  rw [fireWith_go s g.p true false false _ _ t f h (fun _ => ⟨_, ha, by simp⟩) (by simp) (by simp)]
  rw [operand_of f 0 _ _ ha]
  rfl

/-- An instruction on operand a and an immediate sends its result. -/
theorem scalarI_go (g : IF) (s : State) (imm : IF → Word) (op : Word → Word → Word) (t : Thread) (f : Frame) (a : Word)
    (h : Fires s g.p t f) (ha : HasTok f 0 s.cur.2.2 (.s a)) :
    scalarI g s imm op = .next (sent s f [g.t0] (.s (op a (imm g)))) := by
  simp only [scalarI, firePure]
  rw [fireWith_go s g.p true false false _ _ t f h (fun _ => ⟨_, ha, by simp⟩) (by simp) (by simp)]
  rw [operand_of f 0 _ _ ha]
  rfl

end Sys2Proof.Machine
end

