-- ==== Sys2Proof/Laws/PerInstr.lean ====
section
/-! SUPPORT. Statements made instruction by instruction. ENC: the decoder reads back every well-formed instruction from the
words the encoder gives it; an event is a step of the hardware and has no words. -/

namespace Sys2Proof.Laws.ENC

set_option Elab.async false
set_option linter.unusedSimpArgs false

/-- Decoding the words of a well-formed instruction gives it back, whatever word follows a one-word instruction. -/
def Statement (i : Instr) : Prop :=
  i.wellFormed = true →
    match encode i with
    | [] => True
    | [w0] => ∀ w1, decode w0 w1 = .ok i
    | w0 :: w1 :: _ => decode w0 w1 = .ok i

/-- An instruction of two words. -/
theorem of_words {i : Instr} {w0 w1 : Slot32} (e : encode i = [w0, w1])
    (h : i.wellFormed = true → decode w0 w1 = .ok i) : Statement i := by
  intro hw
  rw [e]
  exact h hw

/-! The decoder on a word of a known primary opcode. -/

theorem decode_01 (w0 w1 : Slot32) (h : opc w0 = 0x01) : decode w0 w1 = gate (decIarith (xop w0) w0) := by
  simp only [decode, h]

theorem decode_02 (w0 w1 : Slot32) (h : opc w0 = 0x02) : decode w0 w1 = gate (decIarithW (xop w0) w0) := by
  simp only [decode, decodeRest, h]

theorem decode_03 (w0 w1 : Slot32) (h : opc w0 = 0x03) : decode w0 w1 = gate (decIlogic (xop w0) w0) := by
  simp only [decode, decodeRest, h]

theorem decode_04 (w0 w1 : Slot32) (h : opc w0 = 0x04) : decode w0 w1 = gate (decIbit (xop w0) w0) := by
  simp only [decode, decodeRest, h]

theorem decode_05 (w0 w1 : Slot32) (h : opc w0 = 0x05) : decode w0 w1 = gate (decItest (xop w0) w0) := by
  simp only [decode, decodeRest, h]

theorem decode_06 (w0 w1 : Slot32) (h : opc w0 = 0x06) : decode w0 w1 = gate (decMove (xop w0) w0) := by
  simp only [decode, decodeRest, h]

theorem decode_07 (w0 w1 : Slot32) (h : opc w0 = 0x07) : decode w0 w1 = gate (decFscalar (xop w0) w0) := by
  simp only [decode, decodeRest, h]

theorem decode_40 (w0 w1 : Slot32) (h : opc w0 = 0x40) : decode w0 w1 = gate (decWmem (xop w0) w0 w1) := by
  simp only [decode, decodeRest, h]

theorem decode_41 (w0 w1 : Slot32) (h : opc w0 = 0x41) : decode w0 w1 = gate (decWsync (xop w0) w0 w1) := by
  simp only [decode, decodeRest, h]

theorem decode_42 (w0 w1 : Slot32) (h : opc w0 = 0x42) : decode w0 w1 = gate (decVint (xop w0) w0 w1) := by
  simp only [decode, decodeRest, h]

theorem decode_43 (w0 w1 : Slot32) (h : opc w0 = 0x43) : decode w0 w1 = gate (decVfp (xop w0) w0 w1) := by
  simp only [decode, decodeRest, h]

theorem decode_44 (w0 w1 : Slot32) (h : opc w0 = 0x44) : decode w0 w1 = gate (decVcvt (xop w0) w0 w1) := by
  simp only [decode, decodeRest, h]

theorem decode_45 (w0 w1 : Slot32) (h : opc w0 = 0x45) : decode w0 w1 = gate (decVperm (xop w0) w0 w1) := by
  simp only [decode, decodeRest, h]

theorem decode_46 (w0 w1 : Slot32) (h : opc w0 = 0x46) : decode w0 w1 = gate (decVred (xop w0) w0 w1) := by
  simp only [decode, decodeRest, h]

theorem decode_47 (w0 w1 : Slot32) (h : opc w0 = 0x47) : decode w0 w1 = gate (decVmx (xop w0) w0 w1) := by
  simp only [decode, decodeRest, h]

theorem decode_48 (w0 w1 : Slot32) (h : opc w0 = 0x48) : decode w0 w1 = gate (decMslot (xop w0) w0 w1) := by
  simp only [decode, decodeRest, h]

theorem decode_49 (w0 w1 : Slot32) (h : opc w0 = 0x49) : decode w0 w1 = gate (decMmove (xop w0) w0 w1) := by
  simp only [decode, decodeRest, h]

theorem decode_4A (w0 w1 : Slot32) (h : opc w0 = 0x4A) : decode w0 w1 = gate (decMcomp (xop w0) w0 w1) := by
  simp only [decode, decodeRest, h]

theorem decode_4B (w0 w1 : Slot32) (h : opc w0 = 0x4B) : decode w0 w1 = gate (decMjob (xop w0) w0 w1) := by
  simp only [decode, decodeRest, h]

theorem decode_4C (w0 w1 : Slot32) (h : opc w0 = 0x4C) : decode w0 w1 = gate (decLcell (xop w0) w0 w1) := by
  simp only [decode, decodeRest, h]

theorem decode_4D (w0 w1 : Slot32) (h : opc w0 = 0x4D) : decode w0 w1 = gate (decCopy (xop w0) w0 w1) := by
  simp only [decode, decodeRest, h]

theorem decode_4E (w0 w1 : Slot32) (h : opc w0 = 0x4E) : decode w0 w1 = gate (decPort (xop w0) w0 w1) := by
  simp only [decode, decodeRest, h]

theorem decode_4F (w0 w1 : Slot32) (h : opc w0 = 0x4F) : decode w0 w1 = gate (decThread (xop w0) w0 w1) := by
  simp only [decode, decodeRest, h]

theorem decode_50 (w0 w1 : Slot32) (h : opc w0 = 0x50) : decode w0 w1 = gate (decSystem (xop w0) w0 w1) := by
  simp only [decode, decodeRest, h]

theorem decode_51 (w0 w1 : Slot32) (h : opc w0 = 0x51) : decode w0 w1 = gate (decCtl (xop w0) w0 w1) := by
  simp only [decode, decodeRest, h]

theorem add (f : GF) : Statement (.add f) := by
  intro h w1
  rewrite [decode_01 _ _ (opc_pkG 0x01 0x00 f), xop_pkG]
  simp only [BitVec.reduceToNat, decIarith, unG_pk]
  exact gate_wellFormed _ h

theorem sub (f : GF) : Statement (.sub f) := by
  intro h w1
  rewrite [decode_01 _ _ (opc_pkG 0x01 0x01 f), xop_pkG]
  simp only [BitVec.reduceToNat, decIarith, unG_pk]
  exact gate_wellFormed _ h

theorem mul (f : GF) : Statement (.mul f) := by
  intro h w1
  rewrite [decode_01 _ _ (opc_pkG 0x01 0x02 f), xop_pkG]
  simp only [BitVec.reduceToNat, decIarith, unG_pk]
  exact gate_wellFormed _ h

theorem mulh (f : GF) : Statement (.mulh f) := by
  intro h w1
  rewrite [decode_01 _ _ (opc_pkG 0x01 0x03 f), xop_pkG]
  simp only [BitVec.reduceToNat, decIarith, unG_pk]
  exact gate_wellFormed _ h

theorem mulhz (f : GF) : Statement (.mulhz f) := by
  intro h w1
  rewrite [decode_01 _ _ (opc_pkG 0x01 0x04 f), xop_pkG]
  simp only [BitVec.reduceToNat, decIarith, unG_pk]
  exact gate_wellFormed _ h

theorem div (f : GF) : Statement (.div f) := by
  intro h w1
  rewrite [decode_01 _ _ (opc_pkG 0x01 0x05 f), xop_pkG]
  simp only [BitVec.reduceToNat, decIarith, unG_pk]
  exact gate_wellFormed _ h

theorem divz (f : GF) : Statement (.divz f) := by
  intro h w1
  rewrite [decode_01 _ _ (opc_pkG 0x01 0x06 f), xop_pkG]
  simp only [BitVec.reduceToNat, decIarith, unG_pk]
  exact gate_wellFormed _ h

theorem rem (f : GF) : Statement (.rem f) := by
  intro h w1
  rewrite [decode_01 _ _ (opc_pkG 0x01 0x07 f), xop_pkG]
  simp only [BitVec.reduceToNat, decIarith, unG_pk]
  exact gate_wellFormed _ h

theorem remz (f : GF) : Statement (.remz f) := by
  intro h w1
  rewrite [decode_01 _ _ (opc_pkG 0x01 0x08 f), xop_pkG]
  simp only [BitVec.reduceToNat, decIarith, unG_pk]
  exact gate_wellFormed _ h

theorem min (f : GF) : Statement (.min f) := by
  intro h w1
  rewrite [decode_01 _ _ (opc_pkG 0x01 0x09 f), xop_pkG]
  simp only [BitVec.reduceToNat, decIarith, unG_pk]
  exact gate_wellFormed _ h

theorem max (f : GF) : Statement (.max f) := by
  intro h w1
  rewrite [decode_01 _ _ (opc_pkG 0x01 0x0A f), xop_pkG]
  simp only [BitVec.reduceToNat, decIarith, unG_pk]
  exact gate_wellFormed _ h

theorem minz (f : GF) : Statement (.minz f) := by
  intro h w1
  rewrite [decode_01 _ _ (opc_pkG 0x01 0x0B f), xop_pkG]
  simp only [BitVec.reduceToNat, decIarith, unG_pk]
  exact gate_wellFormed _ h

theorem maxz (f : GF) : Statement (.maxz f) := by
  intro h w1
  rewrite [decode_01 _ _ (opc_pkG 0x01 0x0C f), xop_pkG]
  simp only [BitVec.reduceToNat, decIarith, unG_pk]
  exact gate_wellFormed _ h

theorem abs (f : GF) : Statement (.abs f) := by
  intro h w1
  rewrite [decode_01 _ _ (opc_pkG 0x01 0x0D f), xop_pkG]
  simp only [BitVec.reduceToNat, decIarith, unG_pk]
  exact gate_wellFormed _ h

theorem neg (f : GF) : Statement (.neg f) := by
  intro h w1
  rewrite [decode_01 _ _ (opc_pkG 0x01 0x0E f), xop_pkG]
  simp only [BitVec.reduceToNat, decIarith, unG_pk]
  exact gate_wellFormed _ h

theorem addW (f : GF) : Statement (.addW f) := by
  intro h w1
  rewrite [decode_02 _ _ (opc_pkG 0x02 0x00 f), xop_pkG]
  simp only [BitVec.reduceToNat, decIarithW, unG_pk]
  exact gate_wellFormed _ h

theorem subW (f : GF) : Statement (.subW f) := by
  intro h w1
  rewrite [decode_02 _ _ (opc_pkG 0x02 0x01 f), xop_pkG]
  simp only [BitVec.reduceToNat, decIarithW, unG_pk]
  exact gate_wellFormed _ h

theorem mulW (f : GF) : Statement (.mulW f) := by
  intro h w1
  rewrite [decode_02 _ _ (opc_pkG 0x02 0x02 f), xop_pkG]
  simp only [BitVec.reduceToNat, decIarithW, unG_pk]
  exact gate_wellFormed _ h

theorem mulhW (f : GF) : Statement (.mulhW f) := by
  intro h w1
  rewrite [decode_02 _ _ (opc_pkG 0x02 0x03 f), xop_pkG]
  simp only [BitVec.reduceToNat, decIarithW, unG_pk]
  exact gate_wellFormed _ h

theorem mulhzW (f : GF) : Statement (.mulhzW f) := by
  intro h w1
  rewrite [decode_02 _ _ (opc_pkG 0x02 0x04 f), xop_pkG]
  simp only [BitVec.reduceToNat, decIarithW, unG_pk]
  exact gate_wellFormed _ h

theorem divW (f : GF) : Statement (.divW f) := by
  intro h w1
  rewrite [decode_02 _ _ (opc_pkG 0x02 0x05 f), xop_pkG]
  simp only [BitVec.reduceToNat, decIarithW, unG_pk]
  exact gate_wellFormed _ h

theorem divzW (f : GF) : Statement (.divzW f) := by
  intro h w1
  rewrite [decode_02 _ _ (opc_pkG 0x02 0x06 f), xop_pkG]
  simp only [BitVec.reduceToNat, decIarithW, unG_pk]
  exact gate_wellFormed _ h

theorem remW (f : GF) : Statement (.remW f) := by
  intro h w1
  rewrite [decode_02 _ _ (opc_pkG 0x02 0x07 f), xop_pkG]
  simp only [BitVec.reduceToNat, decIarithW, unG_pk]
  exact gate_wellFormed _ h

theorem remzW (f : GF) : Statement (.remzW f) := by
  intro h w1
  rewrite [decode_02 _ _ (opc_pkG 0x02 0x08 f), xop_pkG]
  simp only [BitVec.reduceToNat, decIarithW, unG_pk]
  exact gate_wellFormed _ h

theorem minW (f : GF) : Statement (.minW f) := by
  intro h w1
  rewrite [decode_02 _ _ (opc_pkG 0x02 0x09 f), xop_pkG]
  simp only [BitVec.reduceToNat, decIarithW, unG_pk]
  exact gate_wellFormed _ h

theorem maxW (f : GF) : Statement (.maxW f) := by
  intro h w1
  rewrite [decode_02 _ _ (opc_pkG 0x02 0x0A f), xop_pkG]
  simp only [BitVec.reduceToNat, decIarithW, unG_pk]
  exact gate_wellFormed _ h

theorem minzW (f : GF) : Statement (.minzW f) := by
  intro h w1
  rewrite [decode_02 _ _ (opc_pkG 0x02 0x0B f), xop_pkG]
  simp only [BitVec.reduceToNat, decIarithW, unG_pk]
  exact gate_wellFormed _ h

theorem maxzW (f : GF) : Statement (.maxzW f) := by
  intro h w1
  rewrite [decode_02 _ _ (opc_pkG 0x02 0x0C f), xop_pkG]
  simp only [BitVec.reduceToNat, decIarithW, unG_pk]
  exact gate_wellFormed _ h

theorem absW (f : GF) : Statement (.absW f) := by
  intro h w1
  rewrite [decode_02 _ _ (opc_pkG 0x02 0x0D f), xop_pkG]
  simp only [BitVec.reduceToNat, decIarithW, unG_pk]
  exact gate_wellFormed _ h

theorem negW (f : GF) : Statement (.negW f) := by
  intro h w1
  rewrite [decode_02 _ _ (opc_pkG 0x02 0x0E f), xop_pkG]
  simp only [BitVec.reduceToNat, decIarithW, unG_pk]
  exact gate_wellFormed _ h

theorem and (f : GF) : Statement (.and f) := by
  intro h w1
  rewrite [decode_03 _ _ (opc_pkG 0x03 0x00 f), xop_pkG]
  simp only [BitVec.reduceToNat, decIlogic, unG_pk]
  exact gate_wellFormed _ h

theorem or (f : GF) : Statement (.or f) := by
  intro h w1
  rewrite [decode_03 _ _ (opc_pkG 0x03 0x01 f), xop_pkG]
  simp only [BitVec.reduceToNat, decIlogic, unG_pk]
  exact gate_wellFormed _ h

theorem xor (f : GF) : Statement (.xor f) := by
  intro h w1
  rewrite [decode_03 _ _ (opc_pkG 0x03 0x02 f), xop_pkG]
  simp only [BitVec.reduceToNat, decIlogic, unG_pk]
  exact gate_wellFormed _ h

theorem andn (f : GF) : Statement (.andn f) := by
  intro h w1
  rewrite [decode_03 _ _ (opc_pkG 0x03 0x03 f), xop_pkG]
  simp only [BitVec.reduceToNat, decIlogic, unG_pk]
  exact gate_wellFormed _ h

theorem orn (f : GF) : Statement (.orn f) := by
  intro h w1
  rewrite [decode_03 _ _ (opc_pkG 0x03 0x04 f), xop_pkG]
  simp only [BitVec.reduceToNat, decIlogic, unG_pk]
  exact gate_wellFormed _ h

theorem shl (f : GF) : Statement (.shl f) := by
  intro h w1
  rewrite [decode_03 _ _ (opc_pkG 0x03 0x05 f), xop_pkG]
  simp only [BitVec.reduceToNat, decIlogic, unG_pk]
  exact gate_wellFormed _ h

theorem shr (f : GF) : Statement (.shr f) := by
  intro h w1
  rewrite [decode_03 _ _ (opc_pkG 0x03 0x06 f), xop_pkG]
  simp only [BitVec.reduceToNat, decIlogic, unG_pk]
  exact gate_wellFormed _ h

theorem sar (f : GF) : Statement (.sar f) := by
  intro h w1
  rewrite [decode_03 _ _ (opc_pkG 0x03 0x07 f), xop_pkG]
  simp only [BitVec.reduceToNat, decIlogic, unG_pk]
  exact gate_wellFormed _ h

theorem rol (f : GF) : Statement (.rol f) := by
  intro h w1
  rewrite [decode_03 _ _ (opc_pkG 0x03 0x08 f), xop_pkG]
  simp only [BitVec.reduceToNat, decIlogic, unG_pk]
  exact gate_wellFormed _ h

theorem ror (f : GF) : Statement (.ror f) := by
  intro h w1
  rewrite [decode_03 _ _ (opc_pkG 0x03 0x09 f), xop_pkG]
  simp only [BitVec.reduceToNat, decIlogic, unG_pk]
  exact gate_wellFormed _ h

theorem clz (f : GF) : Statement (.clz f) := by
  intro h w1
  rewrite [decode_04 _ _ (opc_pkG 0x04 0x00 f), xop_pkG]
  simp only [BitVec.reduceToNat, decIbit, unG_pk]
  exact gate_wellFormed _ h

theorem ctz (f : GF) : Statement (.ctz f) := by
  intro h w1
  rewrite [decode_04 _ _ (opc_pkG 0x04 0x01 f), xop_pkG]
  simp only [BitVec.reduceToNat, decIbit, unG_pk]
  exact gate_wellFormed _ h

theorem popc (f : GF) : Statement (.popc f) := by
  intro h w1
  rewrite [decode_04 _ _ (opc_pkG 0x04 0x02 f), xop_pkG]
  simp only [BitVec.reduceToNat, decIbit, unG_pk]
  exact gate_wellFormed _ h

theorem brev (f : GF) : Statement (.brev f) := by
  intro h w1
  rewrite [decode_04 _ _ (opc_pkG 0x04 0x03 f), xop_pkG]
  simp only [BitVec.reduceToNat, decIbit, unG_pk]
  exact gate_wellFormed _ h

theorem bswap (f : GF) : Statement (.bswap f) := by
  intro h w1
  rewrite [decode_04 _ _ (opc_pkG 0x04 0x04 f), xop_pkG]
  simp only [BitVec.reduceToNat, decIbit, unG_pk]
  exact gate_wellFormed _ h

theorem exts (f : GF) : Statement (.exts f) := by
  intro h w1
  rewrite [decode_04 _ _ (opc_pkG 0x04 0x05 f), xop_pkG]
  simp only [BitVec.reduceToNat, decIbit, unG_pk]
  exact gate_wellFormed _ h

theorem extz (f : GF) : Statement (.extz f) := by
  intro h w1
  rewrite [decode_04 _ _ (opc_pkG 0x04 0x06 f), xop_pkG]
  simp only [BitVec.reduceToNat, decIbit, unG_pk]
  exact gate_wellFormed _ h

theorem ins (f : GF) : Statement (.ins f) := by
  intro h w1
  rewrite [decode_04 _ _ (opc_pkG 0x04 0x07 f), xop_pkG]
  simp only [BitVec.reduceToNat, decIbit, unG_pk]
  exact gate_wellFormed _ h

theorem teq (f : GF) : Statement (.teq f) := by
  intro h w1
  rewrite [decode_05 _ _ (opc_pkG 0x05 0x00 f), xop_pkG]
  simp only [BitVec.reduceToNat, decItest, unG_pk]
  exact gate_wellFormed _ h

theorem tne (f : GF) : Statement (.tne f) := by
  intro h w1
  rewrite [decode_05 _ _ (opc_pkG 0x05 0x01 f), xop_pkG]
  simp only [BitVec.reduceToNat, decItest, unG_pk]
  exact gate_wellFormed _ h

theorem tlt (f : GF) : Statement (.tlt f) := by
  intro h w1
  rewrite [decode_05 _ _ (opc_pkG 0x05 0x02 f), xop_pkG]
  simp only [BitVec.reduceToNat, decItest, unG_pk]
  exact gate_wellFormed _ h

theorem tle (f : GF) : Statement (.tle f) := by
  intro h w1
  rewrite [decode_05 _ _ (opc_pkG 0x05 0x03 f), xop_pkG]
  simp only [BitVec.reduceToNat, decItest, unG_pk]
  exact gate_wellFormed _ h

theorem tltz (f : GF) : Statement (.tltz f) := by
  intro h w1
  rewrite [decode_05 _ _ (opc_pkG 0x05 0x04 f), xop_pkG]
  simp only [BitVec.reduceToNat, decItest, unG_pk]
  exact gate_wellFormed _ h

theorem tlez (f : GF) : Statement (.tlez f) := by
  intro h w1
  rewrite [decode_05 _ _ (opc_pkG 0x05 0x05 f), xop_pkG]
  simp only [BitVec.reduceToNat, decItest, unG_pk]
  exact gate_wellFormed _ h

theorem teqW (f : GF) : Statement (.teqW f) := by
  intro h w1
  rewrite [decode_05 _ _ (opc_pkG 0x05 0x08 f), xop_pkG]
  simp only [BitVec.reduceToNat, decItest, unG_pk]
  exact gate_wellFormed _ h

theorem tneW (f : GF) : Statement (.tneW f) := by
  intro h w1
  rewrite [decode_05 _ _ (opc_pkG 0x05 0x09 f), xop_pkG]
  simp only [BitVec.reduceToNat, decItest, unG_pk]
  exact gate_wellFormed _ h

theorem tltW (f : GF) : Statement (.tltW f) := by
  intro h w1
  rewrite [decode_05 _ _ (opc_pkG 0x05 0x0A f), xop_pkG]
  simp only [BitVec.reduceToNat, decItest, unG_pk]
  exact gate_wellFormed _ h

theorem tleW (f : GF) : Statement (.tleW f) := by
  intro h w1
  rewrite [decode_05 _ _ (opc_pkG 0x05 0x0B f), xop_pkG]
  simp only [BitVec.reduceToNat, decItest, unG_pk]
  exact gate_wellFormed _ h

theorem tltzW (f : GF) : Statement (.tltzW f) := by
  intro h w1
  rewrite [decode_05 _ _ (opc_pkG 0x05 0x0C f), xop_pkG]
  simp only [BitVec.reduceToNat, decItest, unG_pk]
  exact gate_wellFormed _ h

theorem tlezW (f : GF) : Statement (.tlezW f) := by
  intro h w1
  rewrite [decode_05 _ _ (opc_pkG 0x05 0x0D f), xop_pkG]
  simp only [BitVec.reduceToNat, decItest, unG_pk]
  exact gate_wellFormed _ h

theorem mov (f : GF) : Statement (.mov f) := by
  intro h w1
  rewrite [decode_06 _ _ (opc_pkG 0x06 0x00 f), xop_pkG]
  simp only [BitVec.reduceToNat, decMove, unG_pk]
  exact gate_wellFormed _ h

theorem sel (f : GF) : Statement (.sel f) := by
  intro h w1
  rewrite [decode_06 _ _ (opc_pkG 0x06 0x01 f), xop_pkG]
  simp only [BitVec.reduceToNat, decMove, unG_pk]
  exact gate_wellFormed _ h

theorem null (f : GF) : Statement (.null f) := by
  intro h w1
  rewrite [decode_06 _ _ (opc_pkG 0x06 0x02 f), xop_pkG]
  simp only [BitVec.reduceToNat, decMove, unG_pk]
  exact gate_wellFormed _ h

theorem faddF64 (f : GF) : Statement (.faddF64 f) := by
  intro h w1
  rewrite [decode_07 _ _ (opc_pkG 0x07 0x00 f), xop_pkG]
  simp only [BitVec.reduceToNat, decFscalar, unG_pk]
  exact gate_wellFormed _ h

theorem fsubF64 (f : GF) : Statement (.fsubF64 f) := by
  intro h w1
  rewrite [decode_07 _ _ (opc_pkG 0x07 0x01 f), xop_pkG]
  simp only [BitVec.reduceToNat, decFscalar, unG_pk]
  exact gate_wellFormed _ h

theorem fmulF64 (f : GF) : Statement (.fmulF64 f) := by
  intro h w1
  rewrite [decode_07 _ _ (opc_pkG 0x07 0x02 f), xop_pkG]
  simp only [BitVec.reduceToNat, decFscalar, unG_pk]
  exact gate_wellFormed _ h

theorem fdivF64 (f : GF) : Statement (.fdivF64 f) := by
  intro h w1
  rewrite [decode_07 _ _ (opc_pkG 0x07 0x03 f), xop_pkG]
  simp only [BitVec.reduceToNat, decFscalar, unG_pk]
  exact gate_wellFormed _ h

theorem fsqrtF64 (f : GF) : Statement (.fsqrtF64 f) := by
  intro h w1
  rewrite [decode_07 _ _ (opc_pkG 0x07 0x04 f), xop_pkG]
  simp only [BitVec.reduceToNat, decFscalar, unG_pk]
  exact gate_wellFormed _ h

theorem ffmaF64 (f : FmaF) : Statement (.ffmaF64 f) := by
  intro h w1
  rewrite [decode_07 _ _ (opc_pkFma 0x07 0x05 f), xop_pkFma]
  simp only [BitVec.reduceToNat, decFscalar, fmaPred_pk, unFma_pk, beq_self_eq_true, if_true]
  exact gate_wellFormed _ h

theorem fminF64 (f : GF) : Statement (.fminF64 f) := by
  intro h w1
  rewrite [decode_07 _ _ (opc_pkG 0x07 0x06 f), xop_pkG]
  simp only [BitVec.reduceToNat, decFscalar, unG_pk]
  exact gate_wellFormed _ h

theorem fmaxF64 (f : GF) : Statement (.fmaxF64 f) := by
  intro h w1
  rewrite [decode_07 _ _ (opc_pkG 0x07 0x07 f), xop_pkG]
  simp only [BitVec.reduceToNat, decFscalar, unG_pk]
  exact gate_wellFormed _ h

theorem faddF32 (f : GF) : Statement (.faddF32 f) := by
  intro h w1
  rewrite [decode_07 _ _ (opc_pkG 0x07 0x08 f), xop_pkG]
  simp only [BitVec.reduceToNat, decFscalar, unG_pk]
  exact gate_wellFormed _ h

theorem fsubF32 (f : GF) : Statement (.fsubF32 f) := by
  intro h w1
  rewrite [decode_07 _ _ (opc_pkG 0x07 0x09 f), xop_pkG]
  simp only [BitVec.reduceToNat, decFscalar, unG_pk]
  exact gate_wellFormed _ h

theorem fmulF32 (f : GF) : Statement (.fmulF32 f) := by
  intro h w1
  rewrite [decode_07 _ _ (opc_pkG 0x07 0x0A f), xop_pkG]
  simp only [BitVec.reduceToNat, decFscalar, unG_pk]
  exact gate_wellFormed _ h

theorem fdivF32 (f : GF) : Statement (.fdivF32 f) := by
  intro h w1
  rewrite [decode_07 _ _ (opc_pkG 0x07 0x0B f), xop_pkG]
  simp only [BitVec.reduceToNat, decFscalar, unG_pk]
  exact gate_wellFormed _ h

theorem fsqrtF32 (f : GF) : Statement (.fsqrtF32 f) := by
  intro h w1
  rewrite [decode_07 _ _ (opc_pkG 0x07 0x0C f), xop_pkG]
  simp only [BitVec.reduceToNat, decFscalar, unG_pk]
  exact gate_wellFormed _ h

theorem ffmaF32 (f : FmaF) : Statement (.ffmaF32 f) := by
  intro h w1
  rewrite [decode_07 _ _ (opc_pkFma 0x07 0x0D f), xop_pkFma]
  simp only [BitVec.reduceToNat, decFscalar, fmaPred_pk, unFma_pk, beq_self_eq_true, if_true]
  exact gate_wellFormed _ h

theorem fminF32 (f : GF) : Statement (.fminF32 f) := by
  intro h w1
  rewrite [decode_07 _ _ (opc_pkG 0x07 0x0E f), xop_pkG]
  simp only [BitVec.reduceToNat, decFscalar, unG_pk]
  exact gate_wellFormed _ h

theorem fmaxF32 (f : GF) : Statement (.fmaxF32 f) := by
  intro h w1
  rewrite [decode_07 _ _ (opc_pkG 0x07 0x0F f), xop_pkG]
  simp only [BitVec.reduceToNat, decFscalar, unG_pk]
  exact gate_wellFormed _ h

theorem fcmpEqF64 (f : GF) : Statement (.fcmpEqF64 f) := by
  intro h w1
  rewrite [decode_07 _ _ (opc_pkG 0x07 0x10 f), xop_pkG]
  simp only [BitVec.reduceToNat, decFscalar, unG_pk]
  exact gate_wellFormed _ h

theorem fcmpLtF64 (f : GF) : Statement (.fcmpLtF64 f) := by
  intro h w1
  rewrite [decode_07 _ _ (opc_pkG 0x07 0x11 f), xop_pkG]
  simp only [BitVec.reduceToNat, decFscalar, unG_pk]
  exact gate_wellFormed _ h

theorem fcmpLeF64 (f : GF) : Statement (.fcmpLeF64 f) := by
  intro h w1
  rewrite [decode_07 _ _ (opc_pkG 0x07 0x12 f), xop_pkG]
  simp only [BitVec.reduceToNat, decFscalar, unG_pk]
  exact gate_wellFormed _ h

theorem fcmpUnF64 (f : GF) : Statement (.fcmpUnF64 f) := by
  intro h w1
  rewrite [decode_07 _ _ (opc_pkG 0x07 0x13 f), xop_pkG]
  simp only [BitVec.reduceToNat, decFscalar, unG_pk]
  exact gate_wellFormed _ h

theorem fcmpEqF32 (f : GF) : Statement (.fcmpEqF32 f) := by
  intro h w1
  rewrite [decode_07 _ _ (opc_pkG 0x07 0x14 f), xop_pkG]
  simp only [BitVec.reduceToNat, decFscalar, unG_pk]
  exact gate_wellFormed _ h

theorem fcmpLtF32 (f : GF) : Statement (.fcmpLtF32 f) := by
  intro h w1
  rewrite [decode_07 _ _ (opc_pkG 0x07 0x15 f), xop_pkG]
  simp only [BitVec.reduceToNat, decFscalar, unG_pk]
  exact gate_wellFormed _ h

theorem fcmpLeF32 (f : GF) : Statement (.fcmpLeF32 f) := by
  intro h w1
  rewrite [decode_07 _ _ (opc_pkG 0x07 0x16 f), xop_pkG]
  simp only [BitVec.reduceToNat, decFscalar, unG_pk]
  exact gate_wellFormed _ h

theorem fcmpUnF32 (f : GF) : Statement (.fcmpUnF32 f) := by
  intro h w1
  rewrite [decode_07 _ _ (opc_pkG 0x07 0x17 f), xop_pkG]
  simp only [BitVec.reduceToNat, decFscalar, unG_pk]
  exact gate_wellFormed _ h

theorem fcvtF64F32 (f : GF) : Statement (.fcvtF64F32 f) := by
  intro h w1
  rewrite [decode_07 _ _ (opc_pkG 0x07 0x18 f), xop_pkG]
  simp only [BitVec.reduceToNat, decFscalar, unG_pk]
  exact gate_wellFormed _ h

theorem fcvtF32F64 (f : GF) : Statement (.fcvtF32F64 f) := by
  intro h w1
  rewrite [decode_07 _ _ (opc_pkG 0x07 0x19 f), xop_pkG]
  simp only [BitVec.reduceToNat, decFscalar, unG_pk]
  exact gate_wellFormed _ h

theorem fcvtI64F64 (f : GF) : Statement (.fcvtI64F64 f) := by
  intro h w1
  rewrite [decode_07 _ _ (opc_pkG 0x07 0x1A f), xop_pkG]
  simp only [BitVec.reduceToNat, decFscalar, unG_pk]
  exact gate_wellFormed _ h

theorem fcvtF64I64 (f : GF) : Statement (.fcvtF64I64 f) := by
  intro h w1
  rewrite [decode_07 _ _ (opc_pkG 0x07 0x1B f), xop_pkG]
  simp only [BitVec.reduceToNat, decFscalar, unG_pk]
  exact gate_wellFormed _ h

theorem fcvtI64F32 (f : GF) : Statement (.fcvtI64F32 f) := by
  intro h w1
  rewrite [decode_07 _ _ (opc_pkG 0x07 0x1C f), xop_pkG]
  simp only [BitVec.reduceToNat, decFscalar, unG_pk]
  exact gate_wellFormed _ h

theorem fcvtF32I64 (f : GF) : Statement (.fcvtF32I64 f) := by
  intro h w1
  rewrite [decode_07 _ _ (opc_pkG 0x07 0x1D f), xop_pkG]
  simp only [BitVec.reduceToNat, decFscalar, unG_pk]
  exact gate_wellFormed _ h

theorem fcvtI64F64Rtz (f : GF) : Statement (.fcvtI64F64Rtz f) := by
  intro h w1
  rewrite [decode_07 _ _ (opc_pkG 0x07 0x1E f), xop_pkG]
  simp only [BitVec.reduceToNat, decFscalar, unG_pk]
  exact gate_wellFormed _ h

theorem fcvtI64F32Rtz (f : GF) : Statement (.fcvtI64F32Rtz f) := by
  intro h w1
  rewrite [decode_07 _ _ (opc_pkG 0x07 0x1F f), xop_pkG]
  simp only [BitVec.reduceToNat, decFscalar, unG_pk]
  exact gate_wellFormed _ h

theorem addi (f : IF) : Statement (.addi f) := by
  intro _ w1
  have e := opc_pkI 0x08 f
  simp only [BitVec.reduceToNat] at e
  simp only [decode, decodeRest, e, unI_pk]

theorem muli (f : IF) : Statement (.muli f) := by
  intro _ w1
  have e := opc_pkI 0x09 f
  simp only [BitVec.reduceToNat] at e
  simp only [decode, decodeRest, e, unI_pk]

theorem andi (f : IF) : Statement (.andi f) := by
  intro _ w1
  have e := opc_pkI 0x0A f
  simp only [BitVec.reduceToNat] at e
  simp only [decode, decodeRest, e, unI_pk]

theorem ori (f : IF) : Statement (.ori f) := by
  intro _ w1
  have e := opc_pkI 0x0B f
  simp only [BitVec.reduceToNat] at e
  simp only [decode, decodeRest, e, unI_pk]

theorem xori (f : IF) : Statement (.xori f) := by
  intro _ w1
  have e := opc_pkI 0x0C f
  simp only [BitVec.reduceToNat] at e
  simp only [decode, decodeRest, e, unI_pk]

theorem shli (f : ShF) : Statement (.shli f) := by
  intro _ w1
  have e := opc_pkSh 0x0D f
  simp only [BitVec.reduceToNat] at e
  simp only [decode, decodeRest, e, unSh_pk, okSh_pk, if_true]

theorem shri (f : ShF) : Statement (.shri f) := by
  intro _ w1
  have e := opc_pkSh 0x0E f
  simp only [BitVec.reduceToNat] at e
  simp only [decode, decodeRest, e, unSh_pk, okSh_pk, if_true]

theorem sari (f : ShF) : Statement (.sari f) := by
  intro _ w1
  have e := opc_pkSh 0x0F f
  simp only [BitVec.reduceToNat] at e
  simp only [decode, decodeRest, e, unSh_pk, okSh_pk, if_true]

theorem teqi (f : IF) : Statement (.teqi f) := by
  intro _ w1
  have e := opc_pkI 0x10 f
  simp only [BitVec.reduceToNat] at e
  simp only [decode, decodeRest, e, unI_pk]

theorem tnei (f : IF) : Statement (.tnei f) := by
  intro _ w1
  have e := opc_pkI 0x11 f
  simp only [BitVec.reduceToNat] at e
  simp only [decode, decodeRest, e, unI_pk]

theorem tlti (f : IF) : Statement (.tlti f) := by
  intro _ w1
  have e := opc_pkI 0x12 f
  simp only [BitVec.reduceToNat] at e
  simp only [decode, decodeRest, e, unI_pk]

theorem tlei (f : IF) : Statement (.tlei f) := by
  intro _ w1
  have e := opc_pkI 0x13 f
  simp only [BitVec.reduceToNat] at e
  simp only [decode, decodeRest, e, unI_pk]

theorem tltzi (f : IF) : Statement (.tltzi f) := by
  intro _ w1
  have e := opc_pkI 0x14 f
  simp only [BitVec.reduceToNat] at e
  simp only [decode, decodeRest, e, unI_pk]

theorem tlezi (f : IF) : Statement (.tlezi f) := by
  intro _ w1
  have e := opc_pkI 0x15 f
  simp only [BitVec.reduceToNat] at e
  simp only [decode, decodeRest, e, unI_pk]

theorem addiw (f : IF) : Statement (.addiw f) := by
  intro _ w1
  have e := opc_pkI 0x16 f
  simp only [BitVec.reduceToNat] at e
  simp only [decode, decodeRest, e, unI_pk]

theorem movi (f : CF) : Statement (.movi f) := by
  intro _ w1
  have e := opc_pkC 0x18 f
  simp only [BitVec.reduceToNat] at e
  simp only [decode, decodeRest, e, unC_pk]

theorem appi (f : CF) : Statement (.appi f) := by
  intro _ w1
  have e := opc_pkC 0x19 f
  simp only [BitVec.reduceToNat] at e
  simp only [decode, decodeRest, e, unC_pk]

theorem ldb (f : LF) : Statement (.ldb f) := by
  intro _ w1
  have e := opc_pkL 0x20 f
  simp only [BitVec.reduceToNat] at e
  simp only [decode, decodeRest, e, unL_pk]

theorem ldh (f : LF) : Statement (.ldh f) := by
  intro _ w1
  have e := opc_pkL 0x21 f
  simp only [BitVec.reduceToNat] at e
  simp only [decode, decodeRest, e, unL_pk]

theorem ldw (f : LF) : Statement (.ldw f) := by
  intro _ w1
  have e := opc_pkL 0x22 f
  simp only [BitVec.reduceToNat] at e
  simp only [decode, decodeRest, e, unL_pk]

theorem ldd (f : LF) : Statement (.ldd f) := by
  intro _ w1
  have e := opc_pkL 0x23 f
  simp only [BitVec.reduceToNat] at e
  simp only [decode, decodeRest, e, unL_pk]

theorem ldbs (f : LF) : Statement (.ldbs f) := by
  intro _ w1
  have e := opc_pkL 0x24 f
  simp only [BitVec.reduceToNat] at e
  simp only [decode, decodeRest, e, unL_pk]

theorem ldhs (f : LF) : Statement (.ldhs f) := by
  intro _ w1
  have e := opc_pkL 0x25 f
  simp only [BitVec.reduceToNat] at e
  simp only [decode, decodeRest, e, unL_pk]

theorem ldws (f : LF) : Statement (.ldws f) := by
  intro _ w1
  have e := opc_pkL 0x26 f
  simp only [BitVec.reduceToNat] at e
  simp only [decode, decodeRest, e, unL_pk]

theorem ldv (f : LF) : Statement (.ldv f) := by
  intro _ w1
  have e := opc_pkL 0x27 f
  simp only [BitVec.reduceToNat] at e
  simp only [decode, decodeRest, e, unL_pk]

theorem stb (f : SF) : Statement (.stb f) := by
  intro _ w1
  have e := opc_pkS 0x28 f
  simp only [BitVec.reduceToNat] at e
  simp only [decode, decodeRest, e, unS_pk]

theorem sth (f : SF) : Statement (.sth f) := by
  intro _ w1
  have e := opc_pkS 0x29 f
  simp only [BitVec.reduceToNat] at e
  simp only [decode, decodeRest, e, unS_pk]

theorem stw (f : SF) : Statement (.stw f) := by
  intro _ w1
  have e := opc_pkS 0x2A f
  simp only [BitVec.reduceToNat] at e
  simp only [decode, decodeRest, e, unS_pk]

theorem std (f : SF) : Statement (.std f) := by
  intro _ w1
  have e := opc_pkS 0x2B f
  simp only [BitVec.reduceToNat] at e
  simp only [decode, decodeRest, e, unS_pk]

theorem stv (f : SF) : Statement (.stv f) := by
  intro _ w1
  have e := opc_pkS 0x2C f
  simp only [BitVec.reduceToNat] at e
  simp only [decode, decodeRest, e, unS_pk]

theorem br (f : BF) : Statement (.br f) := by
  intro _ w1
  have e := opc_pkB 0x30 f
  simp only [BitVec.reduceToNat] at e
  simp only [decode, decodeRest, e, unB_pk]

theorem call (f : BF) : Statement (.call f) := by
  intro _ w1
  have e := opc_pkB 0x31 f
  simp only [BitVec.reduceToNat] at e
  simp only [decode, decodeRest, e, unB_pk]

theorem bri (f : BrF) : Statement (.bri f) := by
  intro _ w1
  have e := opc_pkBr 0x32 f
  simp only [BitVec.reduceToNat] at e
  simp only [decode, decodeRest, e, unBr_pk, okBr_pk, if_true]

theorem ret (f : BrF) : Statement (.ret f) := by
  intro _ w1
  have e := opc_pkBr 0x33 f
  simp only [BitVec.reduceToNat] at e
  simp only [decode, decodeRest, e, unBr_pk, okBr_pk, if_true]

theorem scall (f : BF) : Statement (.scall f) := by
  intro _ w1
  have e := opc_pkB 0x34 f
  simp only [BitVec.reduceToNat] at e
  simp only [decode, decodeRest, e, unB_pk]

theorem hint (f : HintF) : Statement (.hint f) := by
  intro _ w1
  have e := opc_pkHint f
  have hh : f.h = 0#2 ∨ f.h = 1#2 ∨ f.h = 2#2 ∨ f.h = 3#2 := by
    generalize f.h = y; revert y; decide
  rcases hh with hh | hh | hh | hh <;> rw [hh] at e <;> simp only [BitVec.reduceToNat, Nat.reduceAdd] at e <;>
    simp only [decode, decodeRest, e, unHint_pk]

theorem calli (f : CalliF) : Statement (.calli f) := by
  refine of_words rfl fun h => ?_
  rewrite [decode_51 _ _ (opc_pkW 0x51 0x00 _ _ _), xop_pkW]
  simp only [BitVec.reduceToNat, decCtl, unCalli_pk, okCalli_pk, if_true]
  exact gate_wellFormed _ h

theorem mov4 (f : Mov4F) : Statement (.mov4 f) := by
  refine of_words rfl fun h => ?_
  rewrite [decode_51 _ _ (opc_pkW 0x51 0x01 _ _ _), xop_pkW]
  simp only [BitVec.reduceToNat, decCtl, unMov4_pk, okMov4_pk, if_true]
  exact gate_wellFormed _ h

theorem ld (f : MemF) : Statement (.ld f) := by
  refine of_words rfl fun h => ?_
  rewrite [decode_40 _ _ (opc_pkW 0x40 0x00 _ _ _), xop_pkW]
  simp only [BitVec.reduceToNat, decWmem, unMem_pk]
  exact gate_wellFormed _ h

theorem st (f : MemF) : Statement (.st f) := by
  refine of_words rfl fun h => ?_
  rewrite [decode_40 _ _ (opc_pkW 0x40 0x01 _ _ _), xop_pkW]
  simp only [BitVec.reduceToNat, decWmem, unMem_pk]
  exact gate_wellFormed _ h

theorem gather (f : MemF) : Statement (.gather f) := by
  refine of_words rfl fun h => ?_
  rewrite [decode_40 _ _ (opc_pkW 0x40 0x02 _ _ _), xop_pkW]
  simp only [BitVec.reduceToNat, decWmem, unMem_pk]
  exact gate_wellFormed _ h

theorem scatter (f : MemF) : Statement (.scatter f) := by
  refine of_words rfl fun h => ?_
  rewrite [decode_40 _ _ (opc_pkW 0x40 0x03 _ _ _), xop_pkW]
  simp only [BitVec.reduceToNat, decWmem, unMem_pk]
  exact gate_wellFormed _ h

theorem pref (f : MemF) : Statement (.pref f) := by
  refine of_words rfl fun h => ?_
  rewrite [decode_40 _ _ (opc_pkW 0x40 0x04 _ _ _), xop_pkW]
  simp only [BitVec.reduceToNat, decWmem, unMem_pk]
  exact gate_wellFormed _ h

theorem lflush (f : MemF) : Statement (.lflush f) := by
  refine of_words rfl fun h => ?_
  rewrite [decode_40 _ _ (opc_pkW 0x40 0x05 _ _ _), xop_pkW]
  simp only [BitVec.reduceToNat, decWmem, unMem_pk]
  exact gate_wellFormed _ h

theorem linv (f : MemF) : Statement (.linv f) := by
  refine of_words rfl fun h => ?_
  rewrite [decode_40 _ _ (opc_pkW 0x40 0x06 _ _ _), xop_pkW]
  simp only [BitVec.reduceToNat, decWmem, unMem_pk]
  exact gate_wellFormed _ h

theorem aadd (f : MemF) : Statement (.aadd f) := by
  refine of_words rfl fun h => ?_
  rewrite [decode_40 _ _ (opc_pkW 0x40 0x08 _ _ _), xop_pkW]
  simp only [BitVec.reduceToNat, decWmem, unMem_pk]
  exact gate_wellFormed _ h

theorem aand (f : MemF) : Statement (.aand f) := by
  refine of_words rfl fun h => ?_
  rewrite [decode_40 _ _ (opc_pkW 0x40 0x09 _ _ _), xop_pkW]
  simp only [BitVec.reduceToNat, decWmem, unMem_pk]
  exact gate_wellFormed _ h

theorem aor (f : MemF) : Statement (.aor f) := by
  refine of_words rfl fun h => ?_
  rewrite [decode_40 _ _ (opc_pkW 0x40 0x0A _ _ _), xop_pkW]
  simp only [BitVec.reduceToNat, decWmem, unMem_pk]
  exact gate_wellFormed _ h

theorem axor (f : MemF) : Statement (.axor f) := by
  refine of_words rfl fun h => ?_
  rewrite [decode_40 _ _ (opc_pkW 0x40 0x0B _ _ _), xop_pkW]
  simp only [BitVec.reduceToNat, decWmem, unMem_pk]
  exact gate_wellFormed _ h

theorem amin (f : MemF) : Statement (.amin f) := by
  refine of_words rfl fun h => ?_
  rewrite [decode_40 _ _ (opc_pkW 0x40 0x0C _ _ _), xop_pkW]
  simp only [BitVec.reduceToNat, decWmem, unMem_pk]
  exact gate_wellFormed _ h

theorem amax (f : MemF) : Statement (.amax f) := by
  refine of_words rfl fun h => ?_
  rewrite [decode_40 _ _ (opc_pkW 0x40 0x0D _ _ _), xop_pkW]
  simp only [BitVec.reduceToNat, decWmem, unMem_pk]
  exact gate_wellFormed _ h

theorem aminz (f : MemF) : Statement (.aminz f) := by
  refine of_words rfl fun h => ?_
  rewrite [decode_40 _ _ (opc_pkW 0x40 0x0E _ _ _), xop_pkW]
  simp only [BitVec.reduceToNat, decWmem, unMem_pk]
  exact gate_wellFormed _ h

theorem amaxz (f : MemF) : Statement (.amaxz f) := by
  refine of_words rfl fun h => ?_
  rewrite [decode_40 _ _ (opc_pkW 0x40 0x0F _ _ _), xop_pkW]
  simp only [BitVec.reduceToNat, decWmem, unMem_pk]
  exact gate_wellFormed _ h

theorem axchg (f : MemF) : Statement (.axchg f) := by
  refine of_words rfl fun h => ?_
  rewrite [decode_40 _ _ (opc_pkW 0x40 0x10 _ _ _), xop_pkW]
  simp only [BitVec.reduceToNat, decWmem, unMem_pk]
  exact gate_wellFormed _ h

theorem acas (f : MemF) : Statement (.acas f) := by
  refine of_words rfl fun h => ?_
  rewrite [decode_40 _ _ (opc_pkW 0x40 0x11 _ _ _), xop_pkW]
  simp only [BitVec.reduceToNat, decWmem, unMem_pk]
  exact gate_wellFormed _ h

theorem afaddF32 (f : MemF) : Statement (.afaddF32 f) := by
  refine of_words rfl fun h => ?_
  rewrite [decode_40 _ _ (opc_pkW 0x40 0x12 _ _ _), xop_pkW]
  simp only [BitVec.reduceToNat, decWmem, unMem_pk]
  exact gate_wellFormed _ h

theorem afaddBf16x2 (f : MemF) : Statement (.afaddBf16x2 f) := by
  refine of_words rfl fun h => ?_
  rewrite [decode_40 _ _ (opc_pkW 0x40 0x13 _ _ _), xop_pkW]
  simp only [BitVec.reduceToNat, decWmem, unMem_pk]
  exact gate_wellFormed _ h

theorem fence (f : SyncF) : Statement (.fence f) := by
  refine of_words rfl fun h => ?_
  rewrite [decode_41 _ _ (opc_pkW 0x41 0x00 _ _ _), xop_pkW]
  simp only [BitVec.reduceToNat, decWsync, unSync_pk, okSync_pk, if_true]
  exact gate_wellFormed _ h

theorem bara (f : SyncF) : Statement (.bara f) := by
  refine of_words rfl fun h => ?_
  rewrite [decode_41 _ _ (opc_pkW 0x41 0x01 _ _ _), xop_pkW]
  simp only [BitVec.reduceToNat, decWsync, unSync_pk, okSync_pk, if_true]
  exact gate_wellFormed _ h

theorem barw (f : SyncF) : Statement (.barw f) := by
  refine of_words rfl fun h => ?_
  rewrite [decode_41 _ _ (opc_pkW 0x41 0x02 _ _ _), xop_pkW]
  simp only [BitVec.reduceToNat, decWsync, unSync_pk, okSync_pk, if_true]
  exact gate_wellFormed _ h

theorem vaddInt (f : VecF) : Statement (.vaddInt f) := by
  refine of_words rfl fun h => ?_
  rewrite [decode_42 _ _ (opc_pkW 0x42 0x00 _ _ _), xop_pkW]
  simp only [BitVec.reduceToNat, decVint, unVec_pk, okVec_pk, if_true]
  exact gate_wellFormed _ h

theorem vsubInt (f : VecF) : Statement (.vsubInt f) := by
  refine of_words rfl fun h => ?_
  rewrite [decode_42 _ _ (opc_pkW 0x42 0x01 _ _ _), xop_pkW]
  simp only [BitVec.reduceToNat, decVint, unVec_pk, okVec_pk, if_true]
  exact gate_wellFormed _ h

theorem vmulInt (f : VecF) : Statement (.vmulInt f) := by
  refine of_words rfl fun h => ?_
  rewrite [decode_42 _ _ (opc_pkW 0x42 0x02 _ _ _), xop_pkW]
  simp only [BitVec.reduceToNat, decVint, unVec_pk, okVec_pk, if_true]
  exact gate_wellFormed _ h

theorem vmulh (f : VecF) : Statement (.vmulh f) := by
  refine of_words rfl fun h => ?_
  rewrite [decode_42 _ _ (opc_pkW 0x42 0x03 _ _ _), xop_pkW]
  simp only [BitVec.reduceToNat, decVint, unVec_pk, okVec_pk, if_true]
  exact gate_wellFormed _ h

theorem vminInt (f : VecF) : Statement (.vminInt f) := by
  refine of_words rfl fun h => ?_
  rewrite [decode_42 _ _ (opc_pkW 0x42 0x04 _ _ _), xop_pkW]
  simp only [BitVec.reduceToNat, decVint, unVec_pk, okVec_pk, if_true]
  exact gate_wellFormed _ h

theorem vmaxInt (f : VecF) : Statement (.vmaxInt f) := by
  refine of_words rfl fun h => ?_
  rewrite [decode_42 _ _ (opc_pkW 0x42 0x05 _ _ _), xop_pkW]
  simp only [BitVec.reduceToNat, decVint, unVec_pk, okVec_pk, if_true]
  exact gate_wellFormed _ h

theorem vabsInt (f : VecF) : Statement (.vabsInt f) := by
  refine of_words rfl fun h => ?_
  rewrite [decode_42 _ _ (opc_pkW 0x42 0x06 _ _ _), xop_pkW]
  simp only [BitVec.reduceToNat, decVint, unVec_pk, okVec_pk, if_true]
  exact gate_wellFormed _ h

theorem vnegInt (f : VecF) : Statement (.vnegInt f) := by
  refine of_words rfl fun h => ?_
  rewrite [decode_42 _ _ (opc_pkW 0x42 0x07 _ _ _), xop_pkW]
  simp only [BitVec.reduceToNat, decVint, unVec_pk, okVec_pk, if_true]
  exact gate_wellFormed _ h

theorem vand (f : VecF) : Statement (.vand f) := by
  refine of_words rfl fun h => ?_
  rewrite [decode_42 _ _ (opc_pkW 0x42 0x08 _ _ _), xop_pkW]
  simp only [BitVec.reduceToNat, decVint, unVec_pk, okVec_pk, if_true]
  exact gate_wellFormed _ h

theorem vor (f : VecF) : Statement (.vor f) := by
  refine of_words rfl fun h => ?_
  rewrite [decode_42 _ _ (opc_pkW 0x42 0x09 _ _ _), xop_pkW]
  simp only [BitVec.reduceToNat, decVint, unVec_pk, okVec_pk, if_true]
  exact gate_wellFormed _ h

theorem vxor (f : VecF) : Statement (.vxor f) := by
  refine of_words rfl fun h => ?_
  rewrite [decode_42 _ _ (opc_pkW 0x42 0x0A _ _ _), xop_pkW]
  simp only [BitVec.reduceToNat, decVint, unVec_pk, okVec_pk, if_true]
  exact gate_wellFormed _ h

theorem vshl (f : VecF) : Statement (.vshl f) := by
  refine of_words rfl fun h => ?_
  rewrite [decode_42 _ _ (opc_pkW 0x42 0x0B _ _ _), xop_pkW]
  simp only [BitVec.reduceToNat, decVint, unVec_pk, okVec_pk, if_true]
  exact gate_wellFormed _ h

theorem vshr (f : VecF) : Statement (.vshr f) := by
  refine of_words rfl fun h => ?_
  rewrite [decode_42 _ _ (opc_pkW 0x42 0x0C _ _ _), xop_pkW]
  simp only [BitVec.reduceToNat, decVint, unVec_pk, okVec_pk, if_true]
  exact gate_wellFormed _ h

theorem vsar (f : VecF) : Statement (.vsar f) := by
  refine of_words rfl fun h => ?_
  rewrite [decode_42 _ _ (opc_pkW 0x42 0x0D _ _ _), xop_pkW]
  simp only [BitVec.reduceToNat, decVint, unVec_pk, okVec_pk, if_true]
  exact gate_wellFormed _ h

theorem vcmpInt (f : VecF) : Statement (.vcmpInt f) := by
  refine of_words rfl fun h => ?_
  rewrite [decode_42 _ _ (opc_pkW 0x42 0x0E _ _ _), xop_pkW]
  simp only [BitVec.reduceToNat, decVint, unVec_pk, okVec_pk, if_true]
  exact gate_wellFormed _ h

theorem vsel (f : VecF) : Statement (.vsel f) := by
  refine of_words rfl fun h => ?_
  rewrite [decode_42 _ _ (opc_pkW 0x42 0x0F _ _ _), xop_pkW]
  simp only [BitVec.reduceToNat, decVint, unVec_pk, okVec_pk, if_true]
  exact gate_wellFormed _ h

theorem vaddFp (f : VecF) : Statement (.vaddFp f) := by
  refine of_words rfl fun h => ?_
  rewrite [decode_43 _ _ (opc_pkW 0x43 0x00 _ _ _), xop_pkW]
  simp only [BitVec.reduceToNat, decVfp, unVec_pk, okVec_pk, if_true]
  exact gate_wellFormed _ h

theorem vsubFp (f : VecF) : Statement (.vsubFp f) := by
  refine of_words rfl fun h => ?_
  rewrite [decode_43 _ _ (opc_pkW 0x43 0x01 _ _ _), xop_pkW]
  simp only [BitVec.reduceToNat, decVfp, unVec_pk, okVec_pk, if_true]
  exact gate_wellFormed _ h

theorem vmulFp (f : VecF) : Statement (.vmulFp f) := by
  refine of_words rfl fun h => ?_
  rewrite [decode_43 _ _ (opc_pkW 0x43 0x02 _ _ _), xop_pkW]
  simp only [BitVec.reduceToNat, decVfp, unVec_pk, okVec_pk, if_true]
  exact gate_wellFormed _ h

theorem vfma (f : VecF) : Statement (.vfma f) := by
  refine of_words rfl fun h => ?_
  rewrite [decode_43 _ _ (opc_pkW 0x43 0x03 _ _ _), xop_pkW]
  simp only [BitVec.reduceToNat, decVfp, unVec_pk, okVec_pk, if_true]
  exact gate_wellFormed _ h

theorem vfms (f : VecF) : Statement (.vfms f) := by
  refine of_words rfl fun h => ?_
  rewrite [decode_43 _ _ (opc_pkW 0x43 0x04 _ _ _), xop_pkW]
  simp only [BitVec.reduceToNat, decVfp, unVec_pk, okVec_pk, if_true]
  exact gate_wellFormed _ h

theorem vminFp (f : VecF) : Statement (.vminFp f) := by
  refine of_words rfl fun h => ?_
  rewrite [decode_43 _ _ (opc_pkW 0x43 0x05 _ _ _), xop_pkW]
  simp only [BitVec.reduceToNat, decVfp, unVec_pk, okVec_pk, if_true]
  exact gate_wellFormed _ h

theorem vmaxFp (f : VecF) : Statement (.vmaxFp f) := by
  refine of_words rfl fun h => ?_
  rewrite [decode_43 _ _ (opc_pkW 0x43 0x06 _ _ _), xop_pkW]
  simp only [BitVec.reduceToNat, decVfp, unVec_pk, okVec_pk, if_true]
  exact gate_wellFormed _ h

theorem vabsFp (f : VecF) : Statement (.vabsFp f) := by
  refine of_words rfl fun h => ?_
  rewrite [decode_43 _ _ (opc_pkW 0x43 0x07 _ _ _), xop_pkW]
  simp only [BitVec.reduceToNat, decVfp, unVec_pk, okVec_pk, if_true]
  exact gate_wellFormed _ h

theorem vnegFp (f : VecF) : Statement (.vnegFp f) := by
  refine of_words rfl fun h => ?_
  rewrite [decode_43 _ _ (opc_pkW 0x43 0x08 _ _ _), xop_pkW]
  simp only [BitVec.reduceToNat, decVfp, unVec_pk, okVec_pk, if_true]
  exact gate_wellFormed _ h

theorem vcmpFp (f : VecF) : Statement (.vcmpFp f) := by
  refine of_words rfl fun h => ?_
  rewrite [decode_43 _ _ (opc_pkW 0x43 0x09 _ _ _), xop_pkW]
  simp only [BitVec.reduceToNat, decVfp, unVec_pk, okVec_pk, if_true]
  exact gate_wellFormed _ h

theorem vrcp (f : VecF) : Statement (.vrcp f) := by
  refine of_words rfl fun h => ?_
  rewrite [decode_43 _ _ (opc_pkW 0x43 0x0A _ _ _), xop_pkW]
  simp only [BitVec.reduceToNat, decVfp, unVec_pk, okVec_pk, if_true]
  exact gate_wellFormed _ h

theorem vrsq (f : VecF) : Statement (.vrsq f) := by
  refine of_words rfl fun h => ?_
  rewrite [decode_43 _ _ (opc_pkW 0x43 0x0B _ _ _), xop_pkW]
  simp only [BitVec.reduceToNat, decVfp, unVec_pk, okVec_pk, if_true]
  exact gate_wellFormed _ h

theorem vexp2 (f : VecF) : Statement (.vexp2 f) := by
  refine of_words rfl fun h => ?_
  rewrite [decode_43 _ _ (opc_pkW 0x43 0x0C _ _ _), xop_pkW]
  simp only [BitVec.reduceToNat, decVfp, unVec_pk, okVec_pk, if_true]
  exact gate_wellFormed _ h

theorem vlog2 (f : VecF) : Statement (.vlog2 f) := by
  refine of_words rfl fun h => ?_
  rewrite [decode_43 _ _ (opc_pkW 0x43 0x0D _ _ _), xop_pkW]
  simp only [BitVec.reduceToNat, decVfp, unVec_pk, okVec_pk, if_true]
  exact gate_wellFormed _ h

theorem vcvt (f : VecF) : Statement (.vcvt f) := by
  refine of_words rfl fun h => ?_
  rewrite [decode_44 _ _ (opc_pkW 0x44 0x00 _ _ _), xop_pkW]
  simp only [BitVec.reduceToNat, decVcvt, unVec_pk, okVec_pk, if_true]
  exact gate_wellFormed _ h

theorem vshuf (f : VecF) : Statement (.vshuf f) := by
  refine of_words rfl fun h => ?_
  rewrite [decode_45 _ _ (opc_pkW 0x45 0x00 _ _ _), xop_pkW]
  simp only [BitVec.reduceToNat, decVperm, unVec_pk, okVec_pk, if_true]
  exact gate_wellFormed _ h

theorem vbcast (f : VecF) : Statement (.vbcast f) := by
  refine of_words rfl fun h => ?_
  rewrite [decode_45 _ _ (opc_pkW 0x45 0x01 _ _ _), xop_pkW]
  simp only [BitVec.reduceToNat, decVperm, unVec_pk, okVec_pk, if_true]
  exact gate_wellFormed _ h

theorem vins (f : VecF) : Statement (.vins f) := by
  refine of_words rfl fun h => ?_
  rewrite [decode_45 _ _ (opc_pkW 0x45 0x02 _ _ _), xop_pkW]
  simp only [BitVec.reduceToNat, decVperm, unVec_pk, okVec_pk, if_true]
  exact gate_wellFormed _ h

theorem vext (f : VecF) : Statement (.vext f) := by
  refine of_words rfl fun h => ?_
  rewrite [decode_45 _ _ (opc_pkW 0x45 0x03 _ _ _), xop_pkW]
  simp only [BitVec.reduceToNat, decVperm, unVec_pk, okVec_pk, if_true]
  exact gate_wellFormed _ h

theorem vred (f : VecF) : Statement (.vred f) := by
  refine of_words rfl fun h => ?_
  rewrite [decode_46 _ _ (opc_pkW 0x46 0x00 _ _ _), xop_pkW]
  simp only [BitVec.reduceToNat, decVred, unVec_pk, okVec_pk, if_true]
  exact gate_wellFormed _ h

theorem vscan (f : VecF) : Statement (.vscan f) := by
  refine of_words rfl fun h => ?_
  rewrite [decode_46 _ _ (opc_pkW 0x46 0x01 _ _ _), xop_pkW]
  simp only [BitVec.reduceToNat, decVred, unVec_pk, okVec_pk, if_true]
  exact gate_wellFormed _ h

theorem vdot (f : VecF) : Statement (.vdot f) := by
  refine of_words rfl fun h => ?_
  rewrite [decode_46 _ _ (opc_pkW 0x46 0x02 _ _ _), xop_pkW]
  simp only [BitVec.reduceToNat, decVred, unVec_pk, okVec_pk, if_true]
  exact gate_wellFormed _ h

theorem vmxq (f : VecF) : Statement (.vmxq f) := by
  refine of_words rfl fun h => ?_
  rewrite [decode_47 _ _ (opc_pkW 0x47 0x00 _ _ _), xop_pkW]
  simp only [BitVec.reduceToNat, decVmx, unVec_pk, okVec_pk, if_true]
  exact gate_wellFormed _ h

theorem vmxdq (f : VecF) : Statement (.vmxdq f) := by
  refine of_words rfl fun h => ?_
  rewrite [decode_47 _ _ (opc_pkW 0x47 0x01 _ _ _), xop_pkW]
  simp only [BitVec.reduceToNat, decVmx, unVec_pk, okVec_pk, if_true]
  exact gate_wellFormed _ h

theorem vnipack (f : VecF) : Statement (.vnipack f) := by
  refine of_words rfl fun h => ?_
  rewrite [decode_47 _ _ (opc_pkW 0x47 0x02 _ _ _), xop_pkW]
  simp only [BitVec.reduceToNat, decVmx, unVec_pk, okVec_pk, if_true]
  exact gate_wellFormed _ h

theorem vniunpack (f : VecF) : Statement (.vniunpack f) := by
  refine of_words rfl fun h => ?_
  rewrite [decode_47 _ _ (opc_pkW 0x47 0x03 _ _ _), xop_pkW]
  simp only [BitVec.reduceToNat, decVmx, unVec_pk, okVec_pk, if_true]
  exact gate_wellFormed _ h

theorem mclaim (f : ClaimF) : Statement (.mclaim f) := by
  refine of_words rfl fun h => ?_
  rewrite [decode_48 _ _ (opc_pkW 0x48 0x00 _ _ _), xop_pkW]
  simp only [BitVec.reduceToNat, decMslot, unClaim_pk, okClaim_pk, if_true]
  exact gate_wellFormed _ h

theorem mrel (f : LsF) : Statement (.mrel f) := by
  refine of_words rfl fun h => ?_
  rewrite [decode_48 _ _ (opc_pkW 0x48 0x01 _ _ _), xop_pkW]
  simp only [BitVec.reduceToNat, decMslot, unLs_pk, okLs_pk, if_true]
  exact gate_wellFormed _ h

theorem mshape (f : ShapeF) : Statement (.mshape f) := by
  refine of_words rfl fun h => ?_
  rewrite [decode_48 _ _ (opc_pkW 0x48 0x02 _ _ _), xop_pkW]
  simp only [BitVec.reduceToNat, decMslot, unShape_pk, okShape_pk, if_true]
  exact gate_wellFormed _ h

theorem mload (f : XferF) : Statement (.mload f) := by
  refine of_words rfl fun h => ?_
  rewrite [decode_49 _ _ (opc_pkW 0x49 0x00 _ _ _), xop_pkW]
  simp only [BitVec.reduceToNat, decMmove, unXfer_pk, okXfer_pk, if_true]
  exact gate_wellFormed _ h

theorem mstore (f : XferF) : Statement (.mstore f) := by
  refine of_words rfl fun h => ?_
  rewrite [decode_49 _ _ (opc_pkW 0x49 0x01 _ _ _), xop_pkW]
  simp only [BitVec.reduceToNat, decMmove, unXfer_pk, okXfer_pk, if_true]
  exact gate_wellFormed _ h

theorem mrow (f : RowF) : Statement (.mrow f) := by
  refine of_words rfl fun h => ?_
  rewrite [decode_49 _ _ (opc_pkW 0x49 0x02 _ _ _), xop_pkW]
  simp only [BitVec.reduceToNat, decMmove, unRow_pk, okRow_pk, if_true]
  exact gate_wellFormed _ h

theorem mrowr (f : RowF) : Statement (.mrowr f) := by
  refine of_words rfl fun h => ?_
  rewrite [decode_49 _ _ (opc_pkW 0x49 0x03 _ _ _), xop_pkW]
  simp only [BitVec.reduceToNat, decMmove, unRow_pk, okRow_pk, if_true]
  exact gate_wellFormed _ h

theorem mcol (f : ColF) : Statement (.mcol f) := by
  refine of_words rfl fun h => ?_
  rewrite [decode_49 _ _ (opc_pkW 0x49 0x04 _ _ _), xop_pkW]
  simp only [BitVec.reduceToNat, decMmove, unCol_pk, okCol_pk, if_true]
  exact gate_wellFormed _ h

theorem mcolw (f : ColF) : Statement (.mcolw f) := by
  refine of_words rfl fun h => ?_
  rewrite [decode_49 _ _ (opc_pkW 0x49 0x05 _ _ _), xop_pkW]
  simp only [BitVec.reduceToNat, decMmove, unCol_pk, okCol_pk, if_true]
  exact gate_wellFormed _ h

theorem mzero (f : RsF) : Statement (.mzero f) := by
  refine of_words rfl fun h => ?_
  rewrite [decode_4A _ _ (opc_pkW 0x4A 0x00 _ _ _), xop_pkW]
  simp only [BitVec.reduceToNat, decMcomp, unRs_pk, okRs_pk, if_true]
  exact gate_wellFormed _ h

theorem mma (f : MmaF) : Statement (.mma f) := by
  refine of_words rfl fun h => ?_
  rewrite [decode_4A _ _ (opc_pkW 0x4A 0x01 _ _ _), xop_pkW]
  simp only [BitVec.reduceToNat, decMcomp, unMma_pk, okMma_pk, if_true]
  exact gate_wellFormed _ h

theorem mmas (f : RsF) : Statement (.mmas f) := by
  refine of_words rfl fun h => ?_
  rewrite [decode_4A _ _ (opc_pkW 0x4A 0x02 _ _ _), xop_pkW]
  simp only [BitVec.reduceToNat, decMcomp, unRs_pk, okRs_pk, if_true]
  exact gate_wellFormed _ h

theorem mscan (f : ScanF) : Statement (.mscan f) := by
  refine of_words rfl fun h => ?_
  rewrite [decode_4A _ _ (opc_pkW 0x4A 0x03 _ _ _), xop_pkW]
  simp only [BitVec.reduceToNat, decMcomp, unScan_pk, okScan_pk, if_true]
  exact gate_wellFormed _ h

theorem maccr (f : AccrF) : Statement (.maccr f) := by
  refine of_words rfl fun h => ?_
  rewrite [decode_4A _ _ (opc_pkW 0x4A 0x04 _ _ _), xop_pkW]
  simp only [BitVec.reduceToNat, decMcomp, unAccr_pk, okAccr_pk, if_true]
  exact gate_wellFormed _ h

theorem mwait (f : RsF) : Statement (.mwait f) := by
  refine of_words rfl fun h => ?_
  rewrite [decode_4B _ _ (opc_pkW 0x4B 0x00 _ _ _), xop_pkW]
  simp only [BitVec.reduceToNat, decMjob, unRs_pk, okRs_pk, if_true]
  exact gate_wellFormed _ h

theorem mpoll (f : RsF) : Statement (.mpoll f) := by
  refine of_words rfl fun h => ?_
  rewrite [decode_4B _ _ (opc_pkW 0x4B 0x01 _ _ _), xop_pkW]
  simp only [BitVec.reduceToNat, decMjob, unRs_pk, okRs_pk, if_true]
  exact gate_wellFormed _ h

theorem lcload (f : LcloadF) : Statement (.lcload f) := by
  refine of_words rfl fun h => ?_
  rewrite [decode_4C _ _ (opc_pkW 0x4C 0x00 _ _ _), xop_pkW]
  simp only [BitVec.reduceToNat, decLcell, unLcload_pk, okLcload_pk, if_true]
  exact gate_wellFormed _ h

theorem lcsel (f : LcselF) : Statement (.lcsel f) := by
  refine of_words rfl fun h => ?_
  rewrite [decode_4C _ _ (opc_pkW 0x4C 0x01 _ _ _), xop_pkW]
  simp only [BitVec.reduceToNat, decLcell, unLcsel_pk, okLcsel_pk, if_true]
  exact gate_wellFormed _ h

theorem lcin (f : LcinF) : Statement (.lcin f) := by
  refine of_words rfl fun h => ?_
  rewrite [decode_4C _ _ (opc_pkW 0x4C 0x02 _ _ _), xop_pkW]
  simp only [BitVec.reduceToNat, decLcell, unLcin_pk, okLcin_pk, if_true]
  exact gate_wellFormed _ h

theorem lcrun (f : LcrunF) : Statement (.lcrun f) := by
  refine of_words rfl fun h => ?_
  rewrite [decode_4C _ _ (opc_pkW 0x4C 0x03 _ _ _), xop_pkW]
  simp only [BitVec.reduceToNat, decLcell, unLcrun_pk, okLcrun_pk, if_true]
  exact gate_wellFormed _ h

theorem lcout (f : LcoutF) : Statement (.lcout f) := by
  refine of_words rfl fun h => ?_
  rewrite [decode_4C _ _ (opc_pkW 0x4C 0x04 _ _ _), xop_pkW]
  simp only [BitVec.reduceToNat, decLcell, unLcout_pk, okLcout_pk, if_true]
  exact gate_wellFormed _ h

theorem lcwait (f : RsF) : Statement (.lcwait f) := by
  refine of_words rfl fun h => ?_
  rewrite [decode_4C _ _ (opc_pkW 0x4C 0x05 _ _ _), xop_pkW]
  simp only [BitVec.reduceToNat, decLcell, unRs_pk, okRs_pk, if_true]
  exact gate_wellFormed _ h

theorem lcstat (f : GF) : Statement (.lcstat f) := by
  refine of_words rfl fun h => ?_
  rewrite [decode_4C _ _ (opc_pkW 0x4C 0x06 _ _ _), xop_pkW]
  simp only [BitVec.reduceToNat, decLcell, unG2_pk, okG, beq_self_eq_true, if_true]
  exact gate_wellFormed _ h

theorem cpy (f : CpyF) : Statement (.cpy f) := by
  refine of_words rfl fun h => ?_
  rewrite [decode_4D _ _ (opc_pkW 0x4D 0x00 _ _ _), xop_pkW]
  simp only [BitVec.reduceToNat, decCopy, unCpy_pk, okCpy_pk, if_true]
  exact gate_wellFormed _ h

theorem cpys (f : CpysF) : Statement (.cpys f) := by
  refine of_words rfl fun h => ?_
  rewrite [decode_4D _ _ (opc_pkW 0x4D 0x01 _ _ _), xop_pkW]
  simp only [BitVec.reduceToNat, decCopy, unCpys_pk, okCpys_pk, if_true]
  exact gate_wellFormed _ h

theorem stfree (f : LsF) : Statement (.stfree f) := by
  refine of_words rfl fun h => ?_
  rewrite [decode_4D _ _ (opc_pkW 0x4D 0x02 _ _ _), xop_pkW]
  simp only [BitVec.reduceToNat, decCopy, unLs_pk, okLs_pk, if_true]
  exact gate_wellFormed _ h

theorem stclose (f : LsF) : Statement (.stclose f) := by
  refine of_words rfl fun h => ?_
  rewrite [decode_4D _ _ (opc_pkW 0x4D 0x03 _ _ _), xop_pkW]
  simp only [BitVec.reduceToNat, decCopy, unLs_pk, okLs_pk, if_true]
  exact gate_wellFormed _ h

theorem stq (f : StqF) : Statement (.stq f) := by
  refine of_words rfl fun h => ?_
  rewrite [decode_4D _ _ (opc_pkW 0x4D 0x04 _ _ _), xop_pkW]
  simp only [BitVec.reduceToNat, decCopy, unStq_pk, okStq_pk, if_true]
  exact gate_wellFormed _ h

theorem cwait (f : RsF) : Statement (.cwait f) := by
  refine of_words rfl fun h => ?_
  rewrite [decode_4D _ _ (opc_pkW 0x4D 0x05 _ _ _), xop_pkW]
  simp only [BitVec.reduceToNat, decCopy, unRs_pk, okRs_pk, if_true]
  exact gate_wellFormed _ h

theorem send (f : SendF) : Statement (.send f) := by
  refine of_words rfl fun h => ?_
  rewrite [decode_4E _ _ (opc_pkW 0x4E 0x00 _ _ _), xop_pkW]
  simp only [BitVec.reduceToNat, decPort, unSend_pk, okSend_pk, if_true]
  exact gate_wellFormed _ h

theorem sendt (f : SendF) : Statement (.sendt f) := by
  refine of_words rfl fun h => ?_
  rewrite [decode_4E _ _ (opc_pkW 0x4E 0x01 _ _ _), xop_pkW]
  simp only [BitVec.reduceToNat, decPort, unSend_pk, okSend_pk, if_true]
  exact gate_wellFormed _ h

theorem portcfg (f : LsF) : Statement (.portcfg f) := by
  refine of_words rfl fun h => ?_
  rewrite [decode_4E _ _ (opc_pkW 0x4E 0x02 _ _ _), xop_pkW]
  simp only [BitVec.reduceToNat, decPort, unLs_pk, okLs_pk, if_true]
  exact gate_wellFormed _ h

theorem patset (f : C3F) : Statement (.patset f) := by
  refine of_words rfl fun h => ?_
  rewrite [decode_4E _ _ (opc_pkW 0x4E 0x03 _ _ _), xop_pkW]
  simp only [BitVec.reduceToNat, decPort, unC3_pk, okC3_pk, if_true]
  exact gate_wellFormed _ h

theorem patclr (f : LsF) : Statement (.patclr f) := by
  refine of_words rfl fun h => ?_
  rewrite [decode_4E _ _ (opc_pkW 0x4E 0x04 _ _ _), xop_pkW]
  simp only [BitVec.reduceToNat, decPort, unLs_pk, okLs_pk, if_true]
  exact gate_wellFormed _ h

theorem portq (f : GF) : Statement (.portq f) := by
  refine of_words rfl fun h => ?_
  rewrite [decode_4E _ _ (opc_pkW 0x4E 0x05 _ _ _), xop_pkW]
  simp only [BitVec.reduceToNat, decPort, unG2_pk, okG, beq_self_eq_true, if_true]
  exact gate_wellFormed _ h

theorem hend (f : LsF) : Statement (.hend f) := by
  refine of_words rfl fun h => ?_
  rewrite [decode_4E _ _ (opc_pkW 0x4E 0x06 _ _ _), xop_pkW]
  simp only [BitVec.reduceToNat, decPort, unLs_pk, okLs_pk, if_true]
  exact gate_wellFormed _ h

theorem spawn (f : SpawnF) : Statement (.spawn f) := by
  refine of_words rfl fun h => ?_
  rewrite [decode_4F _ _ (opc_pkW 0x4F 0x00 _ _ _), xop_pkW]
  simp only [BitVec.reduceToNat, decThread, unSpawn_pk, okSpawn_pk, if_true]
  exact gate_wellFormed _ h

theorem spawnp (f : SpawnF) : Statement (.spawnp f) := by
  refine of_words rfl fun h => ?_
  rewrite [decode_4F _ _ (opc_pkW 0x4F 0x01 _ _ _), xop_pkW]
  simp only [BitVec.reduceToNat, decThread, unSpawn_pk, okSpawn_pk, if_true]
  exact gate_wellFormed _ h

theorem compose (f : GF) : Statement (.compose f) := by
  refine of_words rfl fun h => ?_
  rewrite [decode_4F _ _ (opc_pkW 0x4F 0x02 _ _ _), xop_pkW]
  simp only [BitVec.reduceToNat, decThread, unG2_pk, okG, beq_self_eq_true, if_true]
  exact gate_wellFormed _ h

theorem decomp (f : GF) : Statement (.decomp f) := by
  refine of_words rfl fun h => ?_
  rewrite [decode_4F _ _ (opc_pkW 0x4F 0x03 _ _ _), xop_pkW]
  simp only [BitVec.reduceToNat, decThread, unG2_pk, okG, beq_self_eq_true, if_true]
  exact gate_wellFormed _ h

theorem follow (f : GF) : Statement (.follow f) := by
  refine of_words rfl fun h => ?_
  rewrite [decode_4F _ _ (opc_pkW 0x4F 0x04 _ _ _), xop_pkW]
  simp only [BitVec.reduceToNat, decThread, unG2_pk, okG, beq_self_eq_true, if_true]
  exact gate_wellFormed _ h

theorem unfollow (f : PF) : Statement (.unfollow f) := by
  refine of_words rfl fun h => ?_
  rewrite [decode_4F _ _ (opc_pkW 0x4F 0x05 _ _ _), xop_pkW]
  simp only [BitVec.reduceToNat, decThread, unP_pk, okP_pk, if_true]
  exact gate_wellFormed _ h

theorem rejoin (f : PF) : Statement (.rejoin f) := by
  refine of_words rfl fun h => ?_
  rewrite [decode_4F _ _ (opc_pkW 0x4F 0x06 _ _ _), xop_pkW]
  simp only [BitVec.reduceToNat, decThread, unP_pk, okP_pk, if_true]
  exact gate_wellFormed _ h

theorem tend (f : LsF) : Statement (.tend f) := by
  refine of_words rfl fun h => ?_
  rewrite [decode_4F _ _ (opc_pkW 0x4F 0x07 _ _ _), xop_pkW]
  simp only [BitVec.reduceToNat, decThread, unLs_pk, okLs_pk, if_true]
  exact gate_wellFormed _ h

theorem trap (f : TrapF) : Statement (.trap f) := by
  refine of_words rfl fun h => ?_
  rewrite [decode_50 _ _ (opc_pkW 0x50 0x00 _ _ _), xop_pkW]
  simp only [BitVec.reduceToNat, decSystem, unTrap_pk, okTrap_pk, if_true]
  exact gate_wellFormed _ h

theorem eret (f : EretF) : Statement (.eret f) := by
  refine of_words rfl fun h => ?_
  rewrite [decode_50 _ _ (opc_pkW 0x50 0x01 _ _ _), xop_pkW]
  simp only [BitVec.reduceToNat, decSystem, unEret_pk, okEret_pk, if_true]
  exact gate_wellFormed _ h

theorem srr (f : RsF) : Statement (.srr f) := by
  refine of_words rfl fun h => ?_
  rewrite [decode_50 _ _ (opc_pkW 0x50 0x02 _ _ _), xop_pkW]
  simp only [BitVec.reduceToNat, decSystem, unRs_pk, okRs_pk, if_true]
  exact gate_wellFormed _ h

theorem srw (f : LsF) : Statement (.srw f) := by
  refine of_words rfl fun h => ?_
  rewrite [decode_50 _ _ (opc_pkW 0x50 0x03 _ _ _), xop_pkW]
  simp only [BitVec.reduceToNat, decSystem, unLs_pk, okLs_pk, if_true]
  exact gate_wellFormed _ h

theorem tlbinv (f : TlbinvF) : Statement (.tlbinv f) := by
  refine of_words rfl fun h => ?_
  rewrite [decode_50 _ _ (opc_pkW 0x50 0x04 _ _ _), xop_pkW]
  simp only [BitVec.reduceToNat, decSystem, unTlbinv_pk, okTlbinv_pk, if_true]
  exact gate_wellFormed _ h

theorem ctxkill (f : LsF) : Statement (.ctxkill f) := by
  refine of_words rfl fun h => ?_
  rewrite [decode_50 _ _ (opc_pkW 0x50 0x05 _ _ _), xop_pkW]
  simp only [BitVec.reduceToNat, decSystem, unLs_pk, okLs_pk, if_true]
  exact gate_wellFormed _ h

theorem perfr (f : PerfrF) : Statement (.perfr f) := by
  refine of_words rfl fun h => ?_
  rewrite [decode_50 _ _ (opc_pkW 0x50 0x06 _ _ _), xop_pkW]
  simp only [BitVec.reduceToNat, decSystem, unPerfr_pk, okPerfr_pk, if_true]
  exact gate_wellFormed _ h

/-! Events have no words. -/

theorem blockFetch (thr exitNum : Nat) : Statement (.blockFetch thr exitNum) := fun _ => trivial
theorem blockChunkArrival (thr seq chunk : Nat) : Statement (.blockChunkArrival thr seq chunk) := fun _ => trivial
theorem blockMap (thr seq : Nat) : Statement (.blockMap thr seq) := fun _ => trivial
theorem refusedBlock (thr : Nat) : Statement (.refusedBlock thr) := fun _ => trivial
theorem tokenArrival (thr seq idx : Nat) : Statement (.tokenArrival thr seq idx) := fun _ => trivial
theorem tokenCollision (thr : Nat) : Statement (.tokenCollision thr) := fun _ => trivial
theorem commitRequest (thr : Nat) : Statement (.commitRequest thr) := fun _ => trivial
theorem releaseDrainEnd (thr : Nat) : Statement (.releaseDrainEnd thr) := fun _ => trivial
theorem missRegisterGrant (thr seq slot : Nat) : Statement (.missRegisterGrant thr seq slot) := fun _ => trivial
theorem walkStart (clu idx : Nat) : Statement (.walkStart clu idx) := fun _ => trivial
theorem walkSlotGrant (clu : Nat) : Statement (.walkSlotGrant clu) := fun _ => trivial
theorem walkCacheHit (die idx : Nat) : Statement (.walkCacheHit die idx) := fun _ => trivial
theorem walkEntryRead (die idx : Nat) : Statement (.walkEntryRead die idx) := fun _ => trivial
theorem accessedDirtyUpdate (die idx : Nat) : Statement (.accessedDirtyUpdate die idx) := fun _ => trivial
theorem translationFault (thr : Nat) : Statement (.translationFault thr) := fun _ => trivial
theorem signatureFault (thr : Nat) : Statement (.signatureFault thr) := fun _ => trivial
theorem memoryOperandFault (thr : Nat) : Statement (.memoryOperandFault thr) := fun _ => trivial
theorem fullEmptyMisuse (thr : Nat) : Statement (.fullEmptyMisuse thr) := fun _ => trivial
theorem dataError (thr : Nat) : Statement (.dataError thr) := fun _ => trivial
theorem matrixFault (thr : Nat) : Statement (.matrixFault thr) := fun _ => trivial
theorem portFault (thr : Nat) : Statement (.portFault thr) := fun _ => trivial
theorem lookupFault (thr : Nat) : Statement (.lookupFault thr) := fun _ => trivial
theorem streamFault (thr : Nat) : Statement (.streamFault thr) := fun _ => trivial
theorem threadStateFault (thr : Nat) : Statement (.threadStateFault thr) := fun _ => trivial
theorem clusterMapFault (thr : Nat) : Statement (.clusterMapFault thr) := fun _ => trivial
theorem trapInstruction (thr : Nat) : Statement (.trapInstruction thr) := fun _ => trivial
theorem privilegedInstruction (thr : Nat) : Statement (.privilegedInstruction thr) := fun _ => trivial
theorem leashTrap (thr : Nat) : Statement (.leashTrap thr) := fun _ => trivial
theorem ownLoadMiss (n : Nat) : Statement (.ownLoadMiss n) := fun _ => trivial
theorem ownershipRequest (n : Nat) : Statement (.ownershipRequest n) := fun _ => trivial
theorem wtSiLoadMiss (n : Nat) : Statement (.wtSiLoadMiss n) := fun _ => trivial
theorem ucLoad (n : Nat) : Statement (.ucLoad n) := fun _ => trivial
theorem wtUcStore (n : Nat) : Statement (.wtUcStore n) := fun _ => trivial
theorem siWriteBack (n : Nat) : Statement (.siWriteBack n) := fun _ => trivial
theorem atomicIssue (thr seq slot : Nat) : Statement (.atomicIssue thr seq slot) := fun _ => trivial
theorem atomicAtHome (n : Nat) : Statement (.atomicAtHome n) := fun _ => trivial
theorem reservationBreak (granule : Nat) : Statement (.reservationBreak granule) := fun _ => trivial
theorem recallReach (n : Nat) : Statement (.recallReach n) := fun _ => trivial
theorem recallAck (n : Nat) : Statement (.recallAck n) := fun _ => trivial
theorem memoryFill (node line : Nat) : Statement (.memoryFill node line) := fun _ => trivial
theorem loadReply (n victim : Nat) : Statement (.loadReply n victim) := fun _ => trivial
theorem storeAck (n : Nat) : Statement (.storeAck n) := fun _ => trivial
theorem signaturePurge (unit : Nat) : Statement (.signaturePurge unit) := fun _ => trivial
theorem purgeClear : Statement (.purgeClear ) := fun _ => trivial
theorem deviceAccess (thr seq slot : Nat) : Statement (.deviceAccess thr seq slot) := fun _ => trivial
theorem vaultAccess (n : Nat) : Statement (.vaultAccess n) := fun _ => trivial
theorem vaultRetry (n : Nat) : Statement (.vaultRetry n) := fun _ => trivial
theorem engineOwnership (n : Nat) : Statement (.engineOwnership n) := fun _ => trivial
theorem engineWriteLands (n : Nat) : Statement (.engineWriteLands n) := fun _ => trivial
theorem copyStart (clu : Nat) : Statement (.copyStart clu) := fun _ => trivial
theorem cpyPortionToken (clu cmd : Nat) : Statement (.cpyPortionToken clu cmd) := fun _ => trivial
theorem copySourceRead (clu cmd : Nat) : Statement (.copySourceRead clu cmd) := fun _ => trivial
theorem copyCompletion (clu cmd : Nat) : Statement (.copyCompletion clu cmd) := fun _ => trivial
theorem streamOpen (clu : Nat) : Statement (.streamOpen clu) := fun _ => trivial
theorem tileRead (clu cmd : Nat) : Statement (.tileRead clu cmd) := fun _ => trivial
theorem tileStart (clu cmd branch : Nat) : Statement (.tileStart clu cmd branch) := fun _ => trivial
theorem startNotice (n : Nat) : Statement (.startNotice n) := fun _ => trivial
theorem tileComplete (clu cmd branch : Nat) : Statement (.tileComplete clu cmd branch) := fun _ => trivial
theorem freedSlotNotice (n : Nat) : Statement (.freedSlotNotice n) := fun _ => trivial
theorem closeNotice (n : Nat) : Statement (.closeNotice n) := fun _ => trivial
theorem matrixJobStart (clu pipe : Nat) : Statement (.matrixJobStart clu pipe) := fun _ => trivial
theorem matrixJobComplete (clu pipe : Nat) : Statement (.matrixJobComplete clu pipe) := fun _ => trivial
theorem movePerform (clu : Nat) : Statement (.movePerform clu) := fun _ => trivial
theorem slotImageRestore (clu ctx name : Nat) : Statement (.slotImageRestore clu ctx name) := fun _ => trivial
theorem fabricCommandStart (clu unit : Nat) : Statement (.fabricCommandStart clu unit) := fun _ => trivial
theorem layer (clu : Nat) : Statement (.layer clu) := fun _ => trivial
theorem fabricCommandComplete (clu unit : Nat) : Statement (.fabricCommandComplete clu unit) := fun _ => trivial
theorem bucketRefill (island : Nat) : Statement (.bucketRefill island) := fun _ => trivial
theorem grantRequest (n : Nat) : Statement (.grantRequest n) := fun _ => trivial
theorem grantStatus (n : Nat) : Statement (.grantStatus n) := fun _ => trivial
theorem messageDelivery (n : Nat) : Statement (.messageDelivery n) := fun _ => trivial
theorem firing (clu : Nat) : Statement (.firing clu) := fun _ => trivial
theorem handlerFetchStart (thr : Nat) : Statement (.handlerFetchStart thr) := fun _ => trivial
theorem spawnRequest (n : Nat) : Statement (.spawnRequest n) := fun _ => trivial
theorem spawnQueueGrant (clu : Nat) : Statement (.spawnQueueGrant clu) := fun _ => trivial
theorem threadCreation (clu idx : Nat) : Statement (.threadCreation clu idx) := fun _ => trivial
theorem gridReturn (thr : Nat) : Statement (.gridReturn thr) := fun _ => trivial
theorem rejoinResolve (thr : Nat) : Statement (.rejoinResolve thr) := fun _ => trivial
theorem hostHdmRead (agent pa len : Nat) : Statement (.hostHdmRead agent pa len) := fun _ => trivial
theorem hostWrite (agent pa : Nat) (x : LinkData) : Statement (.hostWrite agent pa x) := fun _ => trivial
theorem portWindowPost (agent addr : Nat) (bytes : List Byte) : Statement (.portWindowPost agent addr bytes) := fun _ => trivial
theorem peerAccess (pkg kind pa cls scope len : Nat) (x : LinkData) (sig : Option (BitVec 1024 × Nat × Bool)) :
    Statement (.peerAccess pkg kind pa cls scope len x sig) := fun _ => trivial
theorem birsp (n : Nat) (x : LinkData) : Statement (.birsp n x) := fun _ => trivial
theorem biconflict (n : Nat) (x : HostAnswer) : Statement (.biconflict n x) := fun _ => trivial
theorem peerLinkDown (lost : Word) : Statement (.peerLinkDown lost) := fun _ => trivial
theorem hostLinkDown (port : Nat) : Statement (.hostLinkDown port) := fun _ => trivial
theorem powerUp : Statement (.powerUp ) := fun _ => trivial
theorem fundamentalReset : Statement (.fundamentalReset ) := fun _ => trivial
theorem acq (port : Nat) : Statement (.acq port) := fun _ => trivial
theorem rel (port : Nat) : Statement (.rel port) := fun _ => trivial
theorem start (port : Nat) (len : BitVec 25) : Statement (.start port len) := fun _ => trivial
theorem go (port : Nat) : Statement (.go port) := fun _ => trivial
theorem reset (port : Nat) : Statement (.reset port) := fun _ => trivial
theorem loadWindowWrite (port off : Nat) (bytes : List Byte) : Statement (.loadWindowWrite port off bytes) := fun _ => trivial
theorem verificationComplete : Statement (.verificationComplete ) := fun _ => trivial
theorem firmwareInitialisation (ok : Bool) (kennel : Nat) : Statement (.firmwareInitialisation ok kennel) := fun _ => trivial
theorem spdmRequest (port : Nat) (request : List Byte) : Statement (.spdmRequest port request) := fun _ => trivial
theorem ctxCreate (port : Nat) (allot : List (Nat × Nat × Nat)) : Statement (.ctxCreate port allot) := fun _ => trivial
theorem ctxKill (port : Nat) : Statement (.ctxKill port) := fun _ => trivial
theorem ctxPreempt (port : Nat) : Statement (.ctxPreempt port) := fun _ => trivial
theorem ctxResume (port : Nat) : Statement (.ctxResume port) := fun _ => trivial
theorem ctxMap (port : Nat) : Statement (.ctxMap port) := fun _ => trivial
theorem killQuery (port : Nat) : Statement (.killQuery port) := fun _ => trivial
theorem podSet (port : Nat) : Statement (.podSet port) := fun _ => trivial
theorem powerSet (port : Nat) : Statement (.powerSet port) := fun _ => trivial
theorem errClear (port : Nat) : Statement (.errClear port) := fun _ => trivial
theorem thermalReduction (island : Nat) : Statement (.thermalReduction island) := fun _ => trivial
theorem registerWrite (port : Nat) (off value : Word) : Statement (.registerWrite port off value) := fun _ => trivial
theorem spawnAnswer (n : Nat) : Statement (.spawnAnswer n) := fun _ => trivial
theorem slotSaveComplete (clu : Nat) : Statement (.slotSaveComplete clu) := fun _ => trivial

end Sys2Proof.Laws.ENC
end

