-- ==== Sys2Proof/Laws/State.lean ====
section
/-! SUPPORT. What each update of the state leaves as it was, one lemma for each field it does not write, and what it writes. -/

namespace Sys2Proof.Machine

set_option Elab.async false

/-! ### modClu -/

@[simp] theorem State.modClu_agenda (s : State) (c : Nat) (f : Clu → Clu) : (s.modClu c f).agenda = s.agenda := rfl
@[simp] theorem State.modClu_cur (s : State) (c : Nat) (f : Clu → Clu) : (s.modClu c f).cur = s.cur := rfl
@[simp] theorem State.modClu_fresh (s : State) (c : Nat) (f : Clu → Clu) : (s.modClu c f).fresh = s.fresh := rfl
@[simp] theorem State.modClu_cyc (s : State) (c : Nat) (f : Clu → Clu) : (s.modClu c f).cyc = s.cyc := rfl
@[simp] theorem State.modClu_gcyc (s : State) (c : Nat) (f : Clu → Clu) : (s.modClu c f).gcyc = s.gcyc := rfl
@[simp] theorem State.modClu_mod (s : State) (c : Nat) (f : Clu → Clu) : (s.modClu c f).mod = s.mod := rfl
@[simp] theorem State.modClu_ctxs (s : State) (c : Nat) (f : Clu → Clu) : (s.modClu c f).ctxs = s.ctxs := rfl
@[simp] theorem State.modClu_mem (s : State) (c : Nat) (f : Clu → Clu) : (s.modClu c f).mem = s.mem := rfl
@[simp] theorem State.modClu_poison (s : State) (c : Nat) (f : Clu → Clu) : (s.modClu c f).poison = s.poison := rfl
@[simp] theorem State.modClu_full (s : State) (c : Nat) (f : Clu → Clu) : (s.modClu c f).full = s.full := rfl
@[simp] theorem State.modClu_holds (s : State) (c : Nat) (f : Clu → Clu) : (s.modClu c f).holds = s.holds := rfl
@[simp] theorem State.modClu_resvs (s : State) (c : Nat) (f : Clu → Clu) : (s.modClu c f).resvs = s.resvs := rfl
@[simp] theorem State.modClu_opmem (s : State) (c : Nat) (f : Clu → Clu) : (s.modClu c f).opmem = s.opmem := rfl
@[simp] theorem State.modClu_opoison (s : State) (c : Nat) (f : Clu → Clu) : (s.modClu c f).opoison = s.opoison := rfl
@[simp] theorem State.modClu_l2 (s : State) (c : Nat) (f : Clu → Clu) : (s.modClu c f).l2 = s.l2 := rfl
@[simp] theorem State.modClu_dirs (s : State) (c : Nat) (f : Clu → Clu) : (s.modClu c f).dirs = s.dirs := rfl
@[simp] theorem State.modClu_queues (s : State) (c : Nat) (f : Clu → Clu) : (s.modClu c f).queues = s.queues := rfl
@[simp] theorem State.modClu_sigbufs (s : State) (c : Nat) (f : Clu → Clu) : (s.modClu c f).sigbufs = s.sigbufs := rfl
@[simp] theorem State.modClu_dies (s : State) (c : Nat) (f : Clu → Clu) : (s.modClu c f).dies = s.dies := rfl
@[simp] theorem State.modClu_grids (s : State) (c : Nat) (f : Clu → Clu) : (s.modClu c f).grids = s.grids := rfl
@[simp] theorem State.modClu_thrs (s : State) (c : Nat) (f : Clu → Clu) : (s.modClu c f).thrs = s.thrs := rfl
@[simp] theorem State.modClu_net (s : State) (c : Nat) (f : Clu → Clu) : (s.modClu c f).net = s.net := rfl
@[simp] theorem State.modClu_bars (s : State) (c : Nat) (f : Clu → Clu) : (s.modClu c f).bars = s.bars := rfl

/-! ### modGrid -/

@[simp] theorem State.modGrid_agenda (s : State) (g : Nat) (f : Grid → Grid) : (s.modGrid g f).agenda = s.agenda := rfl
@[simp] theorem State.modGrid_cur (s : State) (g : Nat) (f : Grid → Grid) : (s.modGrid g f).cur = s.cur := rfl
@[simp] theorem State.modGrid_fresh (s : State) (g : Nat) (f : Grid → Grid) : (s.modGrid g f).fresh = s.fresh := rfl
@[simp] theorem State.modGrid_cyc (s : State) (g : Nat) (f : Grid → Grid) : (s.modGrid g f).cyc = s.cyc := rfl
@[simp] theorem State.modGrid_gcyc (s : State) (g : Nat) (f : Grid → Grid) : (s.modGrid g f).gcyc = s.gcyc := rfl
@[simp] theorem State.modGrid_mod (s : State) (g : Nat) (f : Grid → Grid) : (s.modGrid g f).mod = s.mod := rfl
@[simp] theorem State.modGrid_ctxs (s : State) (g : Nat) (f : Grid → Grid) : (s.modGrid g f).ctxs = s.ctxs := rfl
@[simp] theorem State.modGrid_mem (s : State) (g : Nat) (f : Grid → Grid) : (s.modGrid g f).mem = s.mem := rfl
@[simp] theorem State.modGrid_poison (s : State) (g : Nat) (f : Grid → Grid) : (s.modGrid g f).poison = s.poison := rfl
@[simp] theorem State.modGrid_full (s : State) (g : Nat) (f : Grid → Grid) : (s.modGrid g f).full = s.full := rfl
@[simp] theorem State.modGrid_holds (s : State) (g : Nat) (f : Grid → Grid) : (s.modGrid g f).holds = s.holds := rfl
@[simp] theorem State.modGrid_resvs (s : State) (g : Nat) (f : Grid → Grid) : (s.modGrid g f).resvs = s.resvs := rfl
@[simp] theorem State.modGrid_opmem (s : State) (g : Nat) (f : Grid → Grid) : (s.modGrid g f).opmem = s.opmem := rfl
@[simp] theorem State.modGrid_opoison (s : State) (g : Nat) (f : Grid → Grid) : (s.modGrid g f).opoison = s.opoison := rfl
@[simp] theorem State.modGrid_l2 (s : State) (g : Nat) (f : Grid → Grid) : (s.modGrid g f).l2 = s.l2 := rfl
@[simp] theorem State.modGrid_dirs (s : State) (g : Nat) (f : Grid → Grid) : (s.modGrid g f).dirs = s.dirs := rfl
@[simp] theorem State.modGrid_queues (s : State) (g : Nat) (f : Grid → Grid) : (s.modGrid g f).queues = s.queues := rfl
@[simp] theorem State.modGrid_sigbufs (s : State) (g : Nat) (f : Grid → Grid) : (s.modGrid g f).sigbufs = s.sigbufs := rfl
@[simp] theorem State.modGrid_dies (s : State) (g : Nat) (f : Grid → Grid) : (s.modGrid g f).dies = s.dies := rfl
@[simp] theorem State.modGrid_clus (s : State) (g : Nat) (f : Grid → Grid) : (s.modGrid g f).clus = s.clus := rfl
@[simp] theorem State.modGrid_thrs (s : State) (g : Nat) (f : Grid → Grid) : (s.modGrid g f).thrs = s.thrs := rfl
@[simp] theorem State.modGrid_net (s : State) (g : Nat) (f : Grid → Grid) : (s.modGrid g f).net = s.net := rfl
@[simp] theorem State.modGrid_bars (s : State) (g : Nat) (f : Grid → Grid) : (s.modGrid g f).bars = s.bars := rfl

/-! ### modDie -/

@[simp] theorem State.modDie_agenda (s : State) (d : Nat) (f : Die → Die) : (s.modDie d f).agenda = s.agenda := rfl
@[simp] theorem State.modDie_cur (s : State) (d : Nat) (f : Die → Die) : (s.modDie d f).cur = s.cur := rfl
@[simp] theorem State.modDie_fresh (s : State) (d : Nat) (f : Die → Die) : (s.modDie d f).fresh = s.fresh := rfl
@[simp] theorem State.modDie_cyc (s : State) (d : Nat) (f : Die → Die) : (s.modDie d f).cyc = s.cyc := rfl
@[simp] theorem State.modDie_gcyc (s : State) (d : Nat) (f : Die → Die) : (s.modDie d f).gcyc = s.gcyc := rfl
@[simp] theorem State.modDie_mod (s : State) (d : Nat) (f : Die → Die) : (s.modDie d f).mod = s.mod := rfl
@[simp] theorem State.modDie_ctxs (s : State) (d : Nat) (f : Die → Die) : (s.modDie d f).ctxs = s.ctxs := rfl
@[simp] theorem State.modDie_mem (s : State) (d : Nat) (f : Die → Die) : (s.modDie d f).mem = s.mem := rfl
@[simp] theorem State.modDie_poison (s : State) (d : Nat) (f : Die → Die) : (s.modDie d f).poison = s.poison := rfl
@[simp] theorem State.modDie_full (s : State) (d : Nat) (f : Die → Die) : (s.modDie d f).full = s.full := rfl
@[simp] theorem State.modDie_holds (s : State) (d : Nat) (f : Die → Die) : (s.modDie d f).holds = s.holds := rfl
@[simp] theorem State.modDie_resvs (s : State) (d : Nat) (f : Die → Die) : (s.modDie d f).resvs = s.resvs := rfl
@[simp] theorem State.modDie_opmem (s : State) (d : Nat) (f : Die → Die) : (s.modDie d f).opmem = s.opmem := rfl
@[simp] theorem State.modDie_opoison (s : State) (d : Nat) (f : Die → Die) : (s.modDie d f).opoison = s.opoison := rfl
@[simp] theorem State.modDie_l2 (s : State) (d : Nat) (f : Die → Die) : (s.modDie d f).l2 = s.l2 := rfl
@[simp] theorem State.modDie_dirs (s : State) (d : Nat) (f : Die → Die) : (s.modDie d f).dirs = s.dirs := rfl
@[simp] theorem State.modDie_queues (s : State) (d : Nat) (f : Die → Die) : (s.modDie d f).queues = s.queues := rfl
@[simp] theorem State.modDie_sigbufs (s : State) (d : Nat) (f : Die → Die) : (s.modDie d f).sigbufs = s.sigbufs := rfl
@[simp] theorem State.modDie_clus (s : State) (d : Nat) (f : Die → Die) : (s.modDie d f).clus = s.clus := rfl
@[simp] theorem State.modDie_grids (s : State) (d : Nat) (f : Die → Die) : (s.modDie d f).grids = s.grids := rfl
@[simp] theorem State.modDie_thrs (s : State) (d : Nat) (f : Die → Die) : (s.modDie d f).thrs = s.thrs := rfl
@[simp] theorem State.modDie_net (s : State) (d : Nat) (f : Die → Die) : (s.modDie d f).net = s.net := rfl
@[simp] theorem State.modDie_bars (s : State) (d : Nat) (f : Die → Die) : (s.modDie d f).bars = s.bars := rfl

/-! ### modCtx -/

@[simp] theorem State.modCtx_agenda (s : State) (c : Nat) (f : Ctx → Ctx) : (s.modCtx c f).agenda = s.agenda := rfl
@[simp] theorem State.modCtx_cur (s : State) (c : Nat) (f : Ctx → Ctx) : (s.modCtx c f).cur = s.cur := rfl
@[simp] theorem State.modCtx_fresh (s : State) (c : Nat) (f : Ctx → Ctx) : (s.modCtx c f).fresh = s.fresh := rfl
@[simp] theorem State.modCtx_cyc (s : State) (c : Nat) (f : Ctx → Ctx) : (s.modCtx c f).cyc = s.cyc := rfl
@[simp] theorem State.modCtx_gcyc (s : State) (c : Nat) (f : Ctx → Ctx) : (s.modCtx c f).gcyc = s.gcyc := rfl
@[simp] theorem State.modCtx_mod (s : State) (c : Nat) (f : Ctx → Ctx) : (s.modCtx c f).mod = s.mod := rfl
@[simp] theorem State.modCtx_mem (s : State) (c : Nat) (f : Ctx → Ctx) : (s.modCtx c f).mem = s.mem := rfl
@[simp] theorem State.modCtx_poison (s : State) (c : Nat) (f : Ctx → Ctx) : (s.modCtx c f).poison = s.poison := rfl
@[simp] theorem State.modCtx_full (s : State) (c : Nat) (f : Ctx → Ctx) : (s.modCtx c f).full = s.full := rfl
@[simp] theorem State.modCtx_holds (s : State) (c : Nat) (f : Ctx → Ctx) : (s.modCtx c f).holds = s.holds := rfl
@[simp] theorem State.modCtx_resvs (s : State) (c : Nat) (f : Ctx → Ctx) : (s.modCtx c f).resvs = s.resvs := rfl
@[simp] theorem State.modCtx_opmem (s : State) (c : Nat) (f : Ctx → Ctx) : (s.modCtx c f).opmem = s.opmem := rfl
@[simp] theorem State.modCtx_opoison (s : State) (c : Nat) (f : Ctx → Ctx) : (s.modCtx c f).opoison = s.opoison := rfl
@[simp] theorem State.modCtx_l2 (s : State) (c : Nat) (f : Ctx → Ctx) : (s.modCtx c f).l2 = s.l2 := rfl
@[simp] theorem State.modCtx_dirs (s : State) (c : Nat) (f : Ctx → Ctx) : (s.modCtx c f).dirs = s.dirs := rfl
@[simp] theorem State.modCtx_queues (s : State) (c : Nat) (f : Ctx → Ctx) : (s.modCtx c f).queues = s.queues := rfl
@[simp] theorem State.modCtx_sigbufs (s : State) (c : Nat) (f : Ctx → Ctx) : (s.modCtx c f).sigbufs = s.sigbufs := rfl
@[simp] theorem State.modCtx_dies (s : State) (c : Nat) (f : Ctx → Ctx) : (s.modCtx c f).dies = s.dies := rfl
@[simp] theorem State.modCtx_clus (s : State) (c : Nat) (f : Ctx → Ctx) : (s.modCtx c f).clus = s.clus := rfl
@[simp] theorem State.modCtx_grids (s : State) (c : Nat) (f : Ctx → Ctx) : (s.modCtx c f).grids = s.grids := rfl
@[simp] theorem State.modCtx_thrs (s : State) (c : Nat) (f : Ctx → Ctx) : (s.modCtx c f).thrs = s.thrs := rfl
@[simp] theorem State.modCtx_net (s : State) (c : Nat) (f : Ctx → Ctx) : (s.modCtx c f).net = s.net := rfl
@[simp] theorem State.modCtx_bars (s : State) (c : Nat) (f : Ctx → Ctx) : (s.modCtx c f).bars = s.bars := rfl

/-! ### modMod -/

@[simp] theorem State.modMod_agenda (s : State) (f : Module → Module) : (s.modMod f).agenda = s.agenda := rfl
@[simp] theorem State.modMod_cur (s : State) (f : Module → Module) : (s.modMod f).cur = s.cur := rfl
@[simp] theorem State.modMod_fresh (s : State) (f : Module → Module) : (s.modMod f).fresh = s.fresh := rfl
@[simp] theorem State.modMod_cyc (s : State) (f : Module → Module) : (s.modMod f).cyc = s.cyc := rfl
@[simp] theorem State.modMod_gcyc (s : State) (f : Module → Module) : (s.modMod f).gcyc = s.gcyc := rfl
@[simp] theorem State.modMod_ctxs (s : State) (f : Module → Module) : (s.modMod f).ctxs = s.ctxs := rfl
@[simp] theorem State.modMod_mem (s : State) (f : Module → Module) : (s.modMod f).mem = s.mem := rfl
@[simp] theorem State.modMod_poison (s : State) (f : Module → Module) : (s.modMod f).poison = s.poison := rfl
@[simp] theorem State.modMod_full (s : State) (f : Module → Module) : (s.modMod f).full = s.full := rfl
@[simp] theorem State.modMod_holds (s : State) (f : Module → Module) : (s.modMod f).holds = s.holds := rfl
@[simp] theorem State.modMod_resvs (s : State) (f : Module → Module) : (s.modMod f).resvs = s.resvs := rfl
@[simp] theorem State.modMod_opmem (s : State) (f : Module → Module) : (s.modMod f).opmem = s.opmem := rfl
@[simp] theorem State.modMod_opoison (s : State) (f : Module → Module) : (s.modMod f).opoison = s.opoison := rfl
@[simp] theorem State.modMod_l2 (s : State) (f : Module → Module) : (s.modMod f).l2 = s.l2 := rfl
@[simp] theorem State.modMod_dirs (s : State) (f : Module → Module) : (s.modMod f).dirs = s.dirs := rfl
@[simp] theorem State.modMod_queues (s : State) (f : Module → Module) : (s.modMod f).queues = s.queues := rfl
@[simp] theorem State.modMod_sigbufs (s : State) (f : Module → Module) : (s.modMod f).sigbufs = s.sigbufs := rfl
@[simp] theorem State.modMod_dies (s : State) (f : Module → Module) : (s.modMod f).dies = s.dies := rfl
@[simp] theorem State.modMod_clus (s : State) (f : Module → Module) : (s.modMod f).clus = s.clus := rfl
@[simp] theorem State.modMod_grids (s : State) (f : Module → Module) : (s.modMod f).grids = s.grids := rfl
@[simp] theorem State.modMod_thrs (s : State) (f : Module → Module) : (s.modMod f).thrs = s.thrs := rfl
@[simp] theorem State.modMod_net (s : State) (f : Module → Module) : (s.modMod f).net = s.net := rfl
@[simp] theorem State.modMod_bars (s : State) (f : Module → Module) : (s.modMod f).bars = s.bars := rfl

/-! ### setThr -/

@[simp] theorem State.setThr_agenda (s : State) (k : Nat) (t : Thread) : (s.setThr k t).agenda = s.agenda := rfl
@[simp] theorem State.setThr_cur (s : State) (k : Nat) (t : Thread) : (s.setThr k t).cur = s.cur := rfl
@[simp] theorem State.setThr_fresh (s : State) (k : Nat) (t : Thread) : (s.setThr k t).fresh = s.fresh := rfl
@[simp] theorem State.setThr_cyc (s : State) (k : Nat) (t : Thread) : (s.setThr k t).cyc = s.cyc := rfl
@[simp] theorem State.setThr_gcyc (s : State) (k : Nat) (t : Thread) : (s.setThr k t).gcyc = s.gcyc := rfl
@[simp] theorem State.setThr_mod (s : State) (k : Nat) (t : Thread) : (s.setThr k t).mod = s.mod := rfl
@[simp] theorem State.setThr_ctxs (s : State) (k : Nat) (t : Thread) : (s.setThr k t).ctxs = s.ctxs := rfl
@[simp] theorem State.setThr_mem (s : State) (k : Nat) (t : Thread) : (s.setThr k t).mem = s.mem := rfl
@[simp] theorem State.setThr_poison (s : State) (k : Nat) (t : Thread) : (s.setThr k t).poison = s.poison := rfl
@[simp] theorem State.setThr_full (s : State) (k : Nat) (t : Thread) : (s.setThr k t).full = s.full := rfl
@[simp] theorem State.setThr_holds (s : State) (k : Nat) (t : Thread) : (s.setThr k t).holds = s.holds := rfl
@[simp] theorem State.setThr_resvs (s : State) (k : Nat) (t : Thread) : (s.setThr k t).resvs = s.resvs := rfl
@[simp] theorem State.setThr_opmem (s : State) (k : Nat) (t : Thread) : (s.setThr k t).opmem = s.opmem := rfl
@[simp] theorem State.setThr_opoison (s : State) (k : Nat) (t : Thread) : (s.setThr k t).opoison = s.opoison := rfl
@[simp] theorem State.setThr_l2 (s : State) (k : Nat) (t : Thread) : (s.setThr k t).l2 = s.l2 := rfl
@[simp] theorem State.setThr_dirs (s : State) (k : Nat) (t : Thread) : (s.setThr k t).dirs = s.dirs := rfl
@[simp] theorem State.setThr_queues (s : State) (k : Nat) (t : Thread) : (s.setThr k t).queues = s.queues := rfl
@[simp] theorem State.setThr_sigbufs (s : State) (k : Nat) (t : Thread) : (s.setThr k t).sigbufs = s.sigbufs := rfl
@[simp] theorem State.setThr_dies (s : State) (k : Nat) (t : Thread) : (s.setThr k t).dies = s.dies := rfl
@[simp] theorem State.setThr_clus (s : State) (k : Nat) (t : Thread) : (s.setThr k t).clus = s.clus := rfl
@[simp] theorem State.setThr_grids (s : State) (k : Nat) (t : Thread) : (s.setThr k t).grids = s.grids := rfl
@[simp] theorem State.setThr_net (s : State) (k : Nat) (t : Thread) : (s.setThr k t).net = s.net := rfl
@[simp] theorem State.setThr_bars (s : State) (k : Nat) (t : Thread) : (s.setThr k t).bars = s.bars := rfl

/-! ### setMsg -/

@[simp] theorem State.setMsg_agenda (s : State) (n : Nat) (m : Msg) : (s.setMsg n m).agenda = s.agenda := rfl
@[simp] theorem State.setMsg_cur (s : State) (n : Nat) (m : Msg) : (s.setMsg n m).cur = s.cur := rfl
@[simp] theorem State.setMsg_fresh (s : State) (n : Nat) (m : Msg) : (s.setMsg n m).fresh = s.fresh := rfl
@[simp] theorem State.setMsg_cyc (s : State) (n : Nat) (m : Msg) : (s.setMsg n m).cyc = s.cyc := rfl
@[simp] theorem State.setMsg_gcyc (s : State) (n : Nat) (m : Msg) : (s.setMsg n m).gcyc = s.gcyc := rfl
@[simp] theorem State.setMsg_mod (s : State) (n : Nat) (m : Msg) : (s.setMsg n m).mod = s.mod := rfl
@[simp] theorem State.setMsg_ctxs (s : State) (n : Nat) (m : Msg) : (s.setMsg n m).ctxs = s.ctxs := rfl
@[simp] theorem State.setMsg_mem (s : State) (n : Nat) (m : Msg) : (s.setMsg n m).mem = s.mem := rfl
@[simp] theorem State.setMsg_poison (s : State) (n : Nat) (m : Msg) : (s.setMsg n m).poison = s.poison := rfl
@[simp] theorem State.setMsg_full (s : State) (n : Nat) (m : Msg) : (s.setMsg n m).full = s.full := rfl
@[simp] theorem State.setMsg_holds (s : State) (n : Nat) (m : Msg) : (s.setMsg n m).holds = s.holds := rfl
@[simp] theorem State.setMsg_resvs (s : State) (n : Nat) (m : Msg) : (s.setMsg n m).resvs = s.resvs := rfl
@[simp] theorem State.setMsg_opmem (s : State) (n : Nat) (m : Msg) : (s.setMsg n m).opmem = s.opmem := rfl
@[simp] theorem State.setMsg_opoison (s : State) (n : Nat) (m : Msg) : (s.setMsg n m).opoison = s.opoison := rfl
@[simp] theorem State.setMsg_l2 (s : State) (n : Nat) (m : Msg) : (s.setMsg n m).l2 = s.l2 := rfl
@[simp] theorem State.setMsg_dirs (s : State) (n : Nat) (m : Msg) : (s.setMsg n m).dirs = s.dirs := rfl
@[simp] theorem State.setMsg_queues (s : State) (n : Nat) (m : Msg) : (s.setMsg n m).queues = s.queues := rfl
@[simp] theorem State.setMsg_sigbufs (s : State) (n : Nat) (m : Msg) : (s.setMsg n m).sigbufs = s.sigbufs := rfl
@[simp] theorem State.setMsg_dies (s : State) (n : Nat) (m : Msg) : (s.setMsg n m).dies = s.dies := rfl
@[simp] theorem State.setMsg_clus (s : State) (n : Nat) (m : Msg) : (s.setMsg n m).clus = s.clus := rfl
@[simp] theorem State.setMsg_grids (s : State) (n : Nat) (m : Msg) : (s.setMsg n m).grids = s.grids := rfl
@[simp] theorem State.setMsg_thrs (s : State) (n : Nat) (m : Msg) : (s.setMsg n m).thrs = s.thrs := rfl
@[simp] theorem State.setMsg_bars (s : State) (n : Nat) (m : Msg) : (s.setMsg n m).bars = s.bars := rfl

/-! ### delMsg -/

@[simp] theorem State.delMsg_agenda (s : State) (n : Nat) : (s.delMsg n).agenda = s.agenda := rfl
@[simp] theorem State.delMsg_cur (s : State) (n : Nat) : (s.delMsg n).cur = s.cur := rfl
@[simp] theorem State.delMsg_fresh (s : State) (n : Nat) : (s.delMsg n).fresh = s.fresh := rfl
@[simp] theorem State.delMsg_cyc (s : State) (n : Nat) : (s.delMsg n).cyc = s.cyc := rfl
@[simp] theorem State.delMsg_gcyc (s : State) (n : Nat) : (s.delMsg n).gcyc = s.gcyc := rfl
@[simp] theorem State.delMsg_mod (s : State) (n : Nat) : (s.delMsg n).mod = s.mod := rfl
@[simp] theorem State.delMsg_ctxs (s : State) (n : Nat) : (s.delMsg n).ctxs = s.ctxs := rfl
@[simp] theorem State.delMsg_mem (s : State) (n : Nat) : (s.delMsg n).mem = s.mem := rfl
@[simp] theorem State.delMsg_poison (s : State) (n : Nat) : (s.delMsg n).poison = s.poison := rfl
@[simp] theorem State.delMsg_full (s : State) (n : Nat) : (s.delMsg n).full = s.full := rfl
@[simp] theorem State.delMsg_holds (s : State) (n : Nat) : (s.delMsg n).holds = s.holds := rfl
@[simp] theorem State.delMsg_resvs (s : State) (n : Nat) : (s.delMsg n).resvs = s.resvs := rfl
@[simp] theorem State.delMsg_opmem (s : State) (n : Nat) : (s.delMsg n).opmem = s.opmem := rfl
@[simp] theorem State.delMsg_opoison (s : State) (n : Nat) : (s.delMsg n).opoison = s.opoison := rfl
@[simp] theorem State.delMsg_l2 (s : State) (n : Nat) : (s.delMsg n).l2 = s.l2 := rfl
@[simp] theorem State.delMsg_dirs (s : State) (n : Nat) : (s.delMsg n).dirs = s.dirs := rfl
@[simp] theorem State.delMsg_queues (s : State) (n : Nat) : (s.delMsg n).queues = s.queues := rfl
@[simp] theorem State.delMsg_sigbufs (s : State) (n : Nat) : (s.delMsg n).sigbufs = s.sigbufs := rfl
@[simp] theorem State.delMsg_dies (s : State) (n : Nat) : (s.delMsg n).dies = s.dies := rfl
@[simp] theorem State.delMsg_clus (s : State) (n : Nat) : (s.delMsg n).clus = s.clus := rfl
@[simp] theorem State.delMsg_grids (s : State) (n : Nat) : (s.delMsg n).grids = s.grids := rfl
@[simp] theorem State.delMsg_thrs (s : State) (n : Nat) : (s.delMsg n).thrs = s.thrs := rfl
@[simp] theorem State.delMsg_bars (s : State) (n : Nat) : (s.delMsg n).bars = s.bars := rfl

/-! ### send -/

@[simp] theorem State.send_agenda (s : State) (m : Msg) : (s.send m).agenda = s.agenda := rfl
@[simp] theorem State.send_cur (s : State) (m : Msg) : (s.send m).cur = s.cur := rfl
@[simp] theorem State.send_cyc (s : State) (m : Msg) : (s.send m).cyc = s.cyc := rfl
@[simp] theorem State.send_gcyc (s : State) (m : Msg) : (s.send m).gcyc = s.gcyc := rfl
@[simp] theorem State.send_mod (s : State) (m : Msg) : (s.send m).mod = s.mod := rfl
@[simp] theorem State.send_ctxs (s : State) (m : Msg) : (s.send m).ctxs = s.ctxs := rfl
@[simp] theorem State.send_mem (s : State) (m : Msg) : (s.send m).mem = s.mem := rfl
@[simp] theorem State.send_poison (s : State) (m : Msg) : (s.send m).poison = s.poison := rfl
@[simp] theorem State.send_full (s : State) (m : Msg) : (s.send m).full = s.full := rfl
@[simp] theorem State.send_holds (s : State) (m : Msg) : (s.send m).holds = s.holds := rfl
@[simp] theorem State.send_resvs (s : State) (m : Msg) : (s.send m).resvs = s.resvs := rfl
@[simp] theorem State.send_opmem (s : State) (m : Msg) : (s.send m).opmem = s.opmem := rfl
@[simp] theorem State.send_opoison (s : State) (m : Msg) : (s.send m).opoison = s.opoison := rfl
@[simp] theorem State.send_l2 (s : State) (m : Msg) : (s.send m).l2 = s.l2 := rfl
@[simp] theorem State.send_dirs (s : State) (m : Msg) : (s.send m).dirs = s.dirs := rfl
@[simp] theorem State.send_queues (s : State) (m : Msg) : (s.send m).queues = s.queues := rfl
@[simp] theorem State.send_sigbufs (s : State) (m : Msg) : (s.send m).sigbufs = s.sigbufs := rfl
@[simp] theorem State.send_dies (s : State) (m : Msg) : (s.send m).dies = s.dies := rfl
@[simp] theorem State.send_clus (s : State) (m : Msg) : (s.send m).clus = s.clus := rfl
@[simp] theorem State.send_grids (s : State) (m : Msg) : (s.send m).grids = s.grids := rfl
@[simp] theorem State.send_thrs (s : State) (m : Msg) : (s.send m).thrs = s.thrs := rfl
@[simp] theorem State.send_bars (s : State) (m : Msg) : (s.send m).bars = s.bars := rfl

/-! ### modThr -/

@[simp] theorem State.modThr_agenda (s : State) (k : Nat) (f : Thread → Thread) : (s.modThr k f).agenda = s.agenda := by unfold State.modThr; split <;> rfl
@[simp] theorem State.modThr_cur (s : State) (k : Nat) (f : Thread → Thread) : (s.modThr k f).cur = s.cur := by unfold State.modThr; split <;> rfl
@[simp] theorem State.modThr_fresh (s : State) (k : Nat) (f : Thread → Thread) : (s.modThr k f).fresh = s.fresh := by unfold State.modThr; split <;> rfl
@[simp] theorem State.modThr_cyc (s : State) (k : Nat) (f : Thread → Thread) : (s.modThr k f).cyc = s.cyc := by unfold State.modThr; split <;> rfl
@[simp] theorem State.modThr_gcyc (s : State) (k : Nat) (f : Thread → Thread) : (s.modThr k f).gcyc = s.gcyc := by unfold State.modThr; split <;> rfl
@[simp] theorem State.modThr_mod (s : State) (k : Nat) (f : Thread → Thread) : (s.modThr k f).mod = s.mod := by unfold State.modThr; split <;> rfl
@[simp] theorem State.modThr_ctxs (s : State) (k : Nat) (f : Thread → Thread) : (s.modThr k f).ctxs = s.ctxs := by unfold State.modThr; split <;> rfl
@[simp] theorem State.modThr_mem (s : State) (k : Nat) (f : Thread → Thread) : (s.modThr k f).mem = s.mem := by unfold State.modThr; split <;> rfl
@[simp] theorem State.modThr_poison (s : State) (k : Nat) (f : Thread → Thread) : (s.modThr k f).poison = s.poison := by unfold State.modThr; split <;> rfl
@[simp] theorem State.modThr_full (s : State) (k : Nat) (f : Thread → Thread) : (s.modThr k f).full = s.full := by unfold State.modThr; split <;> rfl
@[simp] theorem State.modThr_holds (s : State) (k : Nat) (f : Thread → Thread) : (s.modThr k f).holds = s.holds := by unfold State.modThr; split <;> rfl
@[simp] theorem State.modThr_resvs (s : State) (k : Nat) (f : Thread → Thread) : (s.modThr k f).resvs = s.resvs := by unfold State.modThr; split <;> rfl
@[simp] theorem State.modThr_opmem (s : State) (k : Nat) (f : Thread → Thread) : (s.modThr k f).opmem = s.opmem := by unfold State.modThr; split <;> rfl
@[simp] theorem State.modThr_opoison (s : State) (k : Nat) (f : Thread → Thread) : (s.modThr k f).opoison = s.opoison := by unfold State.modThr; split <;> rfl
@[simp] theorem State.modThr_l2 (s : State) (k : Nat) (f : Thread → Thread) : (s.modThr k f).l2 = s.l2 := by unfold State.modThr; split <;> rfl
@[simp] theorem State.modThr_dirs (s : State) (k : Nat) (f : Thread → Thread) : (s.modThr k f).dirs = s.dirs := by unfold State.modThr; split <;> rfl
@[simp] theorem State.modThr_queues (s : State) (k : Nat) (f : Thread → Thread) : (s.modThr k f).queues = s.queues := by unfold State.modThr; split <;> rfl
@[simp] theorem State.modThr_sigbufs (s : State) (k : Nat) (f : Thread → Thread) : (s.modThr k f).sigbufs = s.sigbufs := by unfold State.modThr; split <;> rfl
@[simp] theorem State.modThr_dies (s : State) (k : Nat) (f : Thread → Thread) : (s.modThr k f).dies = s.dies := by unfold State.modThr; split <;> rfl
@[simp] theorem State.modThr_clus (s : State) (k : Nat) (f : Thread → Thread) : (s.modThr k f).clus = s.clus := by unfold State.modThr; split <;> rfl
@[simp] theorem State.modThr_grids (s : State) (k : Nat) (f : Thread → Thread) : (s.modThr k f).grids = s.grids := by unfold State.modThr; split <;> rfl
@[simp] theorem State.modThr_net (s : State) (k : Nat) (f : Thread → Thread) : (s.modThr k f).net = s.net := by unfold State.modThr; split <;> rfl
@[simp] theorem State.modThr_bars (s : State) (k : Nat) (f : Thread → Thread) : (s.modThr k f).bars = s.bars := by unfold State.modThr; split <;> rfl

/-! ### modFrame -/

@[simp] theorem State.modFrame_agenda (s : State) (k q : Nat) (f : Frame → Frame) : (s.modFrame k q f).agenda = s.agenda := State.modThr_agenda ..
@[simp] theorem State.modFrame_cur (s : State) (k q : Nat) (f : Frame → Frame) : (s.modFrame k q f).cur = s.cur := State.modThr_cur ..
@[simp] theorem State.modFrame_fresh (s : State) (k q : Nat) (f : Frame → Frame) : (s.modFrame k q f).fresh = s.fresh := State.modThr_fresh ..
@[simp] theorem State.modFrame_cyc (s : State) (k q : Nat) (f : Frame → Frame) : (s.modFrame k q f).cyc = s.cyc := State.modThr_cyc ..
@[simp] theorem State.modFrame_gcyc (s : State) (k q : Nat) (f : Frame → Frame) : (s.modFrame k q f).gcyc = s.gcyc := State.modThr_gcyc ..
@[simp] theorem State.modFrame_mod (s : State) (k q : Nat) (f : Frame → Frame) : (s.modFrame k q f).mod = s.mod := State.modThr_mod ..
@[simp] theorem State.modFrame_ctxs (s : State) (k q : Nat) (f : Frame → Frame) : (s.modFrame k q f).ctxs = s.ctxs := State.modThr_ctxs ..
@[simp] theorem State.modFrame_mem (s : State) (k q : Nat) (f : Frame → Frame) : (s.modFrame k q f).mem = s.mem := State.modThr_mem ..
@[simp] theorem State.modFrame_poison (s : State) (k q : Nat) (f : Frame → Frame) : (s.modFrame k q f).poison = s.poison := State.modThr_poison ..
@[simp] theorem State.modFrame_full (s : State) (k q : Nat) (f : Frame → Frame) : (s.modFrame k q f).full = s.full := State.modThr_full ..
@[simp] theorem State.modFrame_holds (s : State) (k q : Nat) (f : Frame → Frame) : (s.modFrame k q f).holds = s.holds := State.modThr_holds ..
@[simp] theorem State.modFrame_resvs (s : State) (k q : Nat) (f : Frame → Frame) : (s.modFrame k q f).resvs = s.resvs := State.modThr_resvs ..
@[simp] theorem State.modFrame_opmem (s : State) (k q : Nat) (f : Frame → Frame) : (s.modFrame k q f).opmem = s.opmem := State.modThr_opmem ..
@[simp] theorem State.modFrame_opoison (s : State) (k q : Nat) (f : Frame → Frame) : (s.modFrame k q f).opoison = s.opoison := State.modThr_opoison ..
@[simp] theorem State.modFrame_l2 (s : State) (k q : Nat) (f : Frame → Frame) : (s.modFrame k q f).l2 = s.l2 := State.modThr_l2 ..
@[simp] theorem State.modFrame_dirs (s : State) (k q : Nat) (f : Frame → Frame) : (s.modFrame k q f).dirs = s.dirs := State.modThr_dirs ..
@[simp] theorem State.modFrame_queues (s : State) (k q : Nat) (f : Frame → Frame) : (s.modFrame k q f).queues = s.queues := State.modThr_queues ..
@[simp] theorem State.modFrame_sigbufs (s : State) (k q : Nat) (f : Frame → Frame) : (s.modFrame k q f).sigbufs = s.sigbufs := State.modThr_sigbufs ..
@[simp] theorem State.modFrame_dies (s : State) (k q : Nat) (f : Frame → Frame) : (s.modFrame k q f).dies = s.dies := State.modThr_dies ..
@[simp] theorem State.modFrame_clus (s : State) (k q : Nat) (f : Frame → Frame) : (s.modFrame k q f).clus = s.clus := State.modThr_clus ..
@[simp] theorem State.modFrame_grids (s : State) (k q : Nat) (f : Frame → Frame) : (s.modFrame k q f).grids = s.grids := State.modThr_grids ..
@[simp] theorem State.modFrame_net (s : State) (k q : Nat) (f : Frame → Frame) : (s.modFrame k q f).net = s.net := State.modThr_net ..
@[simp] theorem State.modFrame_bars (s : State) (k q : Nat) (f : Frame → Frame) : (s.modFrame k q f).bars = s.bars := State.modThr_bars ..

/-! ### putFrame -/

@[simp] theorem State.putFrame_agenda (s : State) (f : Frame) : (s.putFrame f).agenda = s.agenda := State.modFrame_agenda ..
@[simp] theorem State.putFrame_cur (s : State) (f : Frame) : (s.putFrame f).cur = s.cur := State.modFrame_cur ..
@[simp] theorem State.putFrame_fresh (s : State) (f : Frame) : (s.putFrame f).fresh = s.fresh := State.modFrame_fresh ..
@[simp] theorem State.putFrame_cyc (s : State) (f : Frame) : (s.putFrame f).cyc = s.cyc := State.modFrame_cyc ..
@[simp] theorem State.putFrame_gcyc (s : State) (f : Frame) : (s.putFrame f).gcyc = s.gcyc := State.modFrame_gcyc ..
@[simp] theorem State.putFrame_mod (s : State) (f : Frame) : (s.putFrame f).mod = s.mod := State.modFrame_mod ..
@[simp] theorem State.putFrame_ctxs (s : State) (f : Frame) : (s.putFrame f).ctxs = s.ctxs := State.modFrame_ctxs ..
@[simp] theorem State.putFrame_mem (s : State) (f : Frame) : (s.putFrame f).mem = s.mem := State.modFrame_mem ..
@[simp] theorem State.putFrame_poison (s : State) (f : Frame) : (s.putFrame f).poison = s.poison := State.modFrame_poison ..
@[simp] theorem State.putFrame_full (s : State) (f : Frame) : (s.putFrame f).full = s.full := State.modFrame_full ..
@[simp] theorem State.putFrame_holds (s : State) (f : Frame) : (s.putFrame f).holds = s.holds := State.modFrame_holds ..
@[simp] theorem State.putFrame_resvs (s : State) (f : Frame) : (s.putFrame f).resvs = s.resvs := State.modFrame_resvs ..
@[simp] theorem State.putFrame_opmem (s : State) (f : Frame) : (s.putFrame f).opmem = s.opmem := State.modFrame_opmem ..
@[simp] theorem State.putFrame_opoison (s : State) (f : Frame) : (s.putFrame f).opoison = s.opoison := State.modFrame_opoison ..
@[simp] theorem State.putFrame_l2 (s : State) (f : Frame) : (s.putFrame f).l2 = s.l2 := State.modFrame_l2 ..
@[simp] theorem State.putFrame_dirs (s : State) (f : Frame) : (s.putFrame f).dirs = s.dirs := State.modFrame_dirs ..
@[simp] theorem State.putFrame_queues (s : State) (f : Frame) : (s.putFrame f).queues = s.queues := State.modFrame_queues ..
@[simp] theorem State.putFrame_sigbufs (s : State) (f : Frame) : (s.putFrame f).sigbufs = s.sigbufs := State.modFrame_sigbufs ..
@[simp] theorem State.putFrame_dies (s : State) (f : Frame) : (s.putFrame f).dies = s.dies := State.modFrame_dies ..
@[simp] theorem State.putFrame_clus (s : State) (f : Frame) : (s.putFrame f).clus = s.clus := State.modFrame_clus ..
@[simp] theorem State.putFrame_grids (s : State) (f : Frame) : (s.putFrame f).grids = s.grids := State.modFrame_grids ..
@[simp] theorem State.putFrame_net (s : State) (f : Frame) : (s.putFrame f).net = s.net := State.modFrame_net ..
@[simp] theorem State.putFrame_bars (s : State) (f : Frame) : (s.putFrame f).bars = s.bars := State.modFrame_bars ..

end Sys2Proof.Machine
end

