-- ==== Sys2Proof/Machine/Twivar.lean ====
section
/-! DEFINITION. What twivar makes of a source once its lines are read (R206 to R209): values of expressions, the words of a
block with the header fields it derives, and the bytes of a section. The text of a line is not modelled. -/

namespace Sys2Proof.Machine

/-- An expression (R209). -/
inductive TwExpr where
  | num (n : Nat)
  | name (s : String)
  | add (a b : TwExpr)
  | sub (a b : TwExpr)
  | mul (a b : TwExpr)
  | shl (a b : TwExpr)
  | shr (a b : TwExpr)
  | and (a b : TwExpr)
  | or (a b : TwExpr)
  | not (a : TwExpr)
  | bits (x hi lo : TwExpr)
  deriving DecidableEq, Repr

/-- A branch to a block name, or an instruction with its fields given. -/
inductive TwOp where
  | instr (i : Instr)
  | branch (i : Instr) (target : String)
  deriving DecidableEq, Repr

/-- A block between `.block` and `.endblock` (R207): NOSPEC, the `.read` entries in order of appearance with their targets,
the `.write` entries, and the instruction lines by slot. -/
structure TwBlock where
  name : String
  nospec : Bool
  reads : List (Nat × BitVec 9 × BitVec 9)
  writes : List (Nat × Nat)
  lines : List (Nat × TwOp)
  deriving DecidableEq, Repr

/-- A directive that places bytes or defines a name (R207). `data` holds 1-, 2-, 4- or 8-byte values; `pattern` the fields of
R337 with the defaults of its directive. -/
inductive TwItem where
  | equ (name : String) (v : TwExpr)
  | sig (name : String) (v : TwExpr)
  | align (n : Nat)
  | space (n : Nat)
  | data (size : Nat) (vs : List TwExpr)
  | block (b : TwBlock)
  | ftab (block : String) (sig : TwExpr)
  | pattern (name : String) (ports handler mode prio width pool wpp maxh : Nat)
  deriving DecidableEq, Repr

/-- The names defined so far. -/
abbrev TwEnv := List (String × Int)

/-- Two integers combined bit by bit as two's complement numbers without bound. -/
def twBits (f : ∀ w : Nat, BitVec w → BitVec w → BitVec w) (a b : Int) : Int :=
  let w := Nat.log2 a.natAbs + Nat.log2 b.natAbs + 3
  (f w (BitVec.ofInt w a) (BitVec.ofInt w b)).toInt

/-- The value of an expression: exact arithmetic (R209). None for an unknown name or a shift by a negative count. -/
def TwExpr.value (e : TwEnv) : TwExpr → Option Int
  | .num n => some n
  | .name s => e.lookup s
  | .add a b => return (← a.value e) + (← b.value e)
  | .sub a b => return (← a.value e) - (← b.value e)
  | .mul a b => return (← a.value e) * (← b.value e)
  | .shl a b => do
    let n ← b.value e
    if n < 0 then none else return (← a.value e) * 2 ^ n.toNat
  | .shr a b => do
    let n ← b.value e
    if n < 0 then none else return (← a.value e) / 2 ^ n.toNat
  | .and a b => return twBits (fun _ x y => x &&& y) (← a.value e) (← b.value e)
  | .or a b => return twBits (fun _ x y => x ||| y) (← a.value e) (← b.value e)
  | .not a => return -(← a.value e) - 1
  | .bits x hi lo => do
    let h ← hi.value e
    let l ← lo.value e
    if l < 0 || h < l then none else return (← x.value e) / 2 ^ l.toNat % 2 ^ (h - l + 1).toNat

/-- The OFFSET of a branch from a block to a target (R191): none when it is out of range. -/
def twOffset (src dst : Int) : Option (BitVec 20) :=
  let d := dst - src
  if d % 128 = 0 && -2 ^ 19 ≤ d / 128 && d / 128 < 2 ^ 19 then some (BitVec.ofInt 20 (d / 128)) else none

/-- The instruction of a line, its OFFSET filled in for a branch to a block (R206). -/
def TwOp.resolve (e : TwEnv) (at_ : Int) : TwOp → Option Instr
  | .instr i => some i
  | .branch i t => do
    let off ← twOffset at_ (← e.lookup t)
    match i with
    | .br f => some (.br { f with off := off })
    | .call f => some (.call { f with off := off })
    | _ => none

/-- Put the words of an instruction at a slot: none where a slot is filled already or does not exist (R206). -/
def twPlace (ws : List (Option Slot32)) (slot : Nat) (x : List Slot32) : Option (List (Option Slot32)) :=
  match x with
  | [] => some ws
  | w :: r => if ws[slot]? = some none then twPlace (ws.set slot (some w)) (slot + 1) r else none

/-- The 128 slots of a block's lines: none for a line that names a step of the hardware, an instruction that is not well-formed
or a slot that is taken. -/
def twSlots (e : TwEnv) (at_ : Int) : List (Nat × TwOp) → List (Option Slot32) → Option (List (Option Slot32))
  | [], ws => some ws
  | (s, o) :: r, ws => do
    let i ← o.resolve e at_
    if encode i = [] || !i.wellFormed then none
    else twSlots e at_ r (← twPlace ws s (encode i))

/-- How many instruction chunks the highest slot used asks for (R208). -/
def twChunks (b : TwBlock) : Nat :=
  (b.lines.foldl (fun m l =>
    max m (l.1 + match l.2 with
      | .instr i => (encode i).length - 1
      | .branch _ _ => 0)) 0) / 32 + 1

/-- The header chunk (R184 to R187), NCHUNK, NEXIT and the store mask derived from the slots (R208). -/
def twHeader (b : TwBlock) (n : Nat) (ws : List Slot32) : List Slot32 :=
  let starts := slotStarts ws 128 0
  let pair := fun i => (wordAt ws i, wordAt ws (i + 1))
  let nexit := (starts.filterMap fun i => exitOf (pair i).1 (pair i).2).foldl max 0
  let mask : Slot32 := starts.foldl (fun m i =>
    match if wordAt ws i = 0#32 then none else lsidOf (pair i).1 (pair i).2 with
    | some (l, true) => m ||| (1#32 <<< l)
    | _ => m) 0#32
  let w0 : Slot32 := 0xA5#8 ++ BitVec.ofNat 2 (n - 1) ++ BitVec.ofNat 3 nexit ++ BitVec.ofBool b.nospec ++ 0#18
  let wr := fun k => (List.range 4).foldl (fun (x : Slot32) j =>
    x ||| (BitVec.ofNat 32 ((b.writes.lookup (4 * k + j)).getD 0) <<< (8 * j))) 0#32
  [w0, mask] ++ (List.range 8).map wr ++ (List.range 22).map fun j =>
    match b.reads[j]? with
    | some (r, t0, t1) => 1#1 ++ 0#5 ++ BitVec.ofNat 8 r ++ t1 ++ t0
    | none => 0#32

/-- The words of a block that stands at an address: its header chunk and its instruction chunks. None for a source that would
produce a block-format fault of R203 or that twivar refuses (R206). -/
noncomputable def TwBlock.words (e : TwEnv) (at_ : Nat) (b : TwBlock) : Option (List Slot32) := do
  let n := twChunks b
  let slots ← twSlots e at_ b.lines (List.replicate (32 * min n 4) none)
  let ws := slots.map (·.getD 0#32)
  let h := twHeader b n ws
  if 22 < b.reads.length || b.writes.any (fun w => 32 ≤ w.1 || w.2 = 0 || 256 ≤ w.2) ||
      !decide (b.writes.map (·.1)).Nodup || b.reads.any (fun r => 256 ≤ r.1) then none
  else
    match mapCheck (BitVec.ofNat 80 at_) true h ws isReserved with
    | some _ => none
    | none => some (h ++ ws)

/-- Where an item begins at address `a`, and how many bytes it has (R207). -/
def TwItem.extent (a : Nat) : TwItem → Nat × Nat
  | .equ _ _ => (a, 0)
  | .sig _ _ => (a, 0)
  | .align n => (a, (n - a % n) % n)
  | .space n => (a, n)
  | .data size vs => (a, size * vs.length)
  | .block b => ((a + 127) / 128 * 128, 128 + 128 * twChunks b)
  | .ftab _ _ => ((a + 15) / 16 * 16, 16)
  | .pattern _ _ _ _ _ _ _ _ _ => (a, 16)

/-- The names that a section's places define. -/
def twLabels : Nat → List TwItem → TwEnv
  | _, [] => []
  | a, i :: r =>
    let x := i.extent a
    let rest := twLabels (x.1 + x.2) r
    match i with
    | .block b => (b.name, x.1) :: rest
    | .pattern n _ _ _ _ _ _ _ _ => (n, x.1) :: rest
    | _ => rest

/-- The names that `.equ` and `.sig` define, in order, beside the labels (R207, R209). -/
def twNames (e : TwEnv) : List TwItem → Option TwEnv
  | [] => some e
  | .equ n v :: r => do twNames ((n, ← v.value e) :: e) r
  | .sig n v :: r => do
    let x ← v.value e
    if 0 ≤ x && x < 2 ^ 16 then twNames ((n, x) :: e) r else none
  | _ :: r => twNames e r

/-- `n` bytes of a value, lowest first. -/
def twBytes (n : Nat) (v : Int) : List Byte := (List.range n).map fun i => BitVec.ofInt 8 (v / 2 ^ (8 * i))

/-- The image of a pattern-table entry (R337). -/
def twPattern (ports handler mode prio width pool wpp maxh : Nat) : Int :=
  ports + 2 ^ 64 * (handler + 2 ^ 10 * mode + 2 ^ 11 * prio + 2 ^ 14 * width + 2 ^ 16 * pool + 2 ^ 24 * (wpp - 1) +
    2 ^ 27 * maxh : Nat)

/-- The bytes of an item at its place; none where a value does not fit or a block is refused. -/
noncomputable def TwItem.bytes (e : TwEnv) (a : Nat) (i : TwItem) : Option (List Byte) :=
  match i with
  | .equ _ _ => some []
  | .sig _ _ => some []
  | .align n => some (List.replicate ((n - a % n) % n) 0#8)
  | .space n => some (List.replicate n 0#8)
  | .data size vs => do return (← vs.mapM fun v => v.value e).flatMap (twBytes size)
  | .block b => do return (← b.words e a).flatMap fun w => twBytes 4 w.toNat
  | .ftab b s => do
    let t ← e.lookup b
    let x ← s.value e
    if 0 ≤ x && x < 2 ^ 16 then return twBytes 10 t ++ twBytes 2 x ++ List.replicate 4 0#8 else none
  | .pattern _ p h m pr w pool wpp mh =>
    if p < 2 ^ 64 && h < 2 ^ 10 && m < 2 && pr < 8 && w < 4 && pool < 256 && 1 ≤ wpp && wpp ≤ 8 && mh < 16 then
      some (twBytes 16 (twPattern p h m pr w pool wpp mh))
    else none

/-- The bytes of the items from an address on, with the padding before each. -/
noncomputable def twEmit (e : TwEnv) : Nat → List TwItem → Option (List Byte)
  | _, [] => some []
  | a, i :: r => do
    let x := i.extent a
    let bs ← i.bytes e x.1
    return List.replicate (x.1 - a) 0#8 ++ bs ++ (← twEmit e (x.1 + x.2) r)

/-- The bytes of a section that stands at an address, with the names of the other sections (R207). -/
noncomputable def twSection (outer : TwEnv) (a : Nat) (items : List TwItem) : Option (List Byte) := do
  twEmit (← twNames (twLabels a items ++ outer) items) a items

end Sys2Proof.Machine
end

