-- ==== Sys2Proof/Tests/Slice0.lean ====
section
/-! SUPPORT. The model's own tests: ill-formed terms that the checks refuse, words of the manual decoded, a witness for the
hypotheses of every statement, and small results worked out from the manual. -/

namespace Sys2Proof.Tests

set_option Elab.async false

open Sys2Proof Sys2Proof.Machine

/-! ### Small states -/

/-- The instruction stands at slot 5 of a block that is mapped, with these tokens arrived, and is the current slot. -/
def at5 (i : Instr) (toks : Tab Tok) : State :=
  let s := place1 State.reset ((encode i).getD 0 0) ((encode i).getD 1 0)
  { s.modFrame 0 0 fun f => { f with toks := toks } with cur := (0, 0, 5) }

/-- The thread and the block of a small state. -/
def th (s : State) : Thread := (s.thr 0).getD Thread.reset
/-- See `th`. -/
def fr (s : State) : Frame := (s.frame 0 0).getD (Frame.mk0 0 0 true 1 none)

/-- A state with the only thread changed. -/
def onThr (s : State) (f : Thread → Thread) : State := s.modThr 0 f
/-- A state with the only block changed. -/
def onFr (s : State) (f : Frame → Frame) : State := s.modFrame 0 0 f

/-- The tokens an instruction has sent. -/
noncomputable def out (i : Instr) (toks : Tab Tok) : Option (List (Nat × Tok)) :=
  match exec i (at5 i toks) with
  | .next s => (s.frame 0 0).map (·.transit)
  | _ => none

/-- Whether an outcome is a next state, and a test of that state. -/
def nextHas (o : Host.Outcome State Fault Refusal) (p : State → Bool) : Bool :=
  match o with
  | .next s => p s
  | _ => false

/-- An outcome that is a next state. -/
theorem nextHas_exists (o : Host.Outcome State Fault Refusal) (p : State → Bool) (h : nextHas o p = true) :
    ∃ s, o = .next s ∧ p s = true := by
  cases o with
  | next s => exact ⟨s, rfl, h⟩
  | fault _ => simp [nextHas] at h
  | refused _ => simp [nextHas] at h

/-- Whether a source belongs to a thread. -/
def srcOf (k : Nat) (x : Src) : Bool :=
  match x with
  | .acc t _ _ _ => t == k
  | .fetch _ t _ _ => t == k
  | .store _ t => t == k
  | _ => false

theorem holdsNothing_of (s : State) (k : Nat) (h : s.holds = [] ∧ s.resvs = [])
    (h' : (s.net.all fun e => !srcOf k e.2.src) = true ∧ (s.clus.all fun e => e.2.lock.all (·.1 != k)) = true) :
    HoldsNothing s k := by
  refine ⟨by simp [h.1], by simp [h.2], fun e he => ?_, fun e he l hl => ?_⟩
  · have := List.all_eq_true.mp h'.1 e he
    refine ⟨fun q i j hx => ?_, fun g q c hx => ?_, fun g hx => ?_⟩ <;> simp [srcOf, hx] at this
  · have := List.all_eq_true.mp h'.2 e he
    simpa [hl] using this

theorem forall_of_nil {α : Type} (l : List α) (p : α → Prop) (h : l = []) : ∀ x, x ∈ l → p x := by simp [h]

theorem ok_of {α β : Type} [DecidableEq β] (e : Except α β) (x : β)
    (h : (match e with | .ok y => decide (y = x) | .error _ => false) = true) : e = .ok x := by
  cases e <;> simp_all

theorem error_of {α β : Type} [DecidableEq α] (e : Except α β) (x : α)
    (h : (match e with | .ok _ => false | .error y => decide (y = x)) = true) : e = .error x := by
  cases e <;> simp_all

theorem oldest_of_nil (t : Thread) (h : t.frames = []) : ∀ f, t.oldest = some f → ∀ y ∈ t.frames, f.seq ≤ y.seq := by
  simp [Thread.oldest, h]

/-- The outcome of an instruction at slot 5 of a small state, tested. -/
noncomputable def gives (i : Instr) (toks : Tab Tok) (w : State → State) (p : State → Bool) : Bool :=
  nextHas (exec i (w (at5 i toks))) p

/-! ### The machine as a whole -/

theorem witness_step_fires : ∃ (s : State) (r : List Move) (k q i : Nat) (f : Frame) (ins : Instr),
    s.agenda = .fire k q i :: r ∧ s.frame k q = some f ∧
    decode (wordAt f.words i) (wordAt f.words (i + 1)) = .ok ins := by
  let s := at5 (.mov ⟨0, 0x1FF, 1⟩) [(5, .s 7)]
  have h : wordAt (fr s).words 5 = 0x0C03FE01#32 := by decide +kernel
  exact ⟨s, [], 0, 0, 5, fr s, .mov ⟨0, 0x1FF, 1⟩, by decide +kernel, by decide +kernel, by rw [h]; rfl⟩

theorem witness_step_reserved : ∃ (s : State) (r : List Move) (k q i : Nat) (f : Frame) (e : Reject),
    s.agenda = .fire k q i :: r ∧ s.frame k q = some f ∧
    decode (wordAt f.words i) (wordAt f.words (i + 1)) = .error e := by
  let s := place1 State.reset 0xFFFFFFFF#32 0#32
  have h : wordAt (fr s).words 5 = 0xFFFFFFFF#32 := by decide +kernel
  exact ⟨s, [], 0, 0, 5, fr s, .reserved, by decide +kernel, by decide +kernel, by rw [h]; rfl⟩

theorem witness_step_event : ∃ (s : State) (r : List Move) (e : Instr), s.agenda = .event e :: r ∧ encode e = [] :=
  ⟨{ State.reset with agenda := [.event .purgeClear] }, [], .purgeClear, rfl, rfl⟩

theorem witness_step_upset : ∃ (s : State) (r : List Move) (e : MemErr), s.agenda = .upset e :: r :=
  ⟨{ State.reset with agenda := [.upset (.gran 0x1000)] }, [], .gran 0x1000, rfl⟩

theorem witness_step_input : ∃ (s : State) (r : List Move) (e : Input), s.agenda = .input e :: r :=
  ⟨{ State.reset with agenda := [.input (.windowRead 9 0)] }, [], .windowRead 9 0, rfl⟩

theorem witness_step_free : ∃ (s : State) (r : List Move), s.agenda = .free :: r :=
  ⟨{ State.reset with agenda := [.free] }, [], rfl⟩

theorem witness_encoding : ∃ (i : Instr) (w0 w1 : Slot32), i.wellFormed = true ∧ encode i = [w0, w1] :=
  ⟨.mshape ⟨0, 15, 15, 9, 1⟩, 0x900BFFFF#32, 0x1E07A401#32, by decide +kernel, by decide +kernel⟩

theorem witness_decoding : ∃ (w0 w1 : Slot32) (i : Instr), decode w0 w1 = .ok i :=
  ⟨0x46000001#32, 0#32, .ldd ⟨0, 0, 0, 1⟩, rfl⟩

/-- A step that fires an instruction in a state whose memory lists a byte. -/
theorem witness_step_keeps_memory : ∃ s s' : State, Memory.wf s.mem = true ∧ Memory.wf s.opmem = true ∧ s.mem ≠ [] ∧
    step s = .next s' := by
  let s := { State.reset with mem := [(64, 5)], agenda := [.event (.acq 1)] }
  exact ⟨s, { s with agenda := [], mod := { s.mod with lock := 1 } }, by decide +kernel, by decide +kernel, by decide +kernel, rfl⟩

theorem witness_computing : ∃ (i : Instr) (s s' : State), computes i = true ∧ exec i s = .next s' := by
  let s := at5 (.mov ⟨0, 0x1FF, 1⟩) [(5, .s 7)]
  have h : nextHas (exec (.mov ⟨0, 0x1FF, 1⟩) s) (fun _ => true) = true := by decide +kernel
  obtain ⟨s', h', _⟩ := nextHas_exists _ _ h
  exact ⟨.mov ⟨0, 0x1FF, 1⟩, s, s', rfl, h'⟩

/-! ### Words of the manual

One word for every instruction, its opcode, XOP and fields placed as the manual's tables of the group give them (R189, R200 and the
table of each group), decodes to that instruction with those fields. -/

theorem decode_iarith :
    decode 0x03010705#32 0 = .ok (.add ⟨2, 0x83, 0x105⟩) ∧
    decode 0x03850705#32 0 = .ok (.sub ⟨3, 0x83, 0x105⟩) ∧
    decode 0x03090705#32 0 = .ok (.mul ⟨2, 0x83, 0x105⟩) ∧
    decode 0x038D0705#32 0 = .ok (.mulh ⟨3, 0x83, 0x105⟩) ∧
    decode 0x03110705#32 0 = .ok (.mulhz ⟨2, 0x83, 0x105⟩) ∧
    decode 0x03950705#32 0 = .ok (.div ⟨3, 0x83, 0x105⟩) ∧
    decode 0x03190705#32 0 = .ok (.divz ⟨2, 0x83, 0x105⟩) ∧
    decode 0x039D0705#32 0 = .ok (.rem ⟨3, 0x83, 0x105⟩) ∧
    decode 0x03210705#32 0 = .ok (.remz ⟨2, 0x83, 0x105⟩) ∧
    decode 0x03A50705#32 0 = .ok (.min ⟨3, 0x83, 0x105⟩) ∧
    decode 0x03290705#32 0 = .ok (.max ⟨2, 0x83, 0x105⟩) ∧
    decode 0x03AD0705#32 0 = .ok (.minz ⟨3, 0x83, 0x105⟩) ∧
    decode 0x03310705#32 0 = .ok (.maxz ⟨2, 0x83, 0x105⟩) ∧
    decode 0x03B50705#32 0 = .ok (.abs ⟨3, 0x83, 0x105⟩) ∧
    decode 0x03390705#32 0 = .ok (.neg ⟨2, 0x83, 0x105⟩) := by
  repeat' apply And.intro
  all_goals rfl

theorem decode_iarithw :
    decode 0x05810705#32 0 = .ok (.addW ⟨3, 0x83, 0x105⟩) ∧
    decode 0x05050705#32 0 = .ok (.subW ⟨2, 0x83, 0x105⟩) ∧
    decode 0x05890705#32 0 = .ok (.mulW ⟨3, 0x83, 0x105⟩) ∧
    decode 0x050D0705#32 0 = .ok (.mulhW ⟨2, 0x83, 0x105⟩) ∧
    decode 0x05910705#32 0 = .ok (.mulhzW ⟨3, 0x83, 0x105⟩) ∧
    decode 0x05150705#32 0 = .ok (.divW ⟨2, 0x83, 0x105⟩) ∧
    decode 0x05990705#32 0 = .ok (.divzW ⟨3, 0x83, 0x105⟩) ∧
    decode 0x051D0705#32 0 = .ok (.remW ⟨2, 0x83, 0x105⟩) ∧
    decode 0x05A10705#32 0 = .ok (.remzW ⟨3, 0x83, 0x105⟩) ∧
    decode 0x05250705#32 0 = .ok (.minW ⟨2, 0x83, 0x105⟩) ∧
    decode 0x05A90705#32 0 = .ok (.maxW ⟨3, 0x83, 0x105⟩) ∧
    decode 0x052D0705#32 0 = .ok (.minzW ⟨2, 0x83, 0x105⟩) ∧
    decode 0x05B10705#32 0 = .ok (.maxzW ⟨3, 0x83, 0x105⟩) ∧
    decode 0x05350705#32 0 = .ok (.absW ⟨2, 0x83, 0x105⟩) ∧
    decode 0x05B90705#32 0 = .ok (.negW ⟨3, 0x83, 0x105⟩) := by
  repeat' apply And.intro
  all_goals rfl

theorem decode_ilogic :
    decode 0x07010705#32 0 = .ok (.and ⟨2, 0x83, 0x105⟩) ∧
    decode 0x07850705#32 0 = .ok (.or ⟨3, 0x83, 0x105⟩) ∧
    decode 0x07090705#32 0 = .ok (.xor ⟨2, 0x83, 0x105⟩) ∧
    decode 0x078D0705#32 0 = .ok (.andn ⟨3, 0x83, 0x105⟩) ∧
    decode 0x07110705#32 0 = .ok (.orn ⟨2, 0x83, 0x105⟩) ∧
    decode 0x07950705#32 0 = .ok (.shl ⟨3, 0x83, 0x105⟩) ∧
    decode 0x07190705#32 0 = .ok (.shr ⟨2, 0x83, 0x105⟩) ∧
    decode 0x079D0705#32 0 = .ok (.sar ⟨3, 0x83, 0x105⟩) ∧
    decode 0x07210705#32 0 = .ok (.rol ⟨2, 0x83, 0x105⟩) ∧
    decode 0x07A50705#32 0 = .ok (.ror ⟨3, 0x83, 0x105⟩) := by
  repeat' apply And.intro
  all_goals rfl

theorem decode_ibit :
    decode 0x09010705#32 0 = .ok (.clz ⟨2, 0x83, 0x105⟩) ∧
    decode 0x09850705#32 0 = .ok (.ctz ⟨3, 0x83, 0x105⟩) ∧
    decode 0x09090705#32 0 = .ok (.popc ⟨2, 0x83, 0x105⟩) ∧
    decode 0x098D0705#32 0 = .ok (.brev ⟨3, 0x83, 0x105⟩) ∧
    decode 0x09110705#32 0 = .ok (.bswap ⟨2, 0x83, 0x105⟩) ∧
    decode 0x09950705#32 0 = .ok (.exts ⟨3, 0x83, 0x105⟩) ∧
    decode 0x09190705#32 0 = .ok (.extz ⟨2, 0x83, 0x105⟩) ∧
    decode 0x099D0705#32 0 = .ok (.ins ⟨3, 0x83, 0x105⟩) := by
  repeat' apply And.intro
  all_goals rfl

theorem decode_itest :
    decode 0x0B010705#32 0 = .ok (.teq ⟨2, 0x83, 0x105⟩) ∧
    decode 0x0B850705#32 0 = .ok (.tne ⟨3, 0x83, 0x105⟩) ∧
    decode 0x0B090705#32 0 = .ok (.tlt ⟨2, 0x83, 0x105⟩) ∧
    decode 0x0B8D0705#32 0 = .ok (.tle ⟨3, 0x83, 0x105⟩) ∧
    decode 0x0B110705#32 0 = .ok (.tltz ⟨2, 0x83, 0x105⟩) ∧
    decode 0x0B950705#32 0 = .ok (.tlez ⟨3, 0x83, 0x105⟩) ∧
    decode 0x0B210705#32 0 = .ok (.teqW ⟨2, 0x83, 0x105⟩) ∧
    decode 0x0BA50705#32 0 = .ok (.tneW ⟨3, 0x83, 0x105⟩) ∧
    decode 0x0B290705#32 0 = .ok (.tltW ⟨2, 0x83, 0x105⟩) ∧
    decode 0x0BAD0705#32 0 = .ok (.tleW ⟨3, 0x83, 0x105⟩) ∧
    decode 0x0B310705#32 0 = .ok (.tltzW ⟨2, 0x83, 0x105⟩) ∧
    decode 0x0BB50705#32 0 = .ok (.tlezW ⟨3, 0x83, 0x105⟩) := by
  repeat' apply And.intro
  all_goals rfl

theorem decode_move :
    decode 0x0D010705#32 0 = .ok (.mov ⟨2, 0x83, 0x105⟩) ∧
    decode 0x0D850705#32 0 = .ok (.sel ⟨3, 0x83, 0x105⟩) ∧
    decode 0x0D090705#32 0 = .ok (.null ⟨2, 0x83, 0x105⟩) ∧
    decode 0x317DDF05#32 0 = .ok (.movi ⟨0xBEEF, 0x105⟩) ∧
    decode 0x337DDF05#32 0 = .ok (.appi ⟨0xBEEF, 0x105⟩) ∧
    decode 0xDD550705#32 0 = .ok (.hint ⟨2, 2, 0x15, 0x83, 0x105⟩) ∧
    decode 0xA303FFFF#32 0x00BEEFB4#32 = .ok (.calli ⟨2, 0xBEEF, 5, 0x14⟩) ∧
    decode 0xA3050705#32 0x00015555#32 = .ok (.mov4 ⟨2, 0x83, 0x105, 0xAA, 0x155⟩) := by
  repeat' apply And.intro
  all_goals rfl

theorem decode_fscalar :
    decode 0x0F810705#32 0 = .ok (.faddF64 ⟨3, 0x83, 0x105⟩) ∧
    decode 0x0F050705#32 0 = .ok (.fsubF64 ⟨2, 0x83, 0x105⟩) ∧
    decode 0x0F890705#32 0 = .ok (.fmulF64 ⟨3, 0x83, 0x105⟩) ∧
    decode 0x0F0D0705#32 0 = .ok (.fdivF64 ⟨2, 0x83, 0x105⟩) ∧
    decode 0x0F910705#32 0 = .ok (.fsqrtF64 ⟨3, 0x83, 0x105⟩) ∧
    decode 0x0E150705#32 0 = .ok (.ffmaF64 ⟨0x83, 0x105⟩) ∧
    decode 0x0F990705#32 0 = .ok (.fminF64 ⟨3, 0x83, 0x105⟩) ∧
    decode 0x0F1D0705#32 0 = .ok (.fmaxF64 ⟨2, 0x83, 0x105⟩) ∧
    decode 0x0FA10705#32 0 = .ok (.faddF32 ⟨3, 0x83, 0x105⟩) ∧
    decode 0x0F250705#32 0 = .ok (.fsubF32 ⟨2, 0x83, 0x105⟩) ∧
    decode 0x0FA90705#32 0 = .ok (.fmulF32 ⟨3, 0x83, 0x105⟩) ∧
    decode 0x0F2D0705#32 0 = .ok (.fdivF32 ⟨2, 0x83, 0x105⟩) ∧
    decode 0x0FB10705#32 0 = .ok (.fsqrtF32 ⟨3, 0x83, 0x105⟩) ∧
    decode 0x0E350705#32 0 = .ok (.ffmaF32 ⟨0x83, 0x105⟩) ∧
    decode 0x0FB90705#32 0 = .ok (.fminF32 ⟨3, 0x83, 0x105⟩) ∧
    decode 0x0F3D0705#32 0 = .ok (.fmaxF32 ⟨2, 0x83, 0x105⟩) ∧
    decode 0x0FC10705#32 0 = .ok (.fcmpEqF64 ⟨3, 0x83, 0x105⟩) ∧
    decode 0x0F450705#32 0 = .ok (.fcmpLtF64 ⟨2, 0x83, 0x105⟩) ∧
    decode 0x0FC90705#32 0 = .ok (.fcmpLeF64 ⟨3, 0x83, 0x105⟩) ∧
    decode 0x0F4D0705#32 0 = .ok (.fcmpUnF64 ⟨2, 0x83, 0x105⟩) ∧
    decode 0x0FD10705#32 0 = .ok (.fcmpEqF32 ⟨3, 0x83, 0x105⟩) ∧
    decode 0x0F550705#32 0 = .ok (.fcmpLtF32 ⟨2, 0x83, 0x105⟩) ∧
    decode 0x0FD90705#32 0 = .ok (.fcmpLeF32 ⟨3, 0x83, 0x105⟩) ∧
    decode 0x0F5D0705#32 0 = .ok (.fcmpUnF32 ⟨2, 0x83, 0x105⟩) ∧
    decode 0x0FE10705#32 0 = .ok (.fcvtF64F32 ⟨3, 0x83, 0x105⟩) ∧
    decode 0x0F650705#32 0 = .ok (.fcvtF32F64 ⟨2, 0x83, 0x105⟩) ∧
    decode 0x0FE90705#32 0 = .ok (.fcvtI64F64 ⟨3, 0x83, 0x105⟩) ∧
    decode 0x0F6D0705#32 0 = .ok (.fcvtF64I64 ⟨2, 0x83, 0x105⟩) ∧
    decode 0x0FF10705#32 0 = .ok (.fcvtI64F32 ⟨3, 0x83, 0x105⟩) ∧
    decode 0x0F750705#32 0 = .ok (.fcvtF32I64 ⟨2, 0x83, 0x105⟩) ∧
    decode 0x0FF90705#32 0 = .ok (.fcvtI64F64Rtz ⟨3, 0x83, 0x105⟩) ∧
    decode 0x0F7D0705#32 0 = .ok (.fcvtI64F32Rtz ⟨2, 0x83, 0x105⟩) := by
  repeat' apply And.intro
  all_goals rfl

theorem decode_immediate :
    decode 0x11D4AB05#32 0 = .ok (.addi ⟨3, 0x2A55, 0x105⟩) ∧
    decode 0x1354AB05#32 0 = .ok (.muli ⟨2, 0x2A55, 0x105⟩) ∧
    decode 0x15D4AB05#32 0 = .ok (.andi ⟨3, 0x2A55, 0x105⟩) ∧
    decode 0x1754AB05#32 0 = .ok (.ori ⟨2, 0x2A55, 0x105⟩) ∧
    decode 0x19D4AB05#32 0 = .ok (.xori ⟨3, 0x2A55, 0x105⟩) ∧
    decode 0x1B005B05#32 0 = .ok (.shli ⟨2, 0x2D, 0x105⟩) ∧
    decode 0x1D805B05#32 0 = .ok (.shri ⟨3, 0x2D, 0x105⟩) ∧
    decode 0x1F005B05#32 0 = .ok (.sari ⟨2, 0x2D, 0x105⟩) ∧
    decode 0x21D4AB05#32 0 = .ok (.teqi ⟨3, 0x2A55, 0x105⟩) ∧
    decode 0x2354AB05#32 0 = .ok (.tnei ⟨2, 0x2A55, 0x105⟩) ∧
    decode 0x25D4AB05#32 0 = .ok (.tlti ⟨3, 0x2A55, 0x105⟩) ∧
    decode 0x2754AB05#32 0 = .ok (.tlei ⟨2, 0x2A55, 0x105⟩) ∧
    decode 0x29D4AB05#32 0 = .ok (.tltzi ⟨3, 0x2A55, 0x105⟩) ∧
    decode 0x2B54AB05#32 0 = .ok (.tlezi ⟨2, 0x2A55, 0x105⟩) ∧
    decode 0x2DD4AB05#32 0 = .ok (.addiw ⟨3, 0x2A55, 0x105⟩) := by
  repeat' apply And.intro
  all_goals rfl

theorem decode_load :
    decode 0x414EAB05#32 0 = .ok (.ldb ⟨2, 0x13, 0x155, 0x105⟩) ∧
    decode 0x43CEAB05#32 0 = .ok (.ldh ⟨3, 0x13, 0x155, 0x105⟩) ∧
    decode 0x454EAB05#32 0 = .ok (.ldw ⟨2, 0x13, 0x155, 0x105⟩) ∧
    decode 0x47CEAB05#32 0 = .ok (.ldd ⟨3, 0x13, 0x155, 0x105⟩) ∧
    decode 0x494EAB05#32 0 = .ok (.ldbs ⟨2, 0x13, 0x155, 0x105⟩) ∧
    decode 0x4BCEAB05#32 0 = .ok (.ldhs ⟨3, 0x13, 0x155, 0x105⟩) ∧
    decode 0x4D4EAB05#32 0 = .ok (.ldws ⟨2, 0x13, 0x155, 0x105⟩) ∧
    decode 0x4FCEAB05#32 0 = .ok (.ldv ⟨3, 0x13, 0x155, 0x105⟩) := by
  repeat' apply And.intro
  all_goals rfl

theorem decode_store :
    decode 0x514EA555#32 0 = .ok (.stb ⟨2, 0x13, 0x2A555⟩) ∧
    decode 0x53CEA555#32 0 = .ok (.sth ⟨3, 0x13, 0x2A555⟩) ∧
    decode 0x554EA555#32 0 = .ok (.stw ⟨2, 0x13, 0x2A555⟩) ∧
    decode 0x57CEA555#32 0 = .ok (.std ⟨3, 0x13, 0x2A555⟩) ∧
    decode 0x594EA555#32 0 = .ok (.stv ⟨2, 0x13, 0x2A555⟩) := by
  repeat' apply And.intro
  all_goals rfl

theorem decode_branch :
    decode 0x61DABCDE#32 0 = .ok (.br ⟨3, 5, 0xABCDE⟩) ∧
    decode 0x635ABCDE#32 0 = .ok (.call ⟨2, 5, 0xABCDE⟩) ∧
    decode 0x65D3FFFF#32 0 = .ok (.bri ⟨3, 5⟩) ∧
    decode 0x6753FFFF#32 0 = .ok (.ret ⟨2, 5⟩) ∧
    decode 0x69DABCDE#32 0 = .ok (.scall ⟨3, 5, 0xABCDE⟩) := by
  repeat' apply And.intro
  all_goals rfl

theorem decode_wmem :
    decode 0x81010705#32 0xFFC46255#32 = .ok (.ld ⟨2, 0x83, 0x105, 0x1FF8, 1, 0, 1, 4, 2, 2, 0x15⟩) ∧
    decode 0x8107FFFF#32 0x00420C95#32 = .ok (.st ⟨2, 0x1FF, 0x1FF, 8, 0, 2, 0, 1, 4, 4, 0x15⟩) ∧
    decode 0x81890705#32 0x00180175#32 = .ok (.gather ⟨3, 0x83, 0x105, 3, 0, 0, 0, 0, 1, 3, 0x15⟩) ∧
    decode 0x800FFFFF#32 0x00100155#32 = .ok (.scatter ⟨0, 0x1FF, 0x1FF, 2, 0, 0, 0, 0, 1, 2, 0x15⟩) ∧
    decode 0x8113FFFF#32 0x02010315#32 = .ok (.pref ⟨2, 0x1FF, 0x1FF, 0x40, 0, 1, 0, 0, 3, 0, 0x15⟩) ∧
    decode 0x8117FFFF#32 0x80000015#32 = .ok (.lflush ⟨2, 0x1FF, 0x1FF, 0x1000, 0, 0, 0, 0, 0, 0, 0x15⟩) ∧
    decode 0x811BFFFF#32 0x7FF80015#32 = .ok (.linv ⟨2, 0x1FF, 0x1FF, 0xFFF, 0, 0, 0, 0, 0, 0, 0x15⟩) ∧
    decode 0x81210705#32 0x00000055#32 = .ok (.aadd ⟨2, 0x83, 0x105, 0, 0, 0, 0, 0, 0, 2, 0x15⟩) ∧
    decode 0x81250705#32 0x00084C75#32 = .ok (.aand ⟨2, 0x83, 0x105, 1, 0, 0, 1, 1, 4, 3, 0x15⟩) ∧
    decode 0x81290705#32 0x00109055#32 = .ok (.aor ⟨2, 0x83, 0x105, 2, 0, 0, 2, 2, 0, 2, 0x15⟩) ∧
    decode 0x812D0705#32 0x0018DC75#32 = .ok (.axor ⟨2, 0x83, 0x105, 3, 0, 0, 3, 3, 4, 3, 0x15⟩) ∧
    decode 0x81310705#32 0x00202055#32 = .ok (.amin ⟨2, 0x83, 0x105, 4, 0, 0, 0, 4, 0, 2, 0x15⟩) ∧
    decode 0x81350705#32 0x00286C75#32 = .ok (.amax ⟨2, 0x83, 0x105, 5, 0, 0, 1, 5, 4, 3, 0x15⟩) ∧
    decode 0x81390705#32 0x00308055#32 = .ok (.aminz ⟨2, 0x83, 0x105, 6, 0, 0, 2, 0, 0, 2, 0x15⟩) ∧
    decode 0x813D0705#32 0x0038CC75#32 = .ok (.amaxz ⟨2, 0x83, 0x105, 7, 0, 0, 3, 1, 4, 3, 0x15⟩) ∧
    decode 0x81410705#32 0x00401055#32 = .ok (.axchg ⟨2, 0x83, 0x105, 8, 0, 0, 0, 2, 0, 2, 0x15⟩) ∧
    decode 0x80450705#32 0x0080E875#32 = .ok (.acas ⟨0, 0x83, 0x105, 0x10, 0, 0, 3, 5, 0, 3, 0x15⟩) ∧
    decode 0x81490705#32 0x00080055#32 = .ok (.afaddF32 ⟨2, 0x83, 0x105, 1, 0, 0, 0, 0, 0, 2, 0x15⟩) ∧
    decode 0x814D0705#32 0x00008055#32 = .ok (.afaddBf16x2 ⟨2, 0x83, 0x105, 0, 0, 0, 2, 0, 0, 2, 0x15⟩) := by
  repeat' apply And.intro
  all_goals rfl

theorem decode_wsync :
    decode 0x8303FFFF#32 0x0000D801#32 = .ok (.fence ⟨2, 0x1FF, 0x1FF, 0, 3, 3, 1⟩) ∧
    decode 0x8207FFFF#32 0x00021001#32 = .ok (.bara ⟨0, 0x1FF, 0x1FF, 2, 0, 2, 1⟩) ∧
    decode 0x82090705#32 0x000F281F#32 = .ok (.barw ⟨0, 0x83, 0x105, 0xF, 0, 5, 0x1F⟩) := by
  repeat' apply And.intro
  all_goals rfl

theorem decode_vint :
    decode 0x85010705#32 0x00008001#32 = .ok (.vaddInt ⟨2, 0x83, 0x105, 0, 0, 0, 1, 0, 1⟩) ∧
    decode 0x85050705#32 0x00008002#32 = .ok (.vsubInt ⟨2, 0x83, 0x105, 0, 0, 0, 1, 0, 2⟩) ∧
    decode 0x85090705#32 0x00008003#32 = .ok (.vmulInt ⟨2, 0x83, 0x105, 0, 0, 0, 1, 0, 3⟩) ∧
    decode 0x850D0705#32 0x00000005#32 = .ok (.vmulh ⟨2, 0x83, 0x105, 0, 0, 0, 0, 0, 5⟩) ∧
    decode 0x85110705#32 0x00000006#32 = .ok (.vminInt ⟨2, 0x83, 0x105, 0, 0, 0, 0, 0, 6⟩) ∧
    decode 0x85150705#32 0x00000007#32 = .ok (.vmaxInt ⟨2, 0x83, 0x105, 0, 0, 0, 0, 0, 7⟩) ∧
    decode 0x85190705#32 0x00008003#32 = .ok (.vabsInt ⟨2, 0x83, 0x105, 0, 0, 0, 1, 0, 3⟩) ∧
    decode 0x851D0705#32 0x00000002#32 = .ok (.vnegInt ⟨2, 0x83, 0x105, 0, 0, 0, 0, 0, 2⟩) ∧
    decode 0x85210705#32 0 = .ok (.vand ⟨2, 0x83, 0x105, 0, 0, 0, 0, 0, 0⟩) ∧
    decode 0x85250705#32 0x00000001#32 = .ok (.vor ⟨2, 0x83, 0x105, 0, 0, 0, 0, 0, 1⟩) ∧
    decode 0x85290705#32 0x00000002#32 = .ok (.vxor ⟨2, 0x83, 0x105, 0, 0, 0, 0, 0, 2⟩) ∧
    decode 0x852D0705#32 0x00000003#32 = .ok (.vshl ⟨2, 0x83, 0x105, 0, 0, 0, 0, 0, 3⟩) ∧
    decode 0x85310705#32 0x00000004#32 = .ok (.vshr ⟨2, 0x83, 0x105, 0, 0, 0, 0, 0, 4⟩) ∧
    decode 0x85350705#32 0x00000005#32 = .ok (.vsar ⟨2, 0x83, 0x105, 0, 0, 0, 0, 0, 5⟩) ∧
    decode 0x85390705#32 0x05000007#32 = .ok (.vcmpInt ⟨2, 0x83, 0x105, 5, 0, 0, 0, 0, 7⟩) ∧
    decode 0x843D0705#32 0x00000001#32 = .ok (.vsel ⟨0, 0x83, 0x105, 0, 0, 0, 0, 0, 1⟩) := by
  repeat' apply And.intro
  all_goals rfl

theorem decode_vfp :
    decode 0x87810705#32 0x00000108#32 = .ok (.vaddFp ⟨3, 0x83, 0x105, 0, 0, 0, 0, 1, 8⟩) ∧
    decode 0x87850705#32 0x00000209#32 = .ok (.vsubFp ⟨3, 0x83, 0x105, 0, 0, 0, 0, 2, 9⟩) ∧
    decode 0x87890705#32 0x0000030A#32 = .ok (.vmulFp ⟨3, 0x83, 0x105, 0, 0, 0, 0, 3, 0xA⟩) ∧
    decode 0x860D0705#32 0x0000040B#32 = .ok (.vfma ⟨0, 0x83, 0x105, 0, 0, 0, 0, 4, 0xB⟩) ∧
    decode 0x86110705#32 0x00000508#32 = .ok (.vfms ⟨0, 0x83, 0x105, 0, 0, 0, 0, 5, 8⟩) ∧
    decode 0x87150705#32 0x0000000B#32 = .ok (.vminFp ⟨2, 0x83, 0x105, 0, 0, 0, 0, 0, 0xB⟩) ∧
    decode 0x87190705#32 0x0000000A#32 = .ok (.vmaxFp ⟨2, 0x83, 0x105, 0, 0, 0, 0, 0, 0xA⟩) ∧
    decode 0x871D0705#32 0x00000009#32 = .ok (.vabsFp ⟨2, 0x83, 0x105, 0, 0, 0, 0, 0, 9⟩) ∧
    decode 0x87210705#32 0x00000008#32 = .ok (.vnegFp ⟨2, 0x83, 0x105, 0, 0, 0, 0, 0, 8⟩) ∧
    decode 0x87250705#32 0x06000009#32 = .ok (.vcmpFp ⟨2, 0x83, 0x105, 6, 0, 0, 0, 0, 9⟩) ∧
    decode 0x87290705#32 0x00000509#32 = .ok (.vrcp ⟨2, 0x83, 0x105, 0, 0, 0, 0, 5, 9⟩) ∧
    decode 0x872D0705#32 0x00000409#32 = .ok (.vrsq ⟨2, 0x83, 0x105, 0, 0, 0, 0, 4, 9⟩) ∧
    decode 0x87310705#32 0x00000309#32 = .ok (.vexp2 ⟨2, 0x83, 0x105, 0, 0, 0, 0, 3, 9⟩) ∧
    decode 0x87350705#32 0x00000209#32 = .ok (.vlog2 ⟨2, 0x83, 0x105, 0, 0, 0, 0, 2, 9⟩) := by
  repeat' apply And.intro
  all_goals rfl

theorem decode_vector :
    decode 0x89010705#32 0x0309050C#32 = .ok (.vcvt ⟨2, 0x83, 0x105, 3, 0, 9, 0, 5, 0xC⟩) ∧
    decode 0x8B010705#32 0x00000004#32 = .ok (.vshuf ⟨2, 0x83, 0x105, 0, 0, 0, 0, 0, 4⟩) ∧
    decode 0x8B050705#32 0x00000003#32 = .ok (.vbcast ⟨2, 0x83, 0x105, 0, 0, 0, 0, 0, 3⟩) ∧
    decode 0x8B090705#32 0x3F000000#32 = .ok (.vins ⟨2, 0x83, 0x105, 0x3F, 0, 0, 0, 0, 0⟩) ∧
    decode 0x8B0D0705#32 0x1F000005#32 = .ok (.vext ⟨2, 0x83, 0x105, 0x1F, 0, 0, 0, 0, 5⟩) ∧
    decode 0x8D010705#32 0x02000009#32 = .ok (.vred ⟨2, 0x83, 0x105, 2, 0, 0, 0, 0, 9⟩) ∧
    decode 0x8D050705#32 0x00008006#32 = .ok (.vscan ⟨2, 0x83, 0x105, 0, 0, 0, 1, 0, 6⟩) ∧
    decode 0x8C090705#32 0x0009040D#32 = .ok (.vdot ⟨0, 0x83, 0x105, 0, 0, 9, 0, 4, 0xD⟩) ∧
    decode 0x8F010705#32 0x00090110#32 = .ok (.vmxq ⟨2, 0x83, 0x105, 0, 0, 9, 0, 1, 0x10⟩) ∧
    decode 0x8F050705#32 0x010E0009#32 = .ok (.vmxdq ⟨2, 0x83, 0x105, 1, 0, 0xE, 0, 0, 9⟩) ∧
    decode 0x8F090705#32 0x00E00012#32 = .ok (.vnipack ⟨2, 0x83, 0x105, 0, 7, 0, 0, 0, 0x12⟩) ∧
    decode 0x8F0D0705#32 0x00920000#32 = .ok (.vniunpack ⟨2, 0x83, 0x105, 0, 4, 0x12, 0, 0, 0⟩) := by
  repeat' apply And.intro
  all_goals rfl

theorem decode_matrix :
    decode 0x91010705#32 0x00000031#32 = .ok (.mclaim ⟨2, 0x83, 0x105, 1, 0x11⟩) ∧
    decode 0x9187FFFF#32 0x00000012#32 = .ok (.mrel ⟨3, 0x12⟩) ∧
    decode 0x900BFFFF#32 0xAB554803#32 = .ok (.mshape ⟨0, 0x55, 0x2AA, 0x12, 3⟩) ∧
    decode 0x92010705#32 0x80FEA609#32 = .ok (.mload ⟨0x83, 0x105, 0x40, 0x3F, 5, 2, 3, 9⟩) ∧
    decode 0x92050705#32 0x03F9581E#32 = .ok (.mstore ⟨0x83, 0x105, 1, 0x7E, 2, 5, 4, 0x1E⟩) ∧
    decode 0x930BFFFF#32 0xFF400004#32 = .ok (.mrow ⟨2, 0x1FF, 0x1FF, 0x7F, 5, 4⟩) ∧
    decode 0x938D0705#32 0x02800005#32 = .ok (.mrowr ⟨3, 0x83, 0x105, 1, 2, 5⟩) ∧
    decode 0x93110705#32 0x83550006#32 = .ok (.mcol ⟨2, 0x83, 0x105, 0x41, 0x155, 6⟩) ∧
    decode 0x9317FFFF#32 0x7CAA0007#32 = .ok (.mcolw ⟨2, 0x1FF, 0x1FF, 0x3E, 0xAA, 7⟩) ∧
    decode 0x95010705#32 0x00000008#32 = .ok (.mzero ⟨2, 0x83, 0x105, 8⟩) ∧
    decode 0x95050705#32 0xC000000A#32 = .ok (.mma ⟨2, 0x83, 0x105, 6, 0xA⟩) ∧
    decode 0x95090705#32 0x0000000B#32 = .ok (.mmas ⟨2, 0x83, 0x105, 0xB⟩) ∧
    decode 0x950D0705#32 0x6600000C#32 = .ok (.mscan ⟨2, 0x83, 0x105, 0x33, 0xC⟩) ∧
    decode 0x95110705#32 0xB000000D#32 = .ok (.maccr ⟨2, 0x83, 0x105, 5, 1, 0xD⟩) ∧
    decode 0x97010705#32 0x0000000E#32 = .ok (.mwait ⟨2, 0x83, 0x105, 0xE⟩) ∧
    decode 0x97850705#32 0x0000000F#32 = .ok (.mpoll ⟨3, 0x83, 0x105, 0xF⟩) := by
  repeat' apply And.intro
  all_goals rfl

theorem decode_lcell :
    decode 0x99010705#32 0x00163D56#32 = .ok (.lcload ⟨2, 0x83, 0x105, 5, 4, 3, 1, 0x2A, 0x16⟩) ∧
    decode 0x99850705#32 0x000C2FE1#32 = .ok (.lcsel ⟨3, 0x83, 0x105, 3, 2, 1, 0x3F, 1⟩) ∧
    decode 0x98090705#32 0x25063D56#32 = .ok (.lcin ⟨0x83, 0x105, 4, 5, 0, 1, 4, 3, 1, 0x2A, 0x16⟩) ∧
    decode 0x990D0705#32 0x002C1822#32 = .ok (.lcrun ⟨2, 0x83, 0x105, 0xB, 1, 1, 1, 2⟩) ∧
    decode 0x99110705#32 0x00063D56#32 = .ok (.lcout ⟨2, 0x83, 0x105, 1, 4, 3, 1, 0x2A, 0x16⟩) ∧
    decode 0x99150705#32 0x00000003#32 = .ok (.lcwait ⟨2, 0x83, 0x105, 3⟩) ∧
    decode 0x99190705#32 0 = .ok (.lcstat ⟨2, 0x83, 0x105⟩) := by
  repeat' apply And.intro
  all_goals rfl

theorem decode_copy :
    decode 0x9A010705#32 0xA58E3D56#32 = .ok (.cpy ⟨0x83, 0x105, 1, 9, 0xC, 3, 4, 3, 1, 0x2A, 0x16⟩) ∧
    decode 0x9A050705#32 0x00023D56#32 = .ok (.cpys ⟨0x83, 0x105, 4, 3, 1, 0x2A, 0x16⟩) ∧
    decode 0x9B0BFFFF#32 0x00000004#32 = .ok (.stfree ⟨2, 4⟩) ∧
    decode 0x9B8FFFFF#32 0x00000005#32 = .ok (.stclose ⟨3, 5⟩) ∧
    decode 0x9B110705#32 0x00000060#32 = .ok (.stq ⟨2, 0x83, 0x105, 3⟩) ∧
    decode 0x9B150705#32 0x00000006#32 = .ok (.cwait ⟨2, 0x83, 0x105, 6⟩) := by
  repeat' apply And.intro
  all_goals rfl

theorem decode_port :
    decode 0x9D010705#32 0x00002687#32 = .ok (.send ⟨2, 0x83, 0x105, 4, 6, 1, 7⟩) ∧
    decode 0x9D850705#32 0x00002988#32 = .ok (.sendt ⟨3, 0x83, 0x105, 5, 1, 1, 8⟩) ∧
    decode 0x9D0BFFFF#32 0x00000009#32 = .ok (.portcfg ⟨2, 9⟩) ∧
    decode 0x9C0FFFFF#32 0x0000000A#32 = .ok (.patset ⟨0xA⟩) ∧
    decode 0x9D13FFFF#32 0x0000000B#32 = .ok (.patclr ⟨2, 0xB⟩) ∧
    decode 0x9D150705#32 0 = .ok (.portq ⟨2, 0x83, 0x105⟩) ∧
    decode 0x9D1BFFFF#32 0x0000000C#32 = .ok (.hend ⟨2, 0xC⟩) := by
  repeat' apply And.intro
  all_goals rfl

theorem decode_thread :
    decode 0x9E010705#32 0x0000180D#32 = .ok (.spawn ⟨0x83, 0x105, 3, 0xD⟩) ∧
    decode 0x9E050705#32 0x0000280E#32 = .ok (.spawnp ⟨0x83, 0x105, 5, 0xE⟩) ∧
    decode 0x9F090705#32 0 = .ok (.compose ⟨2, 0x83, 0x105⟩) ∧
    decode 0x9F8D0705#32 0 = .ok (.decomp ⟨3, 0x83, 0x105⟩) ∧
    decode 0x9F110705#32 0 = .ok (.follow ⟨2, 0x83, 0x105⟩) ∧
    decode 0x9F17FFFF#32 0 = .ok (.unfollow ⟨2⟩) ∧
    decode 0x9F9BFFFF#32 0 = .ok (.rejoin ⟨3⟩) ∧
    decode 0x9F1FFFFF#32 0x0000000F#32 = .ok (.tend ⟨2, 0xF⟩) := by
  repeat' apply And.intro
  all_goals rfl

theorem decode_system :
    decode 0xA103FFFF#32 0x00BEEF00#32 = .ok (.trap ⟨2, 0xBEEF⟩) ∧
    decode 0xA187FFFF#32 0x000000A0#32 = .ok (.eret ⟨3, 5⟩) ∧
    decode 0xA1090705#32 0x00000010#32 = .ok (.srr ⟨2, 0x83, 0x105, 0x10⟩) ∧
    decode 0xA10FFFFF#32 0x00000011#32 = .ok (.srw ⟨2, 0x11⟩) ∧
    decode 0xA113FFFF#32 0x00002052#32 = .ok (.tlbinv ⟨2, 4, 1, 0x12⟩) ∧
    decode 0xA117FFFF#32 0x00000013#32 = .ok (.ctxkill ⟨2, 0x13⟩) ∧
    decode 0xA1190705#32 0x00000500#32 = .ok (.perfr ⟨2, 0x83, 0x105, 5⟩) := by
  repeat' apply And.intro
  all_goals rfl


/-! ### Ill-formed terms

A term for each check of `Instr.wellFormed`: a form that is well formed with one field changed to a value that the rule refuses. -/

/-- R262 to R264, R274. -/
theorem ill_formed_memory :
    ([.ld ⟨2, 0x83, 0x105, 0x1FF8, 1, 0, 1, 4, 2, 5, 0x15⟩, .ld ⟨2, 0x83, 0x105, 0x1FF8, 1, 0, 1, 4, 5, 2, 0x15⟩, .ld ⟨2,
      0x83, 0x105, 0x1FF8, 1, 0, 1, 6, 2, 2, 0x15⟩, .ld ⟨2, 0x83, 0x105, 0x1FF8, 1, 0, 1, 4, 2, 3, 0x15⟩, .ld ⟨2, 0x83, 0x105,
      0x1FF8, 1, 3, 1, 4, 2, 2, 0x15⟩, .ld ⟨2, 0x83, 0x105, 0x1FF8, 1, 0, 2, 4, 2, 2, 0x15⟩, .ld ⟨2, 0x83, 0x105, 0x1FF8, 1,
      1, 1, 4, 2, 2, 0x15⟩, .st ⟨2, 0x1FF, 5, 8, 0, 2, 0, 1, 4, 4, 0x15⟩, .st ⟨2, 0x1FF, 0x1FF, 8, 1, 2, 0, 1, 4, 4, 0x15⟩,
      .st ⟨2, 0x1FF, 0x1FF, 8, 0, 3, 0, 1, 4, 4, 0x15⟩, .st ⟨2, 0x1FF, 0x1FF, 8, 0, 2, 1, 1, 4, 4, 0x15⟩, .st ⟨2, 0x1FF,
      0x1FF, 8, 0, 2, 2, 1, 4, 4, 0x15⟩, .gather ⟨3, 0x83, 0x105, 3, 0, 0, 0, 0, 1, 0, 0x15⟩, .gather ⟨3, 0x83, 0x105, 3, 1,
      0, 0, 0, 1, 3, 0x15⟩, .gather ⟨3, 0x83, 0x105, 3, 0, 1, 0, 0, 1, 3, 0x15⟩, .gather ⟨3, 0x83, 0x105, 3, 0, 0, 1, 0, 1, 3,
      0x15⟩, .gather ⟨3, 0x83, 0x105, 8, 0, 0, 0, 0, 1, 3, 0x15⟩, .scatter ⟨0, 5, 0x1FF, 2, 0, 0, 0, 0, 1, 2, 0x15⟩, .scatter
      ⟨2, 0x1FF, 0x1FF, 2, 0, 0, 0, 0, 1, 2, 0x15⟩, .pref ⟨2, 0x1FF, 5, 0x40, 0, 1, 0, 0, 3, 0, 0x15⟩, .pref ⟨2, 0x1FF, 0x1FF,
      0x40, 0, 1, 0, 0, 3, 1, 0x15⟩, .pref ⟨2, 0x1FF, 0x1FF, 0x40, 1, 1, 0, 0, 3, 0, 0x15⟩, .pref ⟨2, 0x1FF, 0x1FF, 0x40, 0,
      2, 0, 0, 3, 0, 0x15⟩, .pref ⟨2, 0x1FF, 0x1FF, 0x40, 0, 1, 1, 0, 3, 0, 0x15⟩] ++
     [.pref ⟨2, 0x1FF, 0x1FF, 0x40, 0, 1, 0, 0, 4, 0, 0x15⟩, .pref ⟨2, 0x1FF, 0x1FF, 0x40, 0, 1, 0, 1, 3, 0, 0x15⟩, .lflush
      ⟨2, 5, 0x1FF, 0x1000, 0, 0, 0, 0, 0, 0, 0x15⟩, .lflush ⟨2, 0x1FF, 0x1FF, 0x1000, 0, 0, 0, 0, 0, 1, 0x15⟩, .linv ⟨2,
      0x1FF, 0x1FF, 0xFFF, 1, 0, 0, 0, 0, 0, 0x15⟩, .linv ⟨2, 0x1FF, 0x1FF, 0xFFF, 0, 1, 0, 0, 0, 0, 0x15⟩, .linv ⟨2, 0x1FF,
      0x1FF, 0xFFF, 0, 0, 1, 0, 0, 0, 0x15⟩, .linv ⟨2, 0x1FF, 0x1FF, 0xFFF, 0, 0, 0, 0, 1, 0, 0x15⟩, .linv ⟨2, 0x1FF, 0x1FF,
      0xFFF, 0, 0, 0, 1, 0, 0, 0x15⟩, .aadd ⟨2, 0x83, 0x105, 0, 0, 0, 0, 0, 0, 1, 0x15⟩, .aand ⟨2, 0x83, 0x105, 1, 1, 0, 1, 1,
      4, 3, 0x15⟩, .aor ⟨2, 0x83, 0x105, 2, 0, 1, 2, 2, 0, 2, 0x15⟩, .axor ⟨2, 0x83, 0x105, 3, 0, 0, 3, 3, 1, 3, 0x15⟩, .amin
      ⟨2, 0x83, 0x105, 4, 0, 0, 0, 6, 0, 2, 0x15⟩, .acas ⟨2, 0x83, 0x105, 0x10, 0, 0, 3, 5, 0, 3, 0x15⟩, .afaddF32 ⟨2, 0x83,
      0x105, 1, 0, 0, 0, 0, 0, 3, 0x15⟩, .fence ⟨2, 0x1FF, 5, 0, 3, 3, 1⟩, .fence ⟨2, 0x1FF, 0x1FF, 0, 0, 3, 1⟩, .fence ⟨2,
      0x1FF, 0x1FF, 1, 3, 3, 1⟩, .fence ⟨2, 0x1FF, 0x1FF, 0, 3, 7, 1⟩, .bara ⟨0, 0x1FF, 0x1FF, 2, 1, 2, 1⟩, .bara ⟨0, 0x1FF,
      0x1FF, 2, 0, 6, 1⟩, .bara ⟨0, 0x1FF, 0x1FF, 2, 0, 0, 1⟩, .bara ⟨0, 5, 0x1FF, 2, 0, 2, 1⟩] ++
     [.barw ⟨0, 0x83, 0x105, 0xF, 0, 0, 0x1F⟩] : List Instr).all (fun i => !i.wellFormed) = true := by
  decide +kernel

/-- R283 to R295. -/
theorem ill_formed_vector :
    ([.vaddInt ⟨2, 0x83, 0x105, 0, 1, 0, 1, 0, 1⟩, .vaddInt ⟨2, 0x83, 0x105, 0, 0, 1, 1, 0, 1⟩, .vaddInt ⟨2, 0x83, 0x105, 0,
      0, 0, 1, 1, 1⟩, .vaddInt ⟨2, 0x83, 0x105, 1, 0, 0, 1, 0, 1⟩, .vaddInt ⟨2, 0x83, 0x105, 0, 0, 0, 1, 0, 8⟩, .vmulh ⟨2,
      0x83, 0x105, 0, 0, 0, 1, 0, 5⟩, .vmulh ⟨2, 0x83, 0x105, 1, 0, 0, 0, 0, 5⟩, .vmulh ⟨2, 0x83, 0x105, 0, 0, 0, 0, 0, 8⟩,
      .vabsInt ⟨2, 0x83, 0x105, 0, 0, 0, 1, 0, 4⟩, .vcmpInt ⟨2, 0x83, 0x105, 6, 0, 0, 0, 0, 7⟩, .vcmpInt ⟨2, 0x83, 0x105, 5,
      0, 0, 0, 0, 8⟩, .vsel ⟨2, 0x83, 0x105, 0, 0, 0, 0, 0, 1⟩, .vaddFp ⟨3, 0x83, 0x105, 0, 0, 0, 1, 1, 8⟩, .vaddFp ⟨3, 0x83,
      0x105, 0, 1, 0, 0, 1, 8⟩, .vaddFp ⟨3, 0x83, 0x105, 0, 0, 1, 0, 1, 8⟩, .vaddFp ⟨3, 0x83, 0x105, 1, 0, 0, 0, 1, 8⟩,
      .vaddFp ⟨3, 0x83, 0x105, 0, 0, 0, 0, 6, 8⟩, .vaddFp ⟨3, 0x83, 0x105, 0, 0, 0, 0, 1, 0xC⟩, .vfma ⟨2, 0x83, 0x105, 0, 0,
      0, 0, 4, 0xB⟩, .vminFp ⟨2, 0x83, 0x105, 0, 0, 0, 0, 1, 0xB⟩, .vminFp ⟨2, 0x83, 0x105, 1, 0, 0, 0, 0, 0xB⟩, .vminFp ⟨2,
      0x83, 0x105, 0, 0, 0, 0, 0, 7⟩, .vcmpFp ⟨2, 0x83, 0x105, 7, 0, 0, 0, 0, 9⟩, .vcmpFp ⟨2, 0x83, 0x105, 6, 0, 0, 0, 0, 7⟩] ++
     [.vrcp ⟨2, 0x83, 0x105, 0, 0, 0, 0, 5, 8⟩, .vcvt ⟨2, 0x83, 0x105, 3, 1, 9, 0, 5, 0xC⟩, .vcvt ⟨2, 0x83, 0x105, 3, 0, 9,
      0, 5, 0xE⟩, .vcvt ⟨2, 0x83, 0x105, 3, 0, 0xE, 0, 5, 0xC⟩, .vcvt ⟨2, 0x83, 0x105, 0, 0, 9, 0, 5, 9⟩, .vcvt ⟨2, 0x83,
      0x105, 4, 0, 9, 0, 5, 0xC⟩, .vcvt ⟨2, 0x83, 0x105, 3, 0, 9, 0, 6, 0xC⟩, .vcvt ⟨2, 0x83, 0x105, 3, 0, 9, 1, 5, 0xC⟩,
      .vcvt ⟨2, 0x83, 0x105, 0, 0, 1, 0, 1, 0⟩, .vcvt ⟨2, 0x83, 0x105, 0, 0, 9, 1, 0, 2⟩, .vcvt ⟨2, 0x83, 0x105, 0, 0, 9, 0,
      1, 8⟩, .vshuf ⟨2, 0x83, 0x105, 1, 0, 0, 0, 0, 4⟩, .vshuf ⟨2, 0x83, 0x105, 0, 0, 0, 0, 0, 8⟩, .vins ⟨2, 0x83, 0x105,
      0x40, 0, 0, 0, 0, 0⟩, .vext ⟨2, 0x83, 0x105, 0x1F, 0, 0, 0, 0, 8⟩, .vred ⟨2, 0x83, 0x105, 2, 1, 0, 0, 0, 9⟩, .vred ⟨2,
      0x83, 0x105, 2, 0, 1, 0, 0, 9⟩, .vred ⟨2, 0x83, 0x105, 2, 0, 0, 0, 0, 0xE⟩, .vred ⟨2, 0x83, 0x105, 3, 0, 0, 0, 0, 9⟩,
      .vred ⟨2, 0x83, 0x105, 2, 0, 0, 1, 0, 9⟩, .vred ⟨2, 0x83, 0x105, 0, 0, 0, 0, 6, 9⟩, .vred ⟨2, 0x83, 0x105, 2, 0, 0, 0,
      1, 9⟩, .vscan ⟨2, 0x83, 0x105, 0, 0, 0, 1, 1, 6⟩, .vscan ⟨2, 0x83, 0x105, 1, 0, 0, 1, 0, 6⟩] ++
     [.vdot ⟨2, 0x83, 0x105, 0, 0, 9, 0, 4, 0xD⟩, .vdot ⟨0, 0x83, 0x105, 0, 1, 9, 0, 4, 0xD⟩, .vdot ⟨0, 0x83, 0x105, 1, 0, 9,
      0, 4, 0xD⟩, .vdot ⟨0, 0x83, 0x105, 0, 0, 9, 1, 4, 0xD⟩, .vdot ⟨0, 0x83, 0x105, 0, 0, 9, 0, 4, 8⟩, .vdot ⟨0, 0x83, 0x105,
      0, 0, 2, 0, 1, 0⟩, .vmxq ⟨2, 0x83, 0x105, 0, 0, 9, 1, 1, 0x10⟩, .vmxq ⟨2, 0x83, 0x105, 0, 1, 9, 0, 1, 0x10⟩, .vmxq ⟨2,
      0x83, 0x105, 1, 0, 9, 0, 1, 0x10⟩, .vmxq ⟨2, 0x83, 0x105, 0, 0, 9, 0, 6, 0x10⟩, .vmxq ⟨2, 0x83, 0x105, 0, 0, 9, 0, 1,
      0xB⟩, .vmxq ⟨2, 0x83, 0x105, 0, 0, 0xA, 0, 1, 0x10⟩, .vmxdq ⟨2, 0x83, 0x105, 1, 0, 0xE, 1, 0, 9⟩, .vmxdq ⟨2, 0x83,
      0x105, 1, 1, 0xE, 0, 0, 9⟩, .vmxdq ⟨2, 0x83, 0x105, 1, 0, 0xE, 0, 6, 9⟩, .vmxdq ⟨2, 0x83, 0x105, 1, 0, 0xB, 0, 0, 9⟩,
      .vmxdq ⟨2, 0x83, 0x105, 2, 0, 0xE, 0, 0, 9⟩, .vmxdq ⟨2, 0x83, 0x105, 1, 0, 0xE, 0, 0, 0xA⟩, .vnipack ⟨2, 0x83, 0x105, 0,
      7, 0, 1, 0, 0x12⟩, .vnipack ⟨2, 0x83, 0x105, 0, 7, 0, 0, 1, 0x12⟩, .vnipack ⟨2, 0x83, 0x105, 1, 7, 0, 0, 0, 0x12⟩,
      .vnipack ⟨2, 0x83, 0x105, 0, 7, 0, 0, 0, 0⟩, .vnipack ⟨2, 0x83, 0x105, 0, 7, 1, 0, 0, 0x12⟩, .vnipack ⟨2, 0x83, 0x105,
      0, 6, 0, 0, 0, 0x12⟩] ++
     [.vniunpack ⟨2, 0x83, 0x105, 0, 4, 0x12, 1, 0, 0⟩, .vniunpack ⟨2, 0x83, 0x105, 0, 4, 0x12, 0, 1, 0⟩, .vniunpack ⟨2,
      0x83, 0x105, 1, 4, 0x12, 0, 0, 0⟩, .vniunpack ⟨2, 0x83, 0x105, 0, 4, 0x12, 0, 0, 1⟩, .vniunpack ⟨2, 0x83, 0x105, 0, 4,
      0, 0, 0, 0⟩, .vniunpack ⟨2, 0x83, 0x105, 0, 0, 0x12, 0, 0, 0⟩] : List Instr).all (fun i => !i.wellFormed) = true := by
  decide +kernel

/-- R302, R304, R361, R378, R347, R404, R429. -/
theorem ill_formed_engines_and_system :
    ([.mshape ⟨0, 0x55, 0x2AA, 3, 3⟩, .mload ⟨0x83, 0x105, 0x40, 0x3F, 5, 2, 5, 9⟩, .mstore ⟨0x83, 0x105, 1, 0x7E, 2, 6, 4,
      0x1E⟩, .mrow ⟨2, 0x1FF, 5, 0x7F, 5, 4⟩, .mcolw ⟨2, 5, 0x1FF, 0x3E, 0xAA, 7⟩, .maccr ⟨2, 0x83, 0x105, 6, 1, 0xD⟩, .lcload
      ⟨2, 0x83, 0x105, 6, 4, 3, 1, 0x2A, 0x16⟩, .lcload ⟨2, 0x83, 0x105, 5, 5, 3, 1, 0x2A, 0x16⟩, .lcload ⟨2, 0x83, 0x105, 5,
      4, 6, 1, 0x2A, 0x16⟩, .lcload ⟨2, 0x83, 0x105, 5, 4, 3, 0, 0x2A, 0x16⟩, .lcsel ⟨3, 0x83, 0x105, 7, 2, 1, 0x3F, 1⟩,
      .lcsel ⟨3, 0x83, 0x105, 3, 6, 1, 0x3F, 1⟩, .lcsel ⟨3, 0x83, 0x105, 3, 2, 0, 0x3F, 1⟩, .lcin ⟨0x83, 0x105, 1, 5, 0, 1, 4,
      3, 1, 0x2A, 0x16⟩, .lcin ⟨0x83, 0x105, 2, 0, 1, 1, 4, 3, 1, 0x2A, 0x16⟩, .lcin ⟨0x83, 0x105, 4, 1, 1, 1, 4, 3, 1, 0x2A,
      0x16⟩, .lcin ⟨0x83, 0x105, 4, 5, 0, 1, 7, 3, 1, 0x2A, 0x16⟩, .lcin ⟨0x83, 0x105, 4, 5, 0, 1, 4, 7, 1, 0x2A, 0x16⟩, .lcin
      ⟨0x83, 0x105, 4, 5, 0, 1, 4, 3, 0, 0x2A, 0x16⟩, .lcrun ⟨2, 0x83, 0x105, 0xB, 6, 1, 1, 2⟩, .lcrun ⟨2, 0x83, 0x105, 0xB,
      1, 0, 1, 2⟩, .lcout ⟨2, 0x83, 0x105, 1, 5, 3, 1, 0x2A, 0x16⟩, .lcout ⟨2, 0x83, 0x105, 1, 4, 6, 1, 0x2A, 0x16⟩, .lcout
      ⟨2, 0x83, 0x105, 1, 4, 3, 0, 0x2A, 0x16⟩] ++
     [.lcwait ⟨2, 0x1FF, 0x1FF, 3⟩, .lcstat ⟨2, 0x1FF, 0x1FF⟩, .cpy ⟨0x83, 0x105, 1, 9, 0xC, 3, 5, 3, 1, 0x2A, 0x16⟩, .cpy
      ⟨0x83, 0x105, 1, 9, 0xC, 3, 4, 6, 1, 0x2A, 0x16⟩, .cpy ⟨0x83, 0x105, 1, 9, 0xC, 3, 4, 3, 0, 0x2A, 0x16⟩, .cpy ⟨0x83,
      0x105, 1, 0xE, 0xC, 3, 4, 3, 1, 0x2A, 0x16⟩, .cpy ⟨0x83, 0x105, 1, 9, 0xE, 3, 4, 3, 1, 0x2A, 0x16⟩, .cpy ⟨0x83, 0x105,
      1, 0xC, 0xC, 3, 4, 3, 1, 0x2A, 0x16⟩, .cpy ⟨0x83, 0x105, 1, 9, 0xC, 6, 4, 3, 1, 0x2A, 0x16⟩, .cpy ⟨0x83, 0x105, 0, 9,
      0xC, 3, 4, 3, 1, 0x2A, 0x16⟩, .cpys ⟨0x83, 0x105, 5, 3, 1, 0x2A, 0x16⟩, .cpys ⟨0x83, 0x105, 4, 6, 1, 0x2A, 0x16⟩, .cpys
      ⟨0x83, 0x105, 4, 3, 0, 0x2A, 0x16⟩, .stq ⟨2, 0x1FF, 0x1FF, 3⟩, .cwait ⟨2, 0x1FF, 0x1FF, 6⟩, .send ⟨2, 0x83, 0x105, 6, 6,
      1, 7⟩, .send ⟨2, 0x83, 0x105, 4, 6, 0, 7⟩, .sendt ⟨3, 0x83, 0x105, 7, 1, 1, 8⟩, .sendt ⟨3, 0x83, 0x105, 5, 1, 0, 8⟩,
      .spawn ⟨0x83, 0x105, 6, 0xD⟩, .spawnp ⟨0x83, 0x105, 7, 0xE⟩, .srr ⟨2, 0x1FF, 0x1FF, 0x10⟩, .perfr ⟨2, 0x1FF, 0x1FF, 5⟩,
      .tlbinv ⟨2, 1, 1, 0x12⟩] ++
     [.tlbinv ⟨2, 6, 1, 0x12⟩, .tlbinv ⟨2, 4, 2, 0x12⟩] : List Instr).all (fun i => !i.wellFormed) = true := by
  decide +kernel

/-- R190 and R193: PRED 01, and a target of the reserved kind. -/
theorem ill_formed_block :
    ([.add ⟨1, 0x83, 0x105⟩, .ldd ⟨1, 0x13, 0x155, 0x105⟩, .br ⟨1, 5, 0xABCDE⟩, .add ⟨2, 0x83, 0x1A0⟩, .add ⟨2, 0x1FE,
      0x105⟩, .mov4 ⟨2, 0x83, 0x105, 0xAA, 0x1A0⟩, .movi ⟨0xBEEF, 0x1C0⟩, .ldd ⟨3, 0x13, 0x155, 0x1FE⟩] : List Instr).all (fun i => !i.wellFormed) = true := by
  decide +kernel

/-- The forms that the terms above change are well formed. -/
theorem well_formed :
    ([.aadd ⟨2, 0x83, 0x105, 0, 0, 0, 0, 0, 0, 2, 0x15⟩, .aand ⟨2, 0x83, 0x105, 1, 0, 0, 1, 1, 4, 3, 0x15⟩, .acas ⟨0, 0x83,
      0x105, 0x10, 0, 0, 3, 5, 0, 3, 0x15⟩, .add ⟨2, 0x83, 0x105⟩, .afaddF32 ⟨2, 0x83, 0x105, 1, 0, 0, 0, 0, 0, 2, 0x15⟩,
      .amin ⟨2, 0x83, 0x105, 4, 0, 0, 0, 4, 0, 2, 0x15⟩, .aor ⟨2, 0x83, 0x105, 2, 0, 0, 2, 2, 0, 2, 0x15⟩, .axor ⟨2, 0x83,
      0x105, 3, 0, 0, 3, 3, 4, 3, 0x15⟩, .bara ⟨0, 0x1FF, 0x1FF, 2, 0, 2, 1⟩, .barw ⟨0, 0x83, 0x105, 0xF, 0, 5, 0x1F⟩, .br ⟨3,
      5, 0xABCDE⟩, .cpy ⟨0x83, 0x105, 1, 9, 0xC, 3, 4, 3, 1, 0x2A, 0x16⟩, .cpys ⟨0x83, 0x105, 4, 3, 1, 0x2A, 0x16⟩, .cwait ⟨2,
      0x83, 0x105, 6⟩, .fence ⟨2, 0x1FF, 0x1FF, 0, 3, 3, 1⟩, .gather ⟨3, 0x83, 0x105, 3, 0, 0, 0, 0, 1, 3, 0x15⟩, .lcin ⟨0x83,
      0x105, 4, 5, 0, 1, 4, 3, 1, 0x2A, 0x16⟩, .lcload ⟨2, 0x83, 0x105, 5, 4, 3, 1, 0x2A, 0x16⟩, .lcout ⟨2, 0x83, 0x105, 1, 4,
      3, 1, 0x2A, 0x16⟩, .lcrun ⟨2, 0x83, 0x105, 0xB, 1, 1, 1, 2⟩, .lcsel ⟨3, 0x83, 0x105, 3, 2, 1, 0x3F, 1⟩, .lcstat ⟨2,
      0x83, 0x105⟩, .lcwait ⟨2, 0x83, 0x105, 3⟩, .ld ⟨2, 0x83, 0x105, 0x1FF8, 1, 0, 1, 4, 2, 2, 0x15⟩] ++
     [.ldd ⟨3, 0x13, 0x155, 0x105⟩, .lflush ⟨2, 0x1FF, 0x1FF, 0x1000, 0, 0, 0, 0, 0, 0, 0x15⟩, .linv ⟨2, 0x1FF, 0x1FF, 0xFFF,
      0, 0, 0, 0, 0, 0, 0x15⟩, .maccr ⟨2, 0x83, 0x105, 5, 1, 0xD⟩, .mcolw ⟨2, 0x1FF, 0x1FF, 0x3E, 0xAA, 7⟩, .mload ⟨0x83,
      0x105, 0x40, 0x3F, 5, 2, 3, 9⟩, .mov4 ⟨2, 0x83, 0x105, 0xAA, 0x155⟩, .movi ⟨0xBEEF, 0x105⟩, .mrow ⟨2, 0x1FF, 0x1FF,
      0x7F, 5, 4⟩, .mshape ⟨0, 0x55, 0x2AA, 0x12, 3⟩, .mstore ⟨0x83, 0x105, 1, 0x7E, 2, 5, 4, 0x1E⟩, .perfr ⟨2, 0x83, 0x105,
      5⟩, .pref ⟨2, 0x1FF, 0x1FF, 0x40, 0, 1, 0, 0, 3, 0, 0x15⟩, .scatter ⟨0, 0x1FF, 0x1FF, 2, 0, 0, 0, 0, 1, 2, 0x15⟩, .send
      ⟨2, 0x83, 0x105, 4, 6, 1, 7⟩, .sendt ⟨3, 0x83, 0x105, 5, 1, 1, 8⟩, .spawn ⟨0x83, 0x105, 3, 0xD⟩, .spawnp ⟨0x83, 0x105,
      5, 0xE⟩, .srr ⟨2, 0x83, 0x105, 0x10⟩, .st ⟨2, 0x1FF, 0x1FF, 8, 0, 2, 0, 1, 4, 4, 0x15⟩, .stq ⟨2, 0x83, 0x105, 3⟩,
      .tlbinv ⟨2, 4, 1, 0x12⟩, .vabsInt ⟨2, 0x83, 0x105, 0, 0, 0, 1, 0, 3⟩, .vaddFp ⟨3, 0x83, 0x105, 0, 0, 0, 0, 1, 8⟩] ++
     [.vaddInt ⟨2, 0x83, 0x105, 0, 0, 0, 1, 0, 1⟩, .vcmpFp ⟨2, 0x83, 0x105, 6, 0, 0, 0, 0, 9⟩, .vcmpInt ⟨2, 0x83, 0x105, 5,
      0, 0, 0, 0, 7⟩, .vcvt ⟨2, 0x83, 0x105, 3, 0, 9, 0, 5, 0xC⟩, .vdot ⟨0, 0x83, 0x105, 0, 0, 9, 0, 4, 0xD⟩, .vext ⟨2, 0x83,
      0x105, 0x1F, 0, 0, 0, 0, 5⟩, .vfma ⟨0, 0x83, 0x105, 0, 0, 0, 0, 4, 0xB⟩, .vins ⟨2, 0x83, 0x105, 0x3F, 0, 0, 0, 0, 0⟩,
      .vminFp ⟨2, 0x83, 0x105, 0, 0, 0, 0, 0, 0xB⟩, .vmulh ⟨2, 0x83, 0x105, 0, 0, 0, 0, 0, 5⟩, .vmxdq ⟨2, 0x83, 0x105, 1, 0,
      0xE, 0, 0, 9⟩, .vmxq ⟨2, 0x83, 0x105, 0, 0, 9, 0, 1, 0x10⟩, .vnipack ⟨2, 0x83, 0x105, 0, 7, 0, 0, 0, 0x12⟩, .vniunpack
      ⟨2, 0x83, 0x105, 0, 4, 0x12, 0, 0, 0⟩, .vrcp ⟨2, 0x83, 0x105, 0, 0, 0, 0, 5, 9⟩, .vred ⟨2, 0x83, 0x105, 2, 0, 0, 0, 0,
      9⟩, .vscan ⟨2, 0x83, 0x105, 0, 0, 0, 1, 0, 6⟩, .vsel ⟨0, 0x83, 0x105, 0, 0, 0, 0, 0, 1⟩, .vshuf ⟨2, 0x83, 0x105, 0, 0,
      0, 0, 0, 4⟩] : List Instr).all (·.wellFormed) = true := by
  decide +kernel


/-! ### Computing -/

theorem witness_scalar_arithmetic : ∃ (i : Instr) (p : BitVec 2) (m : Option Word) (ts : List (BitVec 9))
    (rel : Word → Word → Word → Prop) (s : State) (t : Thread) (f : Frame) (a b : Word),
    arithSpec i = some ((p, m, ts), rel) ∧ Fires s p t f ∧ HasTok f 0 s.cur.2.2 (.s a) ∧
    (match m with | none => HasTok f 1 s.cur.2.2 (.s b) | some x => b = x) := by
  let s := at5 (.add ⟨0, 0x1FF, 1⟩) [(5, .s 3), (133, .s 4)]
  refine ⟨.add ⟨0, 0x1FF, 1⟩, 0, none, _, _, s, th s, fr s, 3, 4, rfl, ⟨by decide +kernel, by decide +kernel, by decide +kernel⟩, by unfold HasTok; decide +kernel, ?_⟩
  first | rfl | (unfold HasTok; decide +kernel)

theorem witness_scalar_arithmetic_one : ∃ (i : Instr) (p : BitVec 2) (m : Option Word) (ts : List (BitVec 9))
    (rel : Word → Word → Word → Prop) (s : State) (t : Thread) (f : Frame) (a b : Word),
    arithSpec i = some ((p, m, ts), rel) ∧ Fires s p t f ∧ HasTok f 0 s.cur.2.2 (.s a) ∧
    (match m with | none => HasTok f 1 s.cur.2.2 (.s b) | some x => b = x) := by
  let s := at5 (.neg ⟨0, 0x1FF, 1⟩) [(5, .s 3)]
  refine ⟨.neg ⟨0, 0x1FF, 1⟩, 0, some 0, _, _, s, th s, fr s, 3, 0, rfl, ⟨by decide +kernel, by decide +kernel, by decide +kernel⟩, by unfold HasTok; decide +kernel, ?_⟩
  first | rfl | (unfold HasTok; decide +kernel)

theorem witness_scalar_bits : ∃ (i : Instr) (p : BitVec 2) (m : Option Word) (ts : List (BitVec 9))
    (rel : Word → Word → Word → Prop) (s : State) (t : Thread) (f : Frame) (a b : Word),
    bitSpec i = some ((p, m, ts), rel) ∧ Fires s p t f ∧ HasTok f 0 s.cur.2.2 (.s a) ∧
    (match m with | none => HasTok f 1 s.cur.2.2 (.s b) | some x => b = x) := by
  let s := at5 (.rol ⟨0, 0x1FF, 1⟩) [(5, .s 3), (133, .s 63)]
  refine ⟨.rol ⟨0, 0x1FF, 1⟩, 0, none, _, _, s, th s, fr s, 3, 63, rfl, ⟨by decide +kernel, by decide +kernel, by decide +kernel⟩, by unfold HasTok; decide +kernel, ?_⟩
  first | rfl | (unfold HasTok; decide +kernel)

theorem witness_scalar_tests : ∃ (i : Instr) (p : BitVec 2) (m : Option Word) (ts : List (BitVec 9))
    (rel : Word → Word → Word → Prop) (s : State) (t : Thread) (f : Frame) (a b : Word),
    testSpec i = some ((p, m, ts), rel) ∧ Fires s p t f ∧ HasTok f 0 s.cur.2.2 (.s a) ∧
    (match m with | none => HasTok f 1 s.cur.2.2 (.s b) | some x => b = x) := by
  let s := at5 (.tltW ⟨0, 0x1FF, 1⟩) [(5, .s 3), (133, .s 63)]
  refine ⟨.tltW ⟨0, 0x1FF, 1⟩, 0, none, _, _, s, th s, fr s, 3, 63, rfl, ⟨by decide +kernel, by decide +kernel, by decide +kernel⟩, by unfold HasTok; decide +kernel, ?_⟩
  first | rfl | (unfold HasTok; decide +kernel)

theorem witness_scalar_immediates : ∃ (i : Instr) (p : BitVec 2) (m : Option Word) (ts : List (BitVec 9))
    (rel : Word → Word → Word → Prop) (s : State) (t : Thread) (f : Frame) (a b : Word),
    immSpec i = some ((p, m, ts), rel) ∧ Fires s p t f ∧ HasTok f 0 s.cur.2.2 (.s a) ∧
    (match m with | none => HasTok f 1 s.cur.2.2 (.s b) | some x => b = x) := by
  let s := at5 (.addi ⟨0, 0x3FFF, 1⟩) [(5, .s 3)]
  refine ⟨.addi ⟨0, 0x3FFF, 1⟩, 0, some (-1), _, _, s, th s, fr s, 3, (-1), rfl, ⟨by decide +kernel, by decide +kernel, by decide +kernel⟩, by unfold HasTok; decide +kernel, ?_⟩
  first | rfl | (unfold HasTok; decide +kernel)

theorem witness_mov :
    ∃ (g : GF) (s : State) (t : Thread) (f : Frame) (x : Tok),
    Fires s g.p t f ∧ HasTok f 0 s.cur.2.2 x ∧ x ≠ .null  := by
  refine ⟨⟨0, 0x1FF, 1⟩, at5 (.mov ⟨0, 0x1FF, 1⟩) [(5, .v 7)], th (at5 (.mov ⟨0, 0x1FF, 1⟩) [(5, .v 7)]), fr (at5 (.mov ⟨0, 0x1FF, 1⟩) [(5, .v 7)]), .v 7, ?_⟩
  try dsimp only [Fires, HasTok, Arrived, FreshOp, FreshAt, Solo, AtHome, AtVault, HasReg, Untracked, Turn, Quiet, Calm, RoleOk, DistinctWrites, ReadyPlain]
  repeat' apply And.intro
  all_goals first | decide +kernel | exact holdsNothing_of _ _ (by decide +kernel) (by decide +kernel) | exact oldest_of_nil _ (by decide +kernel) | exact ok_of _ _ (by decide +kernel) | exact error_of _ _ (by decide +kernel) | exact forall_of_nil _ _ (by decide +kernel) | exact trivial

theorem witness_mov4 :
    ∃ (g : Mov4F) (s : State) (t : Thread) (f : Frame) (x : Tok),
    Fires s g.p t f ∧ HasTok f 0 s.cur.2.2 x ∧ x ≠ .null  := by
  refine ⟨⟨0, 0x1FF, 1, 2, 3⟩, at5 (.mov4 ⟨0, 0x1FF, 1, 2, 3⟩) [(5, .s 7)], th (at5 (.mov4 ⟨0, 0x1FF, 1, 2, 3⟩) [(5, .s 7)]), fr (at5 (.mov4 ⟨0, 0x1FF, 1, 2, 3⟩) [(5, .s 7)]), .s 7, ?_⟩
  try dsimp only [Fires, HasTok, Arrived, FreshOp, FreshAt, Solo, AtHome, AtVault, HasReg, Untracked, Turn, Quiet, Calm, RoleOk, DistinctWrites, ReadyPlain]
  repeat' apply And.intro
  all_goals first | decide +kernel | exact holdsNothing_of _ _ (by decide +kernel) (by decide +kernel) | exact oldest_of_nil _ (by decide +kernel) | exact ok_of _ _ (by decide +kernel) | exact error_of _ _ (by decide +kernel) | exact forall_of_nil _ _ (by decide +kernel) | exact trivial

theorem witness_hint :
    ∃ (g : HintF) (s : State) (t : Thread) (f : Frame) (x : Tok),
    Fires s g.p t f ∧ HasTok f 0 s.cur.2.2 x ∧ x ≠ .null  := by
  refine ⟨⟨0, 0, 0, 0x1FF, 1⟩, at5 (.hint ⟨0, 0, 0, 0x1FF, 1⟩) [(5, .s 7)], th (at5 (.hint ⟨0, 0, 0, 0x1FF, 1⟩) [(5, .s 7)]), fr (at5 (.hint ⟨0, 0, 0, 0x1FF, 1⟩) [(5, .s 7)]), .s 7, ?_⟩
  try dsimp only [Fires, HasTok, Arrived, FreshOp, FreshAt, Solo, AtHome, AtVault, HasReg, Untracked, Turn, Quiet, Calm, RoleOk, DistinctWrites, ReadyPlain]
  repeat' apply And.intro
  all_goals first | decide +kernel | exact holdsNothing_of _ _ (by decide +kernel) (by decide +kernel) | exact oldest_of_nil _ (by decide +kernel) | exact ok_of _ _ (by decide +kernel) | exact error_of _ _ (by decide +kernel) | exact forall_of_nil _ _ (by decide +kernel) | exact trivial

theorem witness_sel :
    ∃ (g : GF) (s : State) (t : Thread) (f : Frame) (a : Word) (x : Tok),
    Fires s g.p t f ∧
    HasTok f 0 s.cur.2.2 (.s a) ∧ HasTok f 1 s.cur.2.2 x ∧ x ≠ .null ∧
    a ≠ 0  := by
  refine ⟨⟨0, 0x1FF, 1⟩, at5 (.sel ⟨0, 0x1FF, 1⟩) [(5, .s 1), (133, .s 9)], th (at5 (.sel ⟨0, 0x1FF, 1⟩) [(5, .s 1), (133, .s 9)]), fr (at5 (.sel ⟨0, 0x1FF, 1⟩) [(5, .s 1), (133, .s 9)]), 1, .s 9, ?_⟩
  try dsimp only [Fires, HasTok, Arrived, FreshOp, FreshAt, Solo, AtHome, AtVault, HasReg, Untracked, Turn, Quiet, Calm, RoleOk, DistinctWrites, ReadyPlain]
  repeat' apply And.intro
  all_goals first | decide +kernel | exact holdsNothing_of _ _ (by decide +kernel) (by decide +kernel) | exact oldest_of_nil _ (by decide +kernel) | exact ok_of _ _ (by decide +kernel) | exact error_of _ _ (by decide +kernel) | exact forall_of_nil _ _ (by decide +kernel) | exact trivial

theorem witness_sel_zero :
    ∃ (g : GF) (s : State) (t : Thread) (f : Frame) (a : Word) (x : Tok),
    Fires s g.p t f ∧
    HasTok f 0 s.cur.2.2 (.s a) ∧ HasTok f 1 s.cur.2.2 x ∧ x ≠ .null ∧
    a = 0  := by
  refine ⟨⟨0, 0x1FF, 1⟩, at5 (.sel ⟨0, 0x1FF, 1⟩) [(5, .s 0), (133, .s 9)], th (at5 (.sel ⟨0, 0x1FF, 1⟩) [(5, .s 0), (133, .s 9)]), fr (at5 (.sel ⟨0, 0x1FF, 1⟩) [(5, .s 0), (133, .s 9)]), 0, .s 9, ?_⟩
  try dsimp only [Fires, HasTok, Arrived, FreshOp, FreshAt, Solo, AtHome, AtVault, HasReg, Untracked, Turn, Quiet, Calm, RoleOk, DistinctWrites, ReadyPlain]
  repeat' apply And.intro
  all_goals first | decide +kernel | exact holdsNothing_of _ _ (by decide +kernel) (by decide +kernel) | exact oldest_of_nil _ (by decide +kernel) | exact ok_of _ _ (by decide +kernel) | exact error_of _ _ (by decide +kernel) | exact forall_of_nil _ _ (by decide +kernel) | exact trivial

theorem witness_null :
    ∃ (g : GF) (s : State) (t : Thread) (f : Frame),
    Fires s g.p t f  := by
  refine ⟨⟨0, 0x1FF, 1⟩, at5 (.null ⟨0, 0x1FF, 1⟩) [], th (at5 (.null ⟨0, 0x1FF, 1⟩) []), fr (at5 (.null ⟨0, 0x1FF, 1⟩) []), ?_⟩
  repeat' apply And.intro
  all_goals decide +kernel

theorem witness_movi :
    ∃ (g : CF) (s : State) (t : Thread) (f : Frame),
    Fires s 0#2 t f  := by
  refine ⟨⟨0x8000, 1⟩, at5 (.movi ⟨0x8000, 1⟩) [], th (at5 (.movi ⟨0x8000, 1⟩) []), fr (at5 (.movi ⟨0x8000, 1⟩) []), ?_⟩
  repeat' apply And.intro
  all_goals decide +kernel

theorem witness_appi :
    ∃ (g : CF) (s : State) (t : Thread) (f : Frame) (a : Word),
    Fires s 0#2 t f ∧ HasTok f 0 s.cur.2.2 (.s a)  := by
  refine ⟨⟨0x8000, 1⟩, at5 (.appi ⟨0x8000, 1⟩) [(5, .s 1)], th (at5 (.appi ⟨0x8000, 1⟩) [(5, .s 1)]), fr (at5 (.appi ⟨0x8000, 1⟩) [(5, .s 1)]), 1, ?_⟩
  try dsimp only [Fires, HasTok, Arrived, FreshOp, FreshAt, Solo, AtHome, AtVault, HasReg, Untracked, Turn, Quiet, Calm, RoleOk, DistinctWrites, ReadyPlain]
  repeat' apply And.intro
  all_goals first | decide +kernel | exact holdsNothing_of _ _ (by decide +kernel) (by decide +kernel) | exact oldest_of_nil _ (by decide +kernel) | exact ok_of _ _ (by decide +kernel) | exact error_of _ _ (by decide +kernel) | exact forall_of_nil _ _ (by decide +kernel) | exact trivial

theorem witness_null_operand : ∃ (spec : Instr → Option (ScalarForm × (Word → Word → Word → Prop))) (i : Instr) (p : BitVec 2)
    (m : Option Word) (ts : List (BitVec 9)) (rel : Word → Word → Word → Prop) (s : State) (t : Thread) (f : Frame) (x y : Tok),
    (spec = arithSpec ∨ spec = bitSpec ∨ spec = testSpec ∨ spec = immSpec) ∧ spec i = some ((p, m, ts), rel) ∧
    Fires s p t f ∧ HasTok f 0 s.cur.2.2 x ∧ (m = none → HasTok f 1 s.cur.2.2 y) ∧ (x = .null ∨ (m = none ∧ y = .null)) := by
  let s := at5 (.add ⟨0, 0x1FF, 1⟩) [(5, .s 3), (133, .null)]
  exact ⟨arithSpec, .add ⟨0, 0x1FF, 1⟩, 0, none, _, _, s, th s, fr s, .s 3, .null, .inl rfl, rfl, ⟨by decide +kernel, by decide +kernel, by decide +kernel⟩,
    by unfold HasTok; decide +kernel, by unfold HasTok; decide +kernel, .inr ⟨rfl, rfl⟩⟩

theorem witness_null_moves : ∃ (s : State) (t : Thread) (f : Frame) (g : GF) (g4 : Mov4F) (gh : HintF) (gc : CF) (x y : Tok),
    Fires s g.p t f ∧ Fires s g4.p t f ∧ Fires s gh.p t f ∧ Fires s 0#2 t f ∧ gc.k = 0x8000 ∧
    HasTok f 0 s.cur.2.2 .null ∧ HasTok f 0 s.cur.2.2 x ∧ HasTok f 1 s.cur.2.2 y ∧ (x = .null ∨ y = .null) := by
  let s := at5 (.sel ⟨0, 0x1FF, 1⟩) [(5, .null), (133, .v 7)]
  refine ⟨s, th s, fr s, ⟨0, 0x1FF, 1⟩, ⟨0, 0x1FF, 1, 2, 3⟩, ⟨0, 0, 0, 0x1FF, 1⟩, ⟨0x8000, 1⟩, .null, .v 7, ?_⟩
  try dsimp only [Fires, HasTok, Arrived, FreshOp, FreshAt, Solo, AtHome, AtVault, HasReg, Untracked, Turn, Quiet, Calm, RoleOk, DistinctWrites, ReadyPlain, NothingHeld, NoneGranted, NoneCommits]
  repeat' apply And.intro
  all_goals first | decide +kernel | exact holdsNothing_of _ _ (by decide +kernel) (by decide +kernel) | exact oldest_of_nil _ (by decide +kernel) | exact ok_of _ _ (by decide +kernel) | exact error_of _ _ (by decide +kernel) | exact forall_of_nil _ _ (by decide +kernel) | exact trivial | exact .inl rfl

theorem witness_sel_null_b : ∃ (s : State) (t : Thread) (f : Frame) (g : GF) (x y : Tok),
    Fires s g.p t f ∧ HasTok f 0 s.cur.2.2 x ∧ HasTok f 1 s.cur.2.2 y ∧ x ≠ .null ∧ y = .null := by
  let s := at5 (.sel ⟨0, 0x1FF, 1⟩) [(5, .s 1), (133, .null)]
  refine ⟨s, th s, fr s, ⟨0, 0x1FF, 1⟩, .s 1, .null, ?_⟩
  try dsimp only [Fires, HasTok, Arrived, FreshOp, FreshAt, Solo, AtHome, AtVault, HasReg, Untracked, Turn, Quiet, Calm, RoleOk, DistinctWrites, ReadyPlain, NothingHeld, NoneGranted, NoneCommits]
  repeat' apply And.intro
  all_goals first | decide +kernel | exact holdsNothing_of _ _ (by decide +kernel) (by decide +kernel) | exact oldest_of_nil _ (by decide +kernel) | exact ok_of _ _ (by decide +kernel) | exact error_of _ _ (by decide +kernel) | exact forall_of_nil _ _ (by decide +kernel) | exact trivial

theorem witness_predicate_mismatch :
    ∃ (i : Instr) (s : State) (t : Thread) (f : Frame) (x : Tok),
    i.wellFormed = true ∧ 2 ≤ i.pred.toNat ∧ s.current = some (t, f) ∧ f.canFire s.cur.2.2 = true ∧
    f.op s.cur.2.2 = none ∧ HasTok f 2 s.cur.2.2 x ∧ (x = .null ∨ (i.pred = 2#2 ↔ x.word = 0))  := by
  refine ⟨.tend ⟨2, 0⟩, at5 (.tend ⟨2, 0⟩) [(261, .s 0)], th (at5 (.tend ⟨2, 0⟩) [(261, .s 0)]), fr (at5 (.tend ⟨2, 0⟩) [(261, .s 0)]), .s 0, ?_⟩
  try dsimp only [Fires, HasTok, Arrived, FreshOp, FreshAt, Solo, AtHome, AtVault, HasReg, Untracked, Turn, Quiet, Calm, RoleOk, DistinctWrites, ReadyPlain]
  repeat' apply And.intro
  all_goals first | decide +kernel | exact holdsNothing_of _ _ (by decide +kernel) (by decide +kernel) | exact oldest_of_nil _ (by decide +kernel) | exact ok_of _ _ (by decide +kernel) | exact error_of _ _ (by decide +kernel) | exact forall_of_nil _ _ (by decide +kernel) | exact trivial

theorem witness_predicate_null :
    ∃ (i : Instr) (s : State) (t : Thread) (f : Frame) (x : Tok),
    i.wellFormed = true ∧ 2 ≤ i.pred.toNat ∧ s.current = some (t, f) ∧ f.canFire s.cur.2.2 = true ∧
    f.op s.cur.2.2 = none ∧ HasTok f 2 s.cur.2.2 x ∧ (x = .null ∨ (i.pred = 2#2 ↔ x.word = 0))  := by
  refine ⟨.tend ⟨3, 0⟩, at5 (.tend ⟨3, 0⟩) [(261, .null)], th (at5 (.tend ⟨3, 0⟩) [(261, .null)]), fr (at5 (.tend ⟨3, 0⟩) [(261, .null)]), .null, ?_⟩
  try dsimp only [Fires, HasTok, Arrived, FreshOp, FreshAt, Solo, AtHome, AtVault, HasReg, Untracked, Turn, Quiet, Calm, RoleOk, DistinctWrites, ReadyPlain]
  repeat' apply And.intro
  all_goals first | decide +kernel | exact holdsNothing_of _ _ (by decide +kernel) (by decide +kernel) | exact oldest_of_nil _ (by decide +kernel) | exact ok_of _ _ (by decide +kernel) | exact error_of _ _ (by decide +kernel) | exact forall_of_nil _ _ (by decide +kernel) | exact trivial

theorem witness_fp_scalar : ∃ (i : Instr) (o : Takes) (g : FEnv → Word → Word → Word → Nat × Flags) (s : State) (t : Thread)
    (f : Frame) (a b c : Word) (v : FEnv), fpSpec i = some (o, g) ∧ Fires s o.p t f ∧
    Arrived f s.cur.2.2 o (.s a) (.s b) (.s c) ∧ t.env f.cyc s.cur.2.1 s.cur.2.2 = some v := by
  let s := at5 (.ffmaF64 ⟨0x1FF, 1⟩) [(5, .s 1), (133, .s 2), (261, .s 3)]
  refine ⟨.ffmaF64 ⟨0x1FF, 1⟩, _, _, s, th s, fr s, 1, 2, 3, ((th s).env 0 0 5).getD ⟨0, 0, 0, 0⟩, rfl, ⟨by decide +kernel, by decide +kernel, by decide +kernel⟩, ?_, by decide +kernel⟩
  dsimp only [Arrived, HasTok]
  repeat' apply And.intro
  all_goals decide +kernel

/-! #### Rounding and exact operations (R210, R216 to R220, R246 to R248) -/

/-- A code in range, at the smallest normal binade's end below, and past the largest finite value. -/
theorem witness_rounds :
    (∃ row ∈ fmtRows, ∃ (n f k : Nat) (e : Int) (n' : Nat), f < 2 ^ k ∧ n < 2 ^ (row.F.mb + 1) ∧ n * 2 ^ k + f ≠ 0 ∧
      fmtEmin row.F ≤ e + k + row.F.mb ∧ 2 ^ row.F.mb ≤ n ∧ RoundsUp .rne false n f k false 0 ∧ n' = n + 1 ∧
      ((e + k + row.F.mb - fmtEmin row.F).toNat * 2 ^ row.F.mb + n' ≤ row.max)) ∧
    (∃ row ∈ fmtRows, ∃ (n f k : Nat) (e : Int) (n' : Nat), f < 2 ^ k ∧ n < 2 ^ row.F.mb ∧ n * 2 ^ k + f ≠ 0 ∧ 32 ≤ k ∧
      e + k + row.F.mb = fmtEmin row.F ∧ ¬RoundsUp .rtz true n f k true 0 ∧ n' = n ∧ n' ≤ row.max) ∧
    (∃ row ∈ fmtRows, ∃ (n f k : Nat) (e : Int) (n' : Nat), f < 2 ^ k ∧ n < 2 ^ (row.F.mb + 1) ∧ n * 2 ^ k + f ≠ 0 ∧
      fmtEmin row.F ≤ e + k + row.F.mb ∧ 2 ^ row.F.mb ≤ n ∧ RoundsUp .rne false n f k false 0 ∧ n' = n + 1 ∧
      row.max < (e + k + row.F.mb - fmtEmin row.F).toNat * 2 ^ row.F.mb + n') := by
  refine ⟨⟨⟨fmtF32, 0x7F7FFFFF, some 0x7FC00000, some 0x7F800000, 0x80000000⟩, by simp [fmtRows], 2 ^ 23, 3, 2, -25, 2 ^ 23 + 1, ?_⟩,
    ⟨⟨fmtE2m1, 0x7, none, none, 0x8⟩, by simp [fmtRows], 0, 0x80000001, 32, -33, 0, ?_⟩,
    ⟨⟨fmtF32, 0x7F7FFFFF, some 0x7FC00000, some 0x7F800000, 0x80000000⟩, by simp [fmtRows], 2 ^ 24 - 1, 1, 1, 103, 2 ^ 24, ?_⟩⟩ <;>
  · unfold RoundsUp
    repeat' apply And.intro
    all_goals decide +kernel

/-- Numbers whose sum, difference and fused sum are not zero, a zero sum, a zero dividend, divisor and root, a NaN, infinities and
the invalid operands. -/
theorem witness_exact_operations : ∃ row ∈ fmtRows, ∃ v : FEnv,
    let d := decodeF row.F (fcrDaz v.fcr)
    (∃ a b c na ma ea nb mb eb nc mc ec, d a = .fin na ma ea false ∧ d b = .fin nb mb eb false ∧ d c = .fin nc mc ec false ∧
      scaled na ma ea (min ea eb) + scaled nb mb eb (min ea eb) ≠ 0 ∧
      scaled na ma ea (min ea eb) - scaled nb mb eb (min ea eb) ≠ 0 ∧
      scaled (na != nb) (ma * mb) (ea + eb) (min (ea + eb) ec) + scaled nc mc ec (min (ea + eb) ec) ≠ 0 ∧
      ma ≠ 0 ∧ mb ≠ 0 ∧ na = false) ∧
    (∃ a b na ma ea nb mb eb, d a = .fin na ma ea false ∧ d b = .fin nb mb eb false ∧
      scaled na ma ea (min ea eb) + scaled nb mb eb (min ea eb) = 0) ∧
    (∃ a b na ea nb mb eb, d a = .fin na 0 ea false ∧ d b = .fin nb mb eb false ∧ mb ≠ 0) ∧
    (∃ a b na ma ea nb eb, d a = .fin na ma ea false ∧ d b = .fin nb 0 eb false ∧ ma ≠ 0) ∧
    (∃ q a sa, row.nan = some q ∧ d a = .nan sa) ∧
    (∃ a b n, d a = .inf n ∧ d b = .inf (!n)) ∧ (∃ a b n, d a = .inf n ∧ d b = .inf n) ∧
    (∃ a b n nz ez, d a = .inf n ∧ d b = .fin nz 0 ez false) ∧ (∃ a ma ea, ma ≠ 0 ∧ d a = .fin true ma ea false) := by
  refine ⟨⟨fmtF32, 0x7F7FFFFF, some 0x7FC00000, some 0x7F800000, 0x80000000⟩, by simp [fmtRows], ⟨0, 0, 0, 0⟩, ?_⟩
  refine ⟨⟨0x40000000, 0x3F800000, 0xBF800000, false, 8388608, -22, false, 8388608, -23, true, 8388608, -23, ?_⟩,
    ⟨0x3F800000, 0xBF800000, false, 8388608, -23, true, 8388608, -23, ?_⟩,
    ⟨0, 0x3F800000, false, -149, false, 8388608, -23, ?_⟩, ⟨0x3F800000, 0x80000000, false, 8388608, -23, true, -149, ?_⟩,
    ⟨0x7FC00000, 0x7F800001, true, ?_⟩, ⟨0x7F800000, 0xFF800000, false, ?_⟩, ⟨0x7F800000, 0x7F800000, false, ?_⟩,
    ⟨0x7F800000, 0, false, false, -149, ?_⟩, ⟨0xBF800000, 8388608, -23, ?_⟩⟩ <;>
  · repeat' apply And.intro
    all_goals decide +kernel

/-- A subnormal operand under DAZ, a subnormal result under FTZ and one that is not, a conversion that rounds, and comparisons of
numbers and of a NaN. -/
theorem witness_zeros_integers_order :
    (∃ row ∈ fmtRows, 16 ≤ fmtWidth row.F ∧ ∃ v : FEnv, fcrDaz v.fcr = true ∧
      ∃ x a, 0 < x ∧ x < 2 ^ row.F.mb ∧ a = row.sign + x) ∧
    (∃ row ∈ fmtRows, 16 ≤ fmtWidth row.F ∧ ∃ v : FEnv, fcrFtz v.fcr = true ∧ ∃ a b x : Nat, 0 < x ∧ x < 2 ^ row.F.mb ∧
      (fop .mul row.F .rne { v with fcr := v.fcr &&& ~~~8#64 } 0 a b 0).1 = x) ∧
    (∃ row ∈ fmtRows, 16 ≤ fmtWidth row.F ∧ ∃ v : FEnv, fcrFtz v.fcr = true ∧ ∃ a b : Nat,
      2 ^ row.F.mb ≤ (fop .add row.F .rne { v with fcr := v.fcr &&& ~~~8#64 } 0 a b 0).1 % row.sign) ∧
    (∃ n f k n' : Nat, f < 2 ^ k ∧ RoundsUp .rne false n f k false 0 ∧ n' = n + 1) ∧
    (∃ a b na ma ea nb mb eb, decodeF fmtF32 false a = .fin na ma ea false ∧ decodeF fmtF32 false b = .fin nb mb eb false) ∧
    (∃ b sig, decodeF fmtF32 false b = .nan sig) := by
  refine ⟨⟨⟨fmtF32, 0x7F7FFFFF, some 0x7FC00000, some 0x7F800000, 0x80000000⟩, by simp [fmtRows], by decide +kernel, ⟨16, 0, 0, 0⟩,
      by decide +kernel, 2 ^ 23 - 1, 0x807FFFFF, ?_⟩,
    ⟨⟨fmtF32, 0x7F7FFFFF, some 0x7FC00000, some 0x7F800000, 0x80000000⟩, by simp [fmtRows], by decide +kernel, ⟨8, 0, 0, 0⟩,
      by decide +kernel, 0x00800000, 0x3F000000, 2 ^ 22, ?_⟩,
    ⟨⟨fmtF32, 0x7F7FFFFF, some 0x7FC00000, some 0x7F800000, 0x80000000⟩, by simp [fmtRows], by decide +kernel, ⟨8, 0, 0, 0⟩,
      by decide +kernel, 0x3F800000, 0, ?_⟩,
    ⟨5, 1, 1, 6, ?_⟩, ⟨0x3F800000, 0, false, 8388608, -23, false, 0, -149, ?_⟩, ⟨0x7FC00000, false, ?_⟩⟩ <;>
  · try unfold RoundsUp
    repeat' apply And.intro
    all_goals decide +kernel

theorem witness_vector_integer : ∃ (i : Instr) (g : VecF) (two : Bool) (op : Nat → Int → Int → Int) (s : State) (t : Thread)
    (f : Frame) (a b : Vec), vintSpec i = some (g, two, op) ∧ i.wellFormed = true ∧ Fires s g.p t f ∧
    HasTok f 0 s.cur.2.2 (.v a) ∧ (two = true → HasTok f 1 s.cur.2.2 (.v b)) := by
  let g : VecF := ⟨0, 0x1FF, 1, 0, 0, 0, 0, 0, 0⟩
  let s := at5 (.vaddInt g) [(5, .v 127), (133, .v 1)]
  exact ⟨.vaddInt g, g, true, _, s, th s, fr s, 127, 1, rfl, by decide +kernel, ⟨by decide +kernel, by decide +kernel, by decide +kernel⟩,
    by unfold HasTok; decide +kernel, by unfold HasTok; decide +kernel⟩

theorem witness_vector_bits :
    ∃ (g : VecF) (s : State) (t : Thread) (f : Frame) (a b c : Vec),
    Fires s g.p t f ∧ HasTok f 0 s.cur.2.2 (.v a) ∧ HasTok f 1 s.cur.2.2 (.v b) ∧
    let w := laneWidth g.ty.toNat
    let sg := tySigned g.ty
    let res := fun (i : Instr) (ok : Vec → Prop) => ∃ r, exec i s = .next (sent s f [g.t0, g.t1] (.v r)) ∧ ok r
    True := by
  refine ⟨⟨0, 0x1FF, 1, 0, 0, 0, 0, 0, 0⟩, at5 (.vand ⟨0, 0x1FF, 1, 0, 0, 0, 0, 0, 0⟩) [(5, .v 1), (133, .v 3)], th (at5 (.vand ⟨0, 0x1FF, 1, 0, 0, 0, 0, 0, 0⟩) [(5, .v 1), (133, .v 3)]), fr (at5 (.vand ⟨0, 0x1FF, 1, 0, 0, 0, 0, 0, 0⟩) [(5, .v 1), (133, .v 3)]), 1, 3, 0, ?_⟩
  try dsimp only [Fires, HasTok, Arrived, FreshOp, FreshAt, Solo, AtHome, AtVault, HasReg, Untracked, Turn, Quiet, Calm, RoleOk, DistinctWrites, ReadyPlain]
  repeat' apply And.intro
  all_goals first | decide +kernel | exact holdsNothing_of _ _ (by decide +kernel) (by decide +kernel) | exact oldest_of_nil _ (by decide +kernel) | exact ok_of _ _ (by decide +kernel) | exact error_of _ _ (by decide +kernel) | exact forall_of_nil _ _ (by decide +kernel) | exact trivial

theorem witness_vector_shifts :
    ∃ (g : VecF) (s : State) (t : Thread) (f : Frame) (a b c : Vec),
    Fires s g.p t f ∧ HasTok f 0 s.cur.2.2 (.v a) ∧ HasTok f 1 s.cur.2.2 (.v b) ∧
    let w := laneWidth g.ty.toNat
    let sg := tySigned g.ty
    let res := fun (i : Instr) (ok : Vec → Prop) => ∃ r, exec i s = .next (sent s f [g.t0, g.t1] (.v r)) ∧ ok r
    tyInt g.ty = true ∧
    g.imm8.toNat ≤ 5  := by
  refine ⟨⟨0, 0x1FF, 1, 0, 0, 0, 0, 0, 0⟩, at5 (.vshl ⟨0, 0x1FF, 1, 0, 0, 0, 0, 0, 0⟩) [(5, .v 1), (133, .v 3)], th (at5 (.vshl ⟨0, 0x1FF, 1, 0, 0, 0, 0, 0, 0⟩) [(5, .v 1), (133, .v 3)]), fr (at5 (.vshl ⟨0, 0x1FF, 1, 0, 0, 0, 0, 0, 0⟩) [(5, .v 1), (133, .v 3)]), 1, 3, 0, ?_⟩
  try dsimp only [Fires, HasTok, Arrived, FreshOp, FreshAt, Solo, AtHome, AtVault, HasReg, Untracked, Turn, Quiet, Calm, RoleOk, DistinctWrites, ReadyPlain]
  repeat' apply And.intro
  all_goals first | decide +kernel | exact holdsNothing_of _ _ (by decide +kernel) (by decide +kernel) | exact oldest_of_nil _ (by decide +kernel) | exact ok_of _ _ (by decide +kernel) | exact error_of _ _ (by decide +kernel) | exact forall_of_nil _ _ (by decide +kernel) | exact trivial

theorem witness_vector_select :
    ∃ (g : VecF) (s : State) (t : Thread) (f : Frame) (a b c : Vec),
    Fires s g.p t f ∧ HasTok f 0 s.cur.2.2 (.v a) ∧ HasTok f 1 s.cur.2.2 (.v b) ∧
    let w := laneWidth g.ty.toNat
    let sg := tySigned g.ty
    let res := fun (i : Instr) (ok : Vec → Prop) => ∃ r, exec i s = .next (sent s f [g.t0, g.t1] (.v r)) ∧ ok r
    g.p = 0#2 ∧ HasTok f 2 s.cur.2.2 (.v c)  := by
  refine ⟨⟨0, 0x1FF, 1, 0, 0, 0, 0, 0, 0⟩, at5 (.vsel ⟨0, 0x1FF, 1, 0, 0, 0, 0, 0, 0⟩) [(5, .v 1), (133, .v 3), (261, .v 4)], th (at5 (.vsel ⟨0, 0x1FF, 1, 0, 0, 0, 0, 0, 0⟩) [(5, .v 1), (133, .v 3), (261, .v 4)]), fr (at5 (.vsel ⟨0, 0x1FF, 1, 0, 0, 0, 0, 0, 0⟩) [(5, .v 1), (133, .v 3), (261, .v 4)]), 1, 3, 4, ?_⟩
  try dsimp only [Fires, HasTok, Arrived, FreshOp, FreshAt, Solo, AtHome, AtVault, HasReg, Untracked, Turn, Quiet, Calm, RoleOk, DistinctWrites, ReadyPlain]
  repeat' apply And.intro
  all_goals first | decide +kernel | exact holdsNothing_of _ _ (by decide +kernel) (by decide +kernel) | exact oldest_of_nil _ (by decide +kernel) | exact ok_of _ _ (by decide +kernel) | exact error_of _ _ (by decide +kernel) | exact forall_of_nil _ _ (by decide +kernel) | exact trivial

theorem witness_vector_float_one : ∃ (g : VecF) (s : State) (t : Thread) (f : Frame) (a : Vec) (v : FEnv),
    t.env f.cyc s.cur.2.1 s.cur.2.2 = some v ∧ HasTok f 0 s.cur.2.2 (.v a) ∧ Fires s g.p t f := by
  let g : VecF := ⟨0, 0x1FF, 1, 0, 0, 0, 0, 0, 9⟩
  let s := at5 (.vlog2 g) [(5, .v 1)]
  refine ⟨g, s, th s, fr s, 1, ((th s).env 0 0 5).getD ⟨0, 0, 0, 0⟩, ?_⟩
  try dsimp only [Fires, HasTok, Arrived, FreshOp, FreshAt, Solo, AtHome, AtVault, HasReg, Untracked, Turn, Quiet, Calm, RoleOk, DistinctWrites, ReadyPlain]
  repeat' apply And.intro
  all_goals first | decide +kernel | exact holdsNothing_of _ _ (by decide +kernel) (by decide +kernel) | exact oldest_of_nil _ (by decide +kernel) | exact ok_of _ _ (by decide +kernel) | exact error_of _ _ (by decide +kernel) | exact forall_of_nil _ _ (by decide +kernel) | exact trivial

theorem witness_vector_float_two : ∃ (g : VecF) (s : State) (t : Thread) (f : Frame) (a b : Vec) (v : FEnv),
    t.env f.cyc s.cur.2.1 s.cur.2.2 = some v ∧ HasTok f 0 s.cur.2.2 (.v a) ∧ Fires s g.p t f ∧
    HasTok f 1 s.cur.2.2 (.v b) := by
  let g : VecF := ⟨2, 0x1FF, 1, 0, 0, 0, 0, 1, 8⟩
  let s := at5 (.vaddFp g) [(5, .v 1), (133, .v 2), (261, .s 1)]
  refine ⟨g, s, th s, fr s, 1, 2, ((th s).env 0 0 5).getD ⟨0, 0, 0, 0⟩, ?_⟩
  try dsimp only [Fires, HasTok, Arrived, FreshOp, FreshAt, Solo, AtHome, AtVault, HasReg, Untracked, Turn, Quiet, Calm, RoleOk, DistinctWrites, ReadyPlain]
  repeat' apply And.intro
  all_goals first | decide +kernel | exact holdsNothing_of _ _ (by decide +kernel) (by decide +kernel) | exact oldest_of_nil _ (by decide +kernel) | exact ok_of _ _ (by decide +kernel) | exact error_of _ _ (by decide +kernel) | exact forall_of_nil _ _ (by decide +kernel) | exact trivial

theorem witness_vector_float_three : ∃ (g : VecF) (s : State) (t : Thread) (f : Frame) (a b c : Vec) (v : FEnv),
    t.env f.cyc s.cur.2.1 s.cur.2.2 = some v ∧ HasTok f 0 s.cur.2.2 (.v a) ∧ Fires s 0#2 t f ∧
    HasTok f 1 s.cur.2.2 (.v b) ∧
    HasTok f 2 s.cur.2.2 (.v c) := by
  let g : VecF := ⟨0, 0x1FF, 1, 0, 0, 0, 0, 0, 9⟩
  let s := at5 (.vfma g) [(5, .v 1), (133, .v 2), (261, .v 3)]
  refine ⟨g, s, th s, fr s, 1, 2, 3, ((th s).env 0 0 5).getD ⟨0, 0, 0, 0⟩, ?_⟩
  try dsimp only [Fires, HasTok, Arrived, FreshOp, FreshAt, Solo, AtHome, AtVault, HasReg, Untracked, Turn, Quiet, Calm, RoleOk, DistinctWrites, ReadyPlain]
  repeat' apply And.intro
  all_goals first | decide +kernel | exact holdsNothing_of _ _ (by decide +kernel) (by decide +kernel) | exact oldest_of_nil _ (by decide +kernel) | exact ok_of _ _ (by decide +kernel) | exact error_of _ _ (by decide +kernel) | exact forall_of_nil _ _ (by decide +kernel) | exact trivial

theorem witness_vcvt : ∃ (g : VecF) (s : State) (t : Thread) (f : Frame) (a : Vec) (v : FEnv),
    t.env f.cyc s.cur.2.1 s.cur.2.2 = some v ∧ HasTok f 0 s.cur.2.2 (.v a) ∧ (Instr.vcvt g).wellFormed = true ∧ Fires s g.p t f := by
  let g : VecF := ⟨0, 0x1FF, 1, 3, 0, 8, 0, 0, 0xD⟩
  let s := at5 (.vcvt g) [(5, .v 1)]
  refine ⟨g, s, th s, fr s, 1, ((th s).env 0 0 5).getD ⟨0, 0, 0, 0⟩, ?_⟩
  try dsimp only [Fires, HasTok, Arrived, FreshOp, FreshAt, Solo, AtHome, AtVault, HasReg, Untracked, Turn, Quiet, Calm, RoleOk, DistinctWrites, ReadyPlain]
  repeat' apply And.intro
  all_goals first | decide +kernel | exact holdsNothing_of _ _ (by decide +kernel) (by decide +kernel) | exact oldest_of_nil _ (by decide +kernel) | exact ok_of _ _ (by decide +kernel) | exact error_of _ _ (by decide +kernel) | exact forall_of_nil _ _ (by decide +kernel) | exact trivial

theorem witness_vred_integer : ∃ (g : VecF) (s : State) (t : Thread) (f : Frame) (a : Vec) (v : FEnv),
    t.env f.cyc s.cur.2.1 s.cur.2.2 = some v ∧ HasTok f 0 s.cur.2.2 (.v a) ∧ (Instr.vred g).wellFormed = true ∧ Fires s g.p t f ∧
    tyInt g.ty = true := by
  let g : VecF := ⟨0, 0x1FF, 1, 0, 0, 0, 1, 0, 0⟩
  let s := at5 (.vred g) [(5, .v 1)]
  refine ⟨g, s, th s, fr s, 1, ((th s).env 0 0 5).getD ⟨0, 0, 0, 0⟩, ?_⟩
  try dsimp only [Fires, HasTok, Arrived, FreshOp, FreshAt, Solo, AtHome, AtVault, HasReg, Untracked, Turn, Quiet, Calm, RoleOk, DistinctWrites, ReadyPlain]
  repeat' apply And.intro
  all_goals first | decide +kernel | exact holdsNothing_of _ _ (by decide +kernel) (by decide +kernel) | exact oldest_of_nil _ (by decide +kernel) | exact ok_of _ _ (by decide +kernel) | exact error_of _ _ (by decide +kernel) | exact forall_of_nil _ _ (by decide +kernel) | exact trivial

theorem witness_vred_float : ∃ (g : VecF) (s : State) (t : Thread) (f : Frame) (a : Vec) (v : FEnv),
    t.env f.cyc s.cur.2.1 s.cur.2.2 = some v ∧ HasTok f 0 s.cur.2.2 (.v a) ∧ (Instr.vred g).wellFormed = true ∧ Fires s g.p t f ∧
    tyInt g.ty = false := by
  let g : VecF := ⟨0, 0x1FF, 1, 2, 0, 0, 0, 0, 8⟩
  let s := at5 (.vred g) [(5, .v 1)]
  refine ⟨g, s, th s, fr s, 1, ((th s).env 0 0 5).getD ⟨0, 0, 0, 0⟩, ?_⟩
  try dsimp only [Fires, HasTok, Arrived, FreshOp, FreshAt, Solo, AtHome, AtVault, HasReg, Untracked, Turn, Quiet, Calm, RoleOk, DistinctWrites, ReadyPlain]
  repeat' apply And.intro
  all_goals first | decide +kernel | exact holdsNothing_of _ _ (by decide +kernel) (by decide +kernel) | exact oldest_of_nil _ (by decide +kernel) | exact ok_of _ _ (by decide +kernel) | exact error_of _ _ (by decide +kernel) | exact forall_of_nil _ _ (by decide +kernel) | exact trivial

theorem witness_vscan_integer : ∃ (g : VecF) (s : State) (t : Thread) (f : Frame) (a : Vec) (k : Word) (v : FEnv),
    t.env f.cyc s.cur.2.1 s.cur.2.2 = some v ∧ HasTok f 0 s.cur.2.2 (.v a) ∧ (Instr.vscan g).wellFormed = true ∧ Fires s g.p t f ∧
    HasTok f 1 s.cur.2.2 (.s k) ∧
    tyInt g.ty = true := by
  let g : VecF := ⟨0, 0x1FF, 1, 0, 0, 0, 1, 0, 7⟩
  let s := at5 (.vscan g) [(5, .v 1), (133, .s 2)]
  refine ⟨g, s, th s, fr s, 1, 2, ((th s).env 0 0 5).getD ⟨0, 0, 0, 0⟩, ?_⟩
  try dsimp only [Fires, HasTok, Arrived, FreshOp, FreshAt, Solo, AtHome, AtVault, HasReg, Untracked, Turn, Quiet, Calm, RoleOk, DistinctWrites, ReadyPlain]
  repeat' apply And.intro
  all_goals first | decide +kernel | exact holdsNothing_of _ _ (by decide +kernel) (by decide +kernel) | exact oldest_of_nil _ (by decide +kernel) | exact ok_of _ _ (by decide +kernel) | exact error_of _ _ (by decide +kernel) | exact forall_of_nil _ _ (by decide +kernel) | exact trivial

theorem witness_vscan_float : ∃ (g : VecF) (s : State) (t : Thread) (f : Frame) (a : Vec) (k : Word) (v : FEnv),
    t.env f.cyc s.cur.2.1 s.cur.2.2 = some v ∧ HasTok f 0 s.cur.2.2 (.v a) ∧ (Instr.vscan g).wellFormed = true ∧ Fires s g.p t f ∧
    HasTok f 1 s.cur.2.2 (.s k) ∧
    tyInt g.ty = false := by
  let g : VecF := ⟨0, 0x1FF, 1, 1, 0, 0, 0, 0, 0xB⟩
  let s := at5 (.vscan g) [(5, .v 1), (133, .s 2)]
  refine ⟨g, s, th s, fr s, 1, 2, ((th s).env 0 0 5).getD ⟨0, 0, 0, 0⟩, ?_⟩
  try dsimp only [Fires, HasTok, Arrived, FreshOp, FreshAt, Solo, AtHome, AtVault, HasReg, Untracked, Turn, Quiet, Calm, RoleOk, DistinctWrites, ReadyPlain]
  repeat' apply And.intro
  all_goals first | decide +kernel | exact holdsNothing_of _ _ (by decide +kernel) (by decide +kernel) | exact oldest_of_nil _ (by decide +kernel) | exact ok_of _ _ (by decide +kernel) | exact error_of _ _ (by decide +kernel) | exact forall_of_nil _ _ (by decide +kernel) | exact trivial

theorem witness_vdot_integer : ∃ (g : VecF) (s : State) (t : Thread) (f : Frame) (a b c : Vec) (v : FEnv),
    t.env f.cyc s.cur.2.1 s.cur.2.2 = some v ∧ HasTok f 0 s.cur.2.2 (.v a) ∧ (Instr.vdot g).wellFormed = true ∧ Fires s 0#2 t f ∧
    HasTok f 1 s.cur.2.2 (.v b) ∧
    HasTok f 2 s.cur.2.2 (.v c) ∧
    tyInt g.ty = true := by
  let g : VecF := ⟨0, 0x1FF, 1, 0, 0, 2, 1, 0, 1⟩
  let s := at5 (.vdot g) [(5, .v 1), (133, .v 2), (261, .v 3)]
  refine ⟨g, s, th s, fr s, 1, 2, 3, ((th s).env 0 0 5).getD ⟨0, 0, 0, 0⟩, ?_⟩
  try dsimp only [Fires, HasTok, Arrived, FreshOp, FreshAt, Solo, AtHome, AtVault, HasReg, Untracked, Turn, Quiet, Calm, RoleOk, DistinctWrites, ReadyPlain]
  repeat' apply And.intro
  all_goals first | decide +kernel | exact holdsNothing_of _ _ (by decide +kernel) (by decide +kernel) | exact oldest_of_nil _ (by decide +kernel) | exact ok_of _ _ (by decide +kernel) | exact error_of _ _ (by decide +kernel) | exact forall_of_nil _ _ (by decide +kernel) | exact trivial

theorem witness_vdot_float : ∃ (g : VecF) (s : State) (t : Thread) (f : Frame) (a b c : Vec) (v : FEnv),
    t.env f.cyc s.cur.2.1 s.cur.2.2 = some v ∧ HasTok f 0 s.cur.2.2 (.v a) ∧ (Instr.vdot g).wellFormed = true ∧ Fires s 0#2 t f ∧
    HasTok f 1 s.cur.2.2 (.v b) ∧
    HasTok f 2 s.cur.2.2 (.v c) ∧
    tyInt g.ty = false := by
  let g : VecF := ⟨0, 0x1FF, 1, 0, 0, 9, 0, 5, 0xD⟩
  let s := at5 (.vdot g) [(5, .v 1), (133, .v 2), (261, .v 3)]
  refine ⟨g, s, th s, fr s, 1, 2, 3, ((th s).env 0 0 5).getD ⟨0, 0, 0, 0⟩, ?_⟩
  try dsimp only [Fires, HasTok, Arrived, FreshOp, FreshAt, Solo, AtHome, AtVault, HasReg, Untracked, Turn, Quiet, Calm, RoleOk, DistinctWrites, ReadyPlain]
  repeat' apply And.intro
  all_goals first | decide +kernel | exact holdsNothing_of _ _ (by decide +kernel) (by decide +kernel) | exact oldest_of_nil _ (by decide +kernel) | exact ok_of _ _ (by decide +kernel) | exact error_of _ _ (by decide +kernel) | exact forall_of_nil _ _ (by decide +kernel) | exact trivial

theorem witness_vmxq : ∃ (g : VecF) (s : State) (t : Thread) (f : Frame) (a b : Vec) (v : FEnv),
    t.env f.cyc s.cur.2.1 s.cur.2.2 = some v ∧ HasTok f 0 s.cur.2.2 (.v a) ∧ (Instr.vmxq g).wellFormed = true ∧ Fires s g.p t f ∧
    HasTok f 1 s.cur.2.2 (.v b) := by
  let g : VecF := ⟨0, 0x1FF, 1, 0, 0, 9, 0, 2, 0xC⟩
  let s := at5 (.vmxq g) [(5, .v 1), (133, .v 2)]
  refine ⟨g, s, th s, fr s, 1, 2, ((th s).env 0 0 5).getD ⟨0, 0, 0, 0⟩, ?_⟩
  try dsimp only [Fires, HasTok, Arrived, FreshOp, FreshAt, Solo, AtHome, AtVault, HasReg, Untracked, Turn, Quiet, Calm, RoleOk, DistinctWrites, ReadyPlain]
  repeat' apply And.intro
  all_goals first | decide +kernel | exact holdsNothing_of _ _ (by decide +kernel) (by decide +kernel) | exact oldest_of_nil _ (by decide +kernel) | exact ok_of _ _ (by decide +kernel) | exact error_of _ _ (by decide +kernel) | exact forall_of_nil _ _ (by decide +kernel) | exact trivial

theorem witness_vmxdq : ∃ (g : VecF) (s : State) (t : Thread) (f : Frame) (a : Vec) (v : FEnv),
    t.env f.cyc s.cur.2.1 s.cur.2.2 = some v ∧ HasTok f 0 s.cur.2.2 (.v a) ∧ (Instr.vmxdq g).wellFormed = true ∧ Fires s g.p t f := by
  let g : VecF := ⟨0, 0x1FF, 1, 1, 0, 0x10, 0, 0, 9⟩
  let s := at5 (.vmxdq g) [(5, .v 1)]
  refine ⟨g, s, th s, fr s, 1, ((th s).env 0 0 5).getD ⟨0, 0, 0, 0⟩, ?_⟩
  try dsimp only [Fires, HasTok, Arrived, FreshOp, FreshAt, Solo, AtHome, AtVault, HasReg, Untracked, Turn, Quiet, Calm, RoleOk, DistinctWrites, ReadyPlain]
  repeat' apply And.intro
  all_goals first | decide +kernel | exact holdsNothing_of _ _ (by decide +kernel) (by decide +kernel) | exact oldest_of_nil _ (by decide +kernel) | exact ok_of _ _ (by decide +kernel) | exact error_of _ _ (by decide +kernel) | exact forall_of_nil _ _ (by decide +kernel) | exact trivial

theorem witness_vector_broadcast :
    ∃ (g : VecF) (s : State) (t : Thread) (f : Frame) (a : Word),
    Fires s g.p t f ∧
    let w := laneWidth g.ty.toNat
    let n := 512 / w
    let res := fun (i : Instr) (ok : Vec → Prop) => ∃ r, exec i s = .next (sent s f [g.t0, g.t1] (.v r)) ∧ ok r
    HasTok f 0 s.cur.2.2 (.s a) ∧ tyInt g.ty = true  := by
  refine ⟨⟨0, 0x1FF, 1, 0, 0, 0, 0, 0, 0⟩, at5 (.vbcast ⟨0, 0x1FF, 1, 0, 0, 0, 0, 0, 0⟩) [(5, .s 1)], th (at5 (.vbcast ⟨0, 0x1FF, 1, 0, 0, 0, 0, 0, 0⟩) [(5, .s 1)]), fr (at5 (.vbcast ⟨0, 0x1FF, 1, 0, 0, 0, 0, 0, 0⟩) [(5, .s 1)]), 1, ?_⟩
  try dsimp only [Fires, HasTok, Arrived, FreshOp, FreshAt, Solo, AtHome, AtVault, HasReg, Untracked, Turn, Quiet, Calm, RoleOk, DistinctWrites, ReadyPlain]
  repeat' apply And.intro
  all_goals first | decide +kernel | exact holdsNothing_of _ _ (by decide +kernel) (by decide +kernel) | exact oldest_of_nil _ (by decide +kernel) | exact ok_of _ _ (by decide +kernel) | exact error_of _ _ (by decide +kernel) | exact forall_of_nil _ _ (by decide +kernel) | exact trivial

theorem witness_vector_extract :
    ∃ (g : VecF) (s : State) (t : Thread) (f : Frame) (a : Vec),
    Fires s g.p t f ∧
    let w := laneWidth g.ty.toNat
    let n := 512 / w
    let res := fun (i : Instr) (ok : Vec → Prop) => ∃ r, exec i s = .next (sent s f [g.t0, g.t1] (.v r)) ∧ ok r
    HasTok f 0 s.cur.2.2 (.v a) ∧
    tyInt g.ty = true ∧ g.imm8.toNat < n  := by
  refine ⟨⟨0, 0x1FF, 1, 0, 0, 0, 0, 0, 0⟩, at5 (.vext ⟨0, 0x1FF, 1, 0, 0, 0, 0, 0, 0⟩) [(5, .v 1)], th (at5 (.vext ⟨0, 0x1FF, 1, 0, 0, 0, 0, 0, 0⟩) [(5, .v 1)]), fr (at5 (.vext ⟨0, 0x1FF, 1, 0, 0, 0, 0, 0, 0⟩) [(5, .v 1)]), 1, ?_⟩
  try dsimp only [Fires, HasTok, Arrived, FreshOp, FreshAt, Solo, AtHome, AtVault, HasReg, Untracked, Turn, Quiet, Calm, RoleOk, DistinctWrites, ReadyPlain]
  repeat' apply And.intro
  all_goals first | decide +kernel | exact holdsNothing_of _ _ (by decide +kernel) (by decide +kernel) | exact oldest_of_nil _ (by decide +kernel) | exact ok_of _ _ (by decide +kernel) | exact error_of _ _ (by decide +kernel) | exact forall_of_nil _ _ (by decide +kernel) | exact trivial

theorem witness_vector_shuffle :
    ∃ (g : VecF) (s : State) (t : Thread) (f : Frame) (a : Vec) (b : Vec),
    Fires s g.p t f ∧
    let w := laneWidth g.ty.toNat
    let n := 512 / w
    let res := fun (i : Instr) (ok : Vec → Prop) => ∃ r, exec i s = .next (sent s f [g.t0, g.t1] (.v r)) ∧ ok r
    HasTok f 0 s.cur.2.2 (.v a) ∧
    HasTok f 1 s.cur.2.2 (.v b) ∧ tyInt g.ty = true  := by
  refine ⟨⟨0, 0x1FF, 1, 0, 0, 0, 0, 0, 0⟩, at5 (.vshuf ⟨0, 0x1FF, 1, 0, 0, 0, 0, 0, 0⟩) [(5, .v 1), (133, .v 0)], th (at5 (.vshuf ⟨0, 0x1FF, 1, 0, 0, 0, 0, 0, 0⟩) [(5, .v 1), (133, .v 0)]), fr (at5 (.vshuf ⟨0, 0x1FF, 1, 0, 0, 0, 0, 0, 0⟩) [(5, .v 1), (133, .v 0)]), 1, 0, ?_⟩
  try dsimp only [Fires, HasTok, Arrived, FreshOp, FreshAt, Solo, AtHome, AtVault, HasReg, Untracked, Turn, Quiet, Calm, RoleOk, DistinctWrites, ReadyPlain]
  repeat' apply And.intro
  all_goals first | decide +kernel | exact holdsNothing_of _ _ (by decide +kernel) (by decide +kernel) | exact oldest_of_nil _ (by decide +kernel) | exact ok_of _ _ (by decide +kernel) | exact error_of _ _ (by decide +kernel) | exact forall_of_nil _ _ (by decide +kernel) | exact trivial

theorem witness_vector_insert :
    ∃ (g : VecF) (s : State) (t : Thread) (f : Frame) (a : Vec) (b : Word),
    Fires s g.p t f ∧
    let w := laneWidth g.ty.toNat
    let n := 512 / w
    let res := fun (i : Instr) (ok : Vec → Prop) => ∃ r, exec i s = .next (sent s f [g.t0, g.t1] (.v r)) ∧ ok r
    HasTok f 0 s.cur.2.2 (.v a) ∧
    HasTok f 1 s.cur.2.2 (.s b) ∧ tyInt g.ty = true ∧ g.imm8.toNat < n  := by
  refine ⟨⟨0, 0x1FF, 1, 0, 0, 0, 0, 0, 0⟩, at5 (.vins ⟨0, 0x1FF, 1, 0, 0, 0, 0, 0, 0⟩) [(5, .v 1), (133, .s 7)], th (at5 (.vins ⟨0, 0x1FF, 1, 0, 0, 0, 0, 0, 0⟩) [(5, .v 1), (133, .s 7)]), fr (at5 (.vins ⟨0, 0x1FF, 1, 0, 0, 0, 0, 0, 0⟩) [(5, .v 1), (133, .s 7)]), 1, 7, ?_⟩
  try dsimp only [Fires, HasTok, Arrived, FreshOp, FreshAt, Solo, AtHome, AtVault, HasReg, Untracked, Turn, Quiet, Calm, RoleOk, DistinctWrites, ReadyPlain]
  repeat' apply And.intro
  all_goals first | decide +kernel | exact holdsNothing_of _ _ (by decide +kernel) (by decide +kernel) | exact oldest_of_nil _ (by decide +kernel) | exact ok_of _ _ (by decide +kernel) | exact error_of _ _ (by decide +kernel) | exact forall_of_nil _ _ (by decide +kernel) | exact trivial

/-! ### Memory instructions -/

/-- A line of 64 bytes: byte `i` is `i`. -/
def testLine : L1Line := ⟨0x400, 1, true, 0, (List.range 64).map (BitVec.ofNat 8), 0⟩

/-- Page 0 of context 0 is translated to 0x10000, and the line there stands in the L1 of grid 0. -/
def paged (s : State) : State :=
  s.modGrid 0 fun g => { g with utlb := [⟨0, 0, 5, 0x10000, true, true, false, 0, 0, true⟩], l1 := [testLine] }

/-- A part that names nothing. -/
def noPart : Machine.Part := ⟨0, 0, 0, [], none, 0, 0, .want, Sig.empty⟩

theorem witness_load_fires :
    ∃ (i : Instr) (nb nc : Bool) (l : Nat) (x : Acc) (s : State) (t : Thread) (f : Frame) (a b c : Tok),
    memForm i = some (nb, nc, l) ∧ accOf i = some x ∧ i.wellFormed = true ∧ Fires s i.pred t f ∧
    Arrived f s.cur.2.2 (memTakes i nb nc) a b c ∧ FreshOp f s.cur.2.2 l ∧
    let k := s.cur.1
    let q := s.cur.2.1
    let slot := s.cur.2.2
    let ps := mkParts (s.ctx t.ctx).pre i x (f.operand 0 slot) (f.operand 1 slot) (f.operand 2 slot)
    let o := newOp i f slot l ps
    let s1 := trackedAt s f o
    let s2 := if x.kind = 1 ∨ x.kind = 2 ∨ x.kind = 5 then storeFired s1 k q o x else s1
    misuse x ps = none ∧ (x.kind = 2 → (effAddr i a.word).toNat % x.size = 0)  := by
  refine ⟨.ldd ⟨0, 0, 8, 1⟩, false, false, 0, (accOf (.ldd ⟨0, 0, 8, 1⟩)).getD ⟨0, 0, 0, 0, 0, 0, false⟩, at5 (.ldd ⟨0, 0, 8, 1⟩) [(5, .s 0)], th (at5 (.ldd ⟨0, 0, 8, 1⟩) [(5, .s 0)]), fr (at5 (.ldd ⟨0, 0, 8, 1⟩) [(5, .s 0)]), .s 0, .null, .null, ?_⟩
  try dsimp only [Fires, HasTok, Arrived, FreshOp, FreshAt, Solo, AtHome, AtVault, HasReg, Untracked, Turn, Quiet, Calm, RoleOk, DistinctWrites, ReadyPlain]
  repeat' apply And.intro
  all_goals first | decide +kernel | exact holdsNothing_of _ _ (by decide +kernel) (by decide +kernel) | exact oldest_of_nil _ (by decide +kernel) | exact ok_of _ _ (by decide +kernel) | exact error_of _ _ (by decide +kernel) | exact forall_of_nil _ _ (by decide +kernel) | rfl | simp

theorem witness_atomic_fires :
    ∃ (i : Instr) (nb nc : Bool) (l : Nat) (x : Acc) (s : State) (t : Thread) (f : Frame) (a b c : Tok),
    memForm i = some (nb, nc, l) ∧ accOf i = some x ∧ i.wellFormed = true ∧ Fires s i.pred t f ∧
    Arrived f s.cur.2.2 (memTakes i nb nc) a b c ∧ FreshOp f s.cur.2.2 l ∧
    let k := s.cur.1
    let q := s.cur.2.1
    let slot := s.cur.2.2
    let ps := mkParts (s.ctx t.ctx).pre i x (f.operand 0 slot) (f.operand 1 slot) (f.operand 2 slot)
    let o := newOp i f slot l ps
    let s1 := trackedAt s f o
    let s2 := if x.kind = 1 ∨ x.kind = 2 ∨ x.kind = 5 then storeFired s1 k q o x else s1
    misuse x ps = none ∧ (x.kind = 2 → (effAddr i a.word).toNat % x.size = 0)  := by
  refine ⟨.acas ⟨0, 0x1FF, 1, 8, 0, 0, 0, 4, 0, 3, 2⟩, true, true, 2, (accOf (.acas ⟨0, 0x1FF, 1, 8, 0, 0, 0, 4, 0, 3, 2⟩)).getD ⟨0, 0, 0, 0, 0, 0, false⟩, at5 (.acas ⟨0, 0x1FF, 1, 8, 0, 0, 0, 4, 0, 3, 2⟩) [(5, .s 0), (133, .s 1), (261, .s 2)], th (at5 (.acas ⟨0, 0x1FF, 1, 8, 0, 0, 0, 4, 0, 3, 2⟩) [(5, .s 0), (133, .s 1), (261, .s 2)]), fr (at5 (.acas ⟨0, 0x1FF, 1, 8, 0, 0, 0, 4, 0, 3, 2⟩) [(5, .s 0), (133, .s 1), (261, .s 2)]), .s 0, .s 1, .s 2, ?_⟩
  try dsimp only [Fires, HasTok, Arrived, FreshOp, FreshAt, Solo, AtHome, AtVault, HasReg, Untracked, Turn, Quiet, Calm, RoleOk, DistinctWrites, ReadyPlain]
  repeat' apply And.intro
  all_goals first | decide +kernel | exact holdsNothing_of _ _ (by decide +kernel) (by decide +kernel) | exact oldest_of_nil _ (by decide +kernel) | exact ok_of _ _ (by decide +kernel) | exact error_of _ _ (by decide +kernel) | exact forall_of_nil _ _ (by decide +kernel) | rfl | simp

theorem witness_access_parts : ∃ (pre : Nat) (e : Word) (n : Nat) (d : List (Option Byte)), 0 < n ∧ n ≤ 64 ∧ d.length = n ∧
    oneRegion e n = true ∧ e.toNat < 0xF * 2 ^ 60 :=
  ⟨16, 60, 8, List.replicate 8 none, by decide, by decide, by decide, by decide +kernel, by decide +kernel⟩

theorem witness_access_leaves_region : ∃ (pre : Nat) (e : Word) (n : Nat) (d : List (Option Byte)), 0 < n ∧ n ≤ 64 ∧
    d.length = n ∧ oneRegion e n = false ∧ 0xF * 2 ^ 60 ≤ e.toNat :=
  ⟨16, 0xFFFFFFFFFFFFFFFC, 8, List.replicate 8 none, by decide, by decide, by decide, by decide +kernel, by decide +kernel⟩

theorem witness_load_hits :
    ∃ (i : Instr) (l : Nat) (x : Acc) (s : State) (t : Thread) (f : Frame) (a : Word) (p : Part) (pa cls0 : Nat) (d : Bool)
    (h : Nat) (y : L1Line),
    memForm i = some (false, false, l) ∧ accOf i = some x ∧ x.kind = 0 ∧ x.fe = 0 ∧ x.ord = 0 ∧ i.wellFormed = true ∧
    Fires s i.pred t f ∧ HasTok f 0 s.cur.2.2 (.s a) ∧ t.frames = [f] ∧
    (∀ o ∈ f.ops, o.slot ≠ s.cur.2.2 ∧ ∀ l', o.lsid = some l' → l' < l) ∧
    let k := s.cur.1
    let slot := s.cur.2.2
    let ps := mkParts (s.ctx t.ctx).pre i x (f.operand 0 slot) (f.operand 1 slot) (f.operand 2 slot)
    let f1 := { f.fireAt slot with ops := f.ops ++ [newOp i f slot l ps] }
    let t1 := { t with frames := [f1] }
    let gs := coreGrids (gridOfThr k) f.width
    let cls := if x.cls = 0 then cls0 else x.cls
    ps = [p] ∧ p.st = .want ∧ acquireOk t1 f1 l = true ∧ fencesDue f1 l = [] ∧
    atomicPending (opsBefore t1 f1 l) p = false ∧
    depWaits s (slotGrid (gridOfThr k) f.width slot) t1 f1 slot l = false ∧
    translate s t.ctx f.sup (some (slotGrid (gridOfThr k) f.width slot)) (cluOf k) 0 p.va = .ok pa cls0 0 d ∧
    cls ≠ 4 ∧ lineHeld (trackedAt s f (newOp i f slot l ps)) k t1 f.seq (lineOf pa) (tracked cls 0) = false ∧
    coreLine s gs (lineOf pa) (cls = 1) = some (h, y) ∧ y.data.length = 64 ∧ y.poison = 0 ∧ pa % 64 + p.len ≤ 64  := by
  refine ⟨.ldd ⟨0, 0, 8, 1⟩, 0, (accOf (.ldd ⟨0, 0, 8, 1⟩)).getD ⟨0, 0, 0, 0, 0, 0, false⟩, paged (at5 (.ldd ⟨0, 0, 8, 1⟩) [(5, .s 0)]), th (paged (at5 (.ldd ⟨0, 0, 8, 1⟩) [(5, .s 0)])), fr (paged (at5 (.ldd ⟨0, 0, 8, 1⟩) [(5, .s 0)])), 0, ((mkParts 0 (.ldd ⟨0, 0, 8, 1⟩) ((accOf (.ldd ⟨0, 0, 8, 1⟩)).getD ⟨0, 0, 0, 0, 0, 0, false⟩) ((fr (paged (at5 (.ldd ⟨0, 0, 8, 1⟩) [(5, .s 0)]))).operand 0 5) ((fr (paged (at5 (.ldd ⟨0, 0, 8, 1⟩) [(5, .s 0)]))).operand 1 5) ((fr (paged (at5 (.ldd ⟨0, 0, 8, 1⟩) [(5, .s 0)]))).operand 2 5)).getD 0 noPart), 0x10008, 1, true, 0, testLine, ?_⟩
  try dsimp only [Fires, HasTok, Arrived, FreshOp, FreshAt, Solo, AtHome, AtVault, HasReg, Untracked, Turn, Quiet, Calm, RoleOk, DistinctWrites, ReadyPlain]
  repeat' apply And.intro
  all_goals first | decide +kernel | exact holdsNothing_of _ _ (by decide +kernel) (by decide +kernel) | exact oldest_of_nil _ (by decide +kernel) | exact ok_of _ _ (by decide +kernel) | exact error_of _ _ (by decide +kernel) | exact forall_of_nil _ _ (by decide +kernel) | rfl | simp

theorem witness_store_prepared :
    ∃ (i : Instr) (l : Nat) (x : Acc) (s : State) (t : Thread) (f : Frame) (a : Word) (b : Tok) (p : Part) (pa cls0 : Nat),
    memForm i = some (true, false, l) ∧ accOf i = some x ∧ x.kind = 1 ∧ x.fe = 0 ∧ x.ord = 0 ∧ i.wellFormed = true ∧
    Fires s i.pred t f ∧ HasTok f 0 s.cur.2.2 (.s a) ∧ HasTok f 1 s.cur.2.2 b ∧ b ≠ .null ∧ t.frames = [f] ∧
    (∀ o ∈ f.ops, o.slot ≠ s.cur.2.2 ∧ ∀ l', o.lsid = some l' → l' < l) ∧
    let k := s.cur.1
    let slot := s.cur.2.2
    let cls := if x.cls = 0 then cls0 else x.cls
    mkParts (s.ctx t.ctx).pre i x (f.operand 0 slot) b (f.operand 2 slot) = [p] ∧ p.st = .want ∧
    translate s t.ctx f.sup (some (slotGrid (gridOfThr k) f.width slot)) (cluOf k) 1 p.va = .ok pa cls0 0 true ∧
    lineReady s (coreGrids (gridOfThr k) f.width) pa cls 0 = true  := by
  refine ⟨.std ⟨0, 1, 8⟩, 1, (accOf (.std ⟨0, 1, 8⟩)).getD ⟨0, 0, 0, 0, 0, 0, false⟩, paged (at5 (.std ⟨0, 1, 8⟩) [(5, .s 0), (133, .s 0x1122334455667788)]), th (paged (at5 (.std ⟨0, 1, 8⟩) [(5, .s 0), (133, .s 0x1122334455667788)])), fr (paged (at5 (.std ⟨0, 1, 8⟩) [(5, .s 0), (133, .s 0x1122334455667788)])), 0, .s 0x1122334455667788, ((mkParts 0 (.std ⟨0, 1, 8⟩) ((accOf (.std ⟨0, 1, 8⟩)).getD ⟨0, 0, 0, 0, 0, 0, false⟩) ((fr (paged (at5 (.std ⟨0, 1, 8⟩) [(5, .s 0), (133, .s 0x1122334455667788)]))).operand 0 5) ((fr (paged (at5 (.std ⟨0, 1, 8⟩) [(5, .s 0), (133, .s 0x1122334455667788)]))).operand 1 5) ((fr (paged (at5 (.std ⟨0, 1, 8⟩) [(5, .s 0), (133, .s 0x1122334455667788)]))).operand 2 5)).getD 0 noPart), 0x10008, 1, ?_⟩
  try dsimp only [Fires, HasTok, Arrived, FreshOp, FreshAt, Solo, AtHome, AtVault, HasReg, Untracked, Turn, Quiet, Calm, RoleOk, DistinctWrites, ReadyPlain]
  repeat' apply And.intro
  all_goals first | decide +kernel | exact holdsNothing_of _ _ (by decide +kernel) (by decide +kernel) | exact oldest_of_nil _ (by decide +kernel) | exact ok_of _ _ (by decide +kernel) | exact error_of _ _ (by decide +kernel) | exact forall_of_nil _ _ (by decide +kernel) | rfl | simp

/-- What a plain load of 8 bytes asks. -/
def loadAcc0 : Acc := (accOf (.ldd ⟨0, 0, 0, 1⟩)).getD ⟨0, 0, 0, 0, 0, 0, false⟩

/-- In a vault region: a granule's last byte, an access over two granules, 64 bytes aligned and not; outside them any qualified access;
and accesses that are not qualified ones. -/
theorem witness_qualifier_codes :
    (∃ (x : Acc) (p : Machine.Part), x.fe ≠ 0 ∧ x.kind < 2 ∧ p.va / 2 ^ 72 % 256 ≠ 0xF0 ∧ p.va / 2 ^ 72 % 256 ≠ 0xF1) ∧
    (∃ (x : Acc) (p : Machine.Part), x.fe ≠ 0 ∧ x.kind < 2 ∧ p.va / 2 ^ 72 % 256 = 0xF0 ∧ p.va / 16 = (p.va + x.size - 1) / 16) ∧
    (∃ (x : Acc) (p : Machine.Part), x.fe ≠ 0 ∧ x.kind < 2 ∧ p.va / 2 ^ 72 % 256 = 0xF1 ∧ x.size = 64 ∧ p.va % 64 = 0) ∧
    (∃ (x : Acc) (p : Machine.Part), x.fe ≠ 0 ∧ x.kind < 2 ∧ p.va / 2 ^ 72 % 256 = 0xF1 ∧ p.va / 16 ≠ (p.va + x.size - 1) / 16 ∧
      ¬(x.size = 64 ∧ p.va % 64 = 0)) ∧
    ∃ (x : Acc), x.fe = 0 := by
  let x := fun (n : Nat) => { loadAcc0 with fe := 1, size := n }
  refine ⟨⟨x 8, noPart, ?_⟩, ⟨x 1, { noPart with va := 0xF0 * 2 ^ 72 + 15 }, ?_⟩, ⟨x 64, { noPart with va := 0xF1 * 2 ^ 72 + 64 }, ?_⟩,
    ⟨x 8, { noPart with va := 0xF1 * 2 ^ 72 + 9 }, ?_⟩, ⟨loadAcc0, ?_⟩⟩ <;>
  · repeat' apply And.intro
    all_goals decide +kernel

theorem witness_misplaced_qualified_access :
    ∃ (i : Instr) (nb nc : Bool) (l : Nat) (x : Acc) (s : State) (t : Thread) (f : Frame) (a b c : Tok) (cls code : Nat),
    memForm i = some (nb, nc, l) ∧ accOf i = some x ∧ i.wellFormed = true ∧ Fires s i.pred t f ∧
    Arrived f s.cur.2.2 (memTakes i nb nc) a b c ∧ FreshOp f s.cur.2.2 l ∧
    let slot := s.cur.2.2
    let ps := mkParts (s.ctx t.ctx).pre i x (f.operand 0 slot) (f.operand 1 slot) (f.operand 2 slot)
    ((misuse x ps = some code ∧ cls = 0x07) ∨
      (misuse x ps = none ∧ x.kind = 2 ∧ (effAddr i a.word).toNat % x.size ≠ 0 ∧ cls = 0x06 ∧ code = 0x30))  := by
  refine ⟨.ld ⟨0, 0x1FF, 1, 8, 0, 1, 0, 4, 0, 3, 2⟩, false, false, 2, (accOf (.ld ⟨0, 0x1FF, 1, 8, 0, 1, 0, 4, 0, 3, 2⟩)).getD ⟨0, 0, 0, 0, 0, 0, false⟩, at5 (.ld ⟨0, 0x1FF, 1, 8, 0, 1, 0, 4, 0, 3, 2⟩) [(5, .s 0)], th (at5 (.ld ⟨0, 0x1FF, 1, 8, 0, 1, 0, 4, 0, 3, 2⟩) [(5, .s 0)]), fr (at5 (.ld ⟨0, 0x1FF, 1, 8, 0, 1, 0, 4, 0, 3, 2⟩) [(5, .s 0)]), .s 0, .null, .null, 7, 0x38, ?_⟩
  try dsimp only [Fires, HasTok, Arrived, FreshOp, FreshAt, Solo, AtHome, AtVault, HasReg, Untracked, Turn, Quiet, Calm, RoleOk, DistinctWrites, ReadyPlain]
  repeat' apply And.intro
  all_goals first | decide +kernel | exact holdsNothing_of _ _ (by decide +kernel) (by decide +kernel) | exact oldest_of_nil _ (by decide +kernel) | exact ok_of _ _ (by decide +kernel) | exact error_of _ _ (by decide +kernel) | exact forall_of_nil _ _ (by decide +kernel) | rfl | simp

theorem witness_unaligned_atomic :
    ∃ (i : Instr) (nb nc : Bool) (l : Nat) (x : Acc) (s : State) (t : Thread) (f : Frame) (a b c : Tok) (cls code : Nat),
    memForm i = some (nb, nc, l) ∧ accOf i = some x ∧ i.wellFormed = true ∧ Fires s i.pred t f ∧
    Arrived f s.cur.2.2 (memTakes i nb nc) a b c ∧ FreshOp f s.cur.2.2 l ∧
    let slot := s.cur.2.2
    let ps := mkParts (s.ctx t.ctx).pre i x (f.operand 0 slot) (f.operand 1 slot) (f.operand 2 slot)
    ((misuse x ps = some code ∧ cls = 0x07) ∨
      (misuse x ps = none ∧ x.kind = 2 ∧ (effAddr i a.word).toNat % x.size ≠ 0 ∧ cls = 0x06 ∧ code = 0x30))  := by
  refine ⟨.aadd ⟨0, 0x1FF, 1, 1, 0, 0, 0, 4, 0, 3, 2⟩, true, false, 2, (accOf (.aadd ⟨0, 0x1FF, 1, 1, 0, 0, 0, 4, 0, 3, 2⟩)).getD ⟨0, 0, 0, 0, 0, 0, false⟩, at5 (.aadd ⟨0, 0x1FF, 1, 1, 0, 0, 0, 4, 0, 3, 2⟩) [(5, .s 0), (133, .s 1)], th (at5 (.aadd ⟨0, 0x1FF, 1, 1, 0, 0, 0, 4, 0, 3, 2⟩) [(5, .s 0), (133, .s 1)]), fr (at5 (.aadd ⟨0, 0x1FF, 1, 1, 0, 0, 0, 4, 0, 3, 2⟩) [(5, .s 0), (133, .s 1)]), .s 0, .s 1, .null, 6, 0x30, ?_⟩
  try dsimp only [Fires, HasTok, Arrived, FreshOp, FreshAt, Solo, AtHome, AtVault, HasReg, Untracked, Turn, Quiet, Calm, RoleOk, DistinctWrites, ReadyPlain]
  repeat' apply And.intro
  all_goals first | decide +kernel | exact holdsNothing_of _ _ (by decide +kernel) (by decide +kernel) | exact oldest_of_nil _ (by decide +kernel) | exact ok_of _ _ (by decide +kernel) | exact error_of _ _ (by decide +kernel) | exact forall_of_nil _ _ (by decide +kernel) | rfl | simp

theorem witness_fence_fires :
    ∃ (g : SyncF) (s : State) (t : Thread) (f : Frame),
    Fires s g.p t f ∧ FreshOp f s.cur.2.2 g.lsid.toNat  := by
  refine ⟨⟨0, 0x1FF, 0x1FF, 0, 0, 2, 0⟩, at5 (.fence ⟨0, 0x1FF, 0x1FF, 0, 0, 2, 0⟩) [], th (at5 (.fence ⟨0, 0x1FF, 0x1FF, 0, 0, 2, 0⟩) []), fr (at5 (.fence ⟨0, 0x1FF, 0x1FF, 0, 0, 2, 0⟩) []), ?_⟩
  try dsimp only [Fires, HasTok, Arrived, FreshOp, FreshAt, Solo, AtHome, AtVault, HasReg, Untracked, Turn, Quiet, Calm, RoleOk, DistinctWrites, ReadyPlain]
  repeat' apply And.intro
  all_goals first | decide +kernel | exact holdsNothing_of _ _ (by decide +kernel) (by decide +kernel) | exact oldest_of_nil _ (by decide +kernel) | exact ok_of _ _ (by decide +kernel) | exact error_of _ _ (by decide +kernel) | exact forall_of_nil _ _ (by decide +kernel) | exact trivial

theorem witness_bara_fires :
    ∃ (g : SyncF) (s : State) (t : Thread) (f : Frame) (a : Word),
    Fires s g.p t f ∧ FreshOp f s.cur.2.2 g.lsid.toNat ∧
    HasTok f 0 s.cur.2.2 (.s a)  := by
  refine ⟨⟨0, 0x1FF, 0x1FF, 0, 0, 2, 0⟩, at5 (.bara ⟨0, 0x1FF, 0x1FF, 0, 0, 2, 0⟩) [(5, .s 2)], th (at5 (.bara ⟨0, 0x1FF, 0x1FF, 0, 0, 2, 0⟩) [(5, .s 2)]), fr (at5 (.bara ⟨0, 0x1FF, 0x1FF, 0, 0, 2, 0⟩) [(5, .s 2)]), 2, ?_⟩
  try dsimp only [Fires, HasTok, Arrived, FreshOp, FreshAt, Solo, AtHome, AtVault, HasReg, Untracked, Turn, Quiet, Calm, RoleOk, DistinctWrites, ReadyPlain]
  repeat' apply And.intro
  all_goals first | decide +kernel | exact holdsNothing_of _ _ (by decide +kernel) (by decide +kernel) | exact oldest_of_nil _ (by decide +kernel) | exact ok_of _ _ (by decide +kernel) | exact error_of _ _ (by decide +kernel) | exact forall_of_nil _ _ (by decide +kernel) | exact trivial

theorem witness_barw_fires : ∃ (g : SyncF) (s : State) (t : Thread) (f : Frame), Fires s g.p t f ∧
    FreshOp f s.cur.2.2 g.lsid.toNat ∧ t.frames = [f] ∧ f.ops = [] ∧ f.below g.lsid.toNat (fun w _ => opc w == 0x41) = [] ∧
    tget t.arrive (16 * g.scope.toNat + g.bid.toNat) = none := by
  let s := at5 (.barw ⟨0, 0x1FF, 0x1FF, 0, 0, 2, 0⟩) []
  refine ⟨⟨0, 0x1FF, 0x1FF, 0, 0, 2, 0⟩, s, th s, fr s, ?_⟩
  try dsimp only [Fires, HasTok, Arrived, FreshOp, FreshAt, Solo, AtHome, AtVault, HasReg, Untracked, Turn, Quiet, Calm, RoleOk, DistinctWrites, ReadyPlain]
  repeat' apply And.intro
  all_goals first | decide +kernel | exact holdsNothing_of _ _ (by decide +kernel) (by decide +kernel) | exact oldest_of_nil _ (by decide +kernel) | exact ok_of _ _ (by decide +kernel) | exact error_of _ _ (by decide +kernel) | exact forall_of_nil _ _ (by decide +kernel) | exact trivial

/-- Thread 0 has arrived in episode 0 of barrier 0 of its cluster, and that episode is complete, with a signature of line 5. -/
def arrived0 (s : State) : State :=
  { onThr s fun t => { t with arrive := [(32, 0)] } with
    bars := [(barKey s 0 (th s) 2 0, ⟨0, 0, 1, Sig.empty, [(0, Sig.empty.insert 5)]⟩)] }

theorem witness_barw_complete : ∃ (g : SyncF) (s : State) (t : Thread) (f : Frame) (e : Nat) (x : Sig), Fires s g.p t f ∧
    FreshOp f s.cur.2.2 g.lsid.toNat ∧ t.frames = [f] ∧ f.ops = [] ∧ f.below g.lsid.toNat (fun w _ => opc w == 0x41) = [] ∧
    tget t.arrive (16 * g.scope.toNat + g.bid.toNat) = some e ∧
    tget (s.bar (barKey s s.cur.1 t g.scope.toNat g.bid.toNat)).past e = some x ∧ s.thrs = [(s.cur.1, t)] := by
  let s := arrived0 (at5 (.barw ⟨0, 0x1FF, 0x1FF, 0, 0, 2, 0⟩) [])
  refine ⟨⟨0, 0x1FF, 0x1FF, 0, 0, 2, 0⟩, s, th s, fr s, 0, Sig.empty.insert 5, ?_⟩
  try dsimp only [Fires, HasTok, Arrived, FreshOp, FreshAt, Solo, AtHome, AtVault, HasReg, Untracked, Turn, Quiet, Calm, RoleOk, DistinctWrites, ReadyPlain]
  repeat' apply And.intro
  all_goals first | decide +kernel | exact holdsNothing_of _ _ (by decide +kernel) (by decide +kernel) | exact oldest_of_nil _ (by decide +kernel) | exact ok_of _ _ (by decide +kernel) | exact error_of _ _ (by decide +kernel) | exact forall_of_nil _ _ (by decide +kernel) | exact trivial

/-- R260, R4: bytes 8 to 15 of the line, little-endian. -/
theorem test_load_hit : gives (.ldd ⟨0, 0, 8, 1⟩) [(5, .s 0)] paged (fun s => (fr s).transit == [(1, .s 0x0F0E0D0C0B0A0908)]) = true := by
  decide +kernel

/-- R260: LDHS of bytes 0x3E and 0x3F of the line. -/
theorem test_load_half : gives (.ldhs ⟨0, 0, 0x3E, 1⟩) [(5, .s 0)] paged (fun s => (fr s).transit == [(1, .s 0x3F3E)]) = true := by
  decide +kernel

/-- R261, R118: the bytes wait in the block. -/
theorem test_store_prepared : gives (.std ⟨0, 1, 8⟩) [(5, .s 0), (133, .s 0x1122334455667788)] paged (fun s =>
    ((fr s).op 5).any fun o => o.parts.map (fun p => (p.data.take 2, p.pa)) == [([some 0x88, some 0x77], some 0x10008)]) = true := by
  decide +kernel

/-- R67, R416: code 0x38 at slot 5, LSID 2. -/
theorem test_misplaced_qualified : gives (.ld ⟨0, 0x1FF, 1, 8, 0, 1, 0, 4, 0, 3, 2⟩) [(5, .s 0)] id (fun s =>
    (fr s).faults == [⟨7, BitVec.ofNat 64 (5 + 512 * 0x38 + 65536 * 2), some 2, 5⟩]) = true := by
  decide +kernel

theorem test_barw_without_arrival : gives (.barw ⟨0, 0x1FF, 1, 0, 0, 2, 0⟩) [] id (fun s => (fr s).transit == [(1, .s 0)]) = true := by
  decide +kernel

/-! ### Exits, traps and commit -/

/-- The block has an exit. -/
def exited (s : State) : State := onFr s fun f => { f with exit := some ⟨0, 0x2000, 0, 0⟩ }

/-- A younger block at address 0x300. -/
def youngFrame : Frame := { Frame.mk0 1 0x300 true 1 none with stage := 1 }

/-- The thread has a younger block. -/
def younger (s : State) : State := onThr s fun t => { t with frames := t.frames ++ [youngFrame], nextSeq := 2 }

/-- The thread has a function table of four entries at 0x4000. -/
def tabled (s : State) : State := onThr s fun t => { t with spec := { t.spec with ftab := 0x4000, ftlen := 4 } }

/-- A TRAP with code 7 has fired at slot 5. -/
def trapping (s : State) : State :=
  onFr s fun f => { f with fired := [5], faults := [⟨0x11, BitVec.ofNat 64 (7 + 65536 * 5), none, 5⟩] }

/-- The thread is in a trap handler. -/
def handling (s : State) : State := onThr s fun t => { t with spec := { t.spec with tstat := 5 } }

/-- The fetch of the block has failed at page 3. -/
def failing (s : State) : State := onFr s fun f => { f with fails := [⟨0, 3, 5, 3, 2⟩] }

/-- 16,777,217 cycles have passed on the thread's grid. -/
def overdue (s : State) : State := { s with gcyc := [(0, 0x1000001)] }

/-- The block does not run in supervisor mode. -/
def user (s : State) : State := onFr s fun f => { f with sup := false }

/-- The block has fired its exit; its write entry 0 names g5. -/
def committing (x : Exit) (s : State) : State :=
  onFr s fun f => { f with
    exit := some x, fired := [5]
    chunks := (0, [0, 0, 5] ++ List.replicate 29 0) :: f.chunks.drop 1 }

/-- An SRR at slot 5 that waits for its turn. -/
def srrOp (a : Word) : Op := Op.mk0 (.srr ⟨0, 0x1FF, 1, 0⟩) 5 (some 0) (.s a) .null .null
/-- The block tracks it. -/
def waitingSrr (a : Word) (s : State) : State := onFr s fun f => { f with fired := [5], ops := [srrOp a] }

/-- A tracked instruction at LSID 0 that has passed its check. -/
def heldOp (i : Instr) : Op := { Op.mk0 i 5 (some 0) (.s 3) .null .null with ans := some .null, stage := 1 }
/-- The block of an exit holds it, masks LSID 0 and writes no register. -/
def holding (i : Instr) (s : State) : State :=
  onFr s fun f => { f with ops := [heldOp i], chunks := (0, [0, 1] ++ List.replicate 30 0) :: f.chunks.drop 1 }
/-- The block is being committed and its release drains. -/
def draining (s : State) : State :=
  onThr (onFr s fun f => { f with stage := 2, ops := f.ops.map fun o => { o with ans := none, stage := 0 } }) fun t =>
    { t with post := .release }

theorem witness_branch :
    ∃ (s : State) (t : Thread) (f : Frame) (g : BF),
    Solo s s.cur.1 t ∧ (∀ y ∈ t.frames, y.seq ≤ f.seq) ∧ f.exit = none ∧
    Fires s g.p t f  := by
  refine ⟨at5 (.br ⟨0, 1, 2⟩) [], th (at5 (.br ⟨0, 1, 2⟩) []), fr (at5 (.br ⟨0, 1, 2⟩) []), ⟨0, 1, 2⟩, ?_⟩
  repeat' apply And.intro
  all_goals decide +kernel

theorem witness_branch_register :
    ∃ (s : State) (t : Thread) (f : Frame) (g : BrF) (a : Word),
    Solo s s.cur.1 t ∧ (∀ y ∈ t.frames, y.seq ≤ f.seq) ∧ f.exit = none ∧
    Fires s g.p t f ∧ HasTok f 0 s.cur.2.2 (.s a)  := by
  refine ⟨at5 (.bri ⟨0, 1⟩) [(5, .s 0x1000)], th (at5 (.bri ⟨0, 1⟩) [(5, .s 0x1000)]), fr (at5 (.bri ⟨0, 1⟩) [(5, .s 0x1000)]), ⟨0, 1⟩, 0x1000, ?_⟩
  try dsimp only [Fires, HasTok, Arrived, FreshOp, FreshAt, Solo, AtHome, AtVault, HasReg, Untracked, Turn, Quiet, Calm, RoleOk, DistinctWrites, ReadyPlain]
  repeat' apply And.intro
  all_goals first | decide +kernel | exact holdsNothing_of _ _ (by decide +kernel) (by decide +kernel) | exact oldest_of_nil _ (by decide +kernel) | exact ok_of _ _ (by decide +kernel) | exact error_of _ _ (by decide +kernel) | exact forall_of_nil _ _ (by decide +kernel) | exact trivial

theorem witness_exception_return :
    ∃ (s : State) (t : Thread) (f : Frame) (g : EretF),
    Solo s s.cur.1 t ∧ (∀ y ∈ t.frames, y.seq ≤ f.seq) ∧ f.exit = none ∧
    Fires s g.p t f ∧ f.sup = true  := by
  refine ⟨at5 (.eret ⟨0, 1⟩) [], th (at5 (.eret ⟨0, 1⟩) []), fr (at5 (.eret ⟨0, 1⟩) []), ⟨0, 1⟩, ?_⟩
  repeat' apply And.intro
  all_goals decide +kernel

theorem witness_second_branch :
    ∃ (s : State) (t : Thread) (f : Frame) (x : Exit) (g : BF),
    Solo s s.cur.1 t ∧ f.exit = some x ∧
    Fires s g.p t f  := by
  refine ⟨exited (at5 (.br ⟨0, 1, 2⟩) []), th (exited (at5 (.br ⟨0, 1, 2⟩) [])), fr (exited (at5 (.br ⟨0, 1, 2⟩) [])), ⟨0, 0x2000, 0, 0⟩, ⟨0, 1, 2⟩, ?_⟩
  repeat' apply And.intro
  all_goals decide +kernel

theorem witness_second_return :
    ∃ (s : State) (t : Thread) (f : Frame) (x : Exit) (g : BrF) (a : Word),
    Solo s s.cur.1 t ∧ f.exit = some x ∧
    Fires s g.p t f ∧ HasTok f 0 s.cur.2.2 (.s a)  := by
  refine ⟨exited (at5 (.ret ⟨0, 1⟩) [(5, .s 0x1000)]), th (exited (at5 (.ret ⟨0, 1⟩) [(5, .s 0x1000)])), fr (exited (at5 (.ret ⟨0, 1⟩) [(5, .s 0x1000)])), ⟨0, 0x2000, 0, 0⟩, ⟨0, 1⟩, 0x1000, ?_⟩
  try dsimp only [Fires, HasTok, Arrived, FreshOp, FreshAt, Solo, AtHome, AtVault, HasReg, Untracked, Turn, Quiet, Calm, RoleOk, DistinctWrites, ReadyPlain]
  repeat' apply And.intro
  all_goals first | decide +kernel | exact holdsNothing_of _ _ (by decide +kernel) (by decide +kernel) | exact oldest_of_nil _ (by decide +kernel) | exact ok_of _ _ (by decide +kernel) | exact error_of _ _ (by decide +kernel) | exact forall_of_nil _ _ (by decide +kernel) | exact trivial

theorem witness_second_eret :
    ∃ (s : State) (t : Thread) (f : Frame) (x : Exit) (g : EretF),
    Solo s s.cur.1 t ∧ f.exit = some x ∧
    Fires s g.p t f ∧ f.sup = true  := by
  refine ⟨exited (at5 (.eret ⟨0, 1⟩) []), th (exited (at5 (.eret ⟨0, 1⟩) [])), fr (exited (at5 (.eret ⟨0, 1⟩) [])), ⟨0, 0x2000, 0, 0⟩, ⟨0, 1⟩, ?_⟩
  repeat' apply And.intro
  all_goals decide +kernel

theorem witness_wrong_path :
    ∃ (g : BF) (s : State) (t : Thread) (f y : Frame) (ys : List Frame),
    Solo s s.cur.1 t ∧ t.frames = f :: y :: ys ∧
    Fires s g.p t f ∧ f.exit = none ∧ (∀ z ∈ y :: ys, f.seq < z.seq ∧ y.seq ≤ z.seq) ∧ HoldsNothing s s.cur.1  := by
  refine ⟨⟨0, 1, 2⟩, younger (at5 (.br ⟨0, 1, 2⟩) []), th (younger (at5 (.br ⟨0, 1, 2⟩) [])), fr (younger (at5 (.br ⟨0, 1, 2⟩) [])), youngFrame, [], ?_⟩
  try dsimp only [Fires, HasTok, Arrived, FreshOp, FreshAt, Solo, AtHome, AtVault, HasReg, Untracked, Turn, Quiet, Calm, RoleOk, DistinctWrites, ReadyPlain]
  repeat' apply And.intro
  all_goals first | decide +kernel | exact holdsNothing_of _ _ (by decide +kernel) (by decide +kernel) | exact oldest_of_nil _ (by decide +kernel) | exact ok_of _ _ (by decide +kernel) | exact error_of _ _ (by decide +kernel) | exact forall_of_nil _ _ (by decide +kernel) | exact trivial

theorem witness_trap :
    ∃ (s : State) (t : Thread) (f : Frame) (g : TrapF),
    
    Fires s g.p t f  := by
  refine ⟨at5 (.trap ⟨0, 7⟩) [], th (at5 (.trap ⟨0, 7⟩) []), fr (at5 (.trap ⟨0, 7⟩) []), ⟨0, 7⟩, ?_⟩
  repeat' apply And.intro
  all_goals decide +kernel

theorem witness_counter :
    ∃ (s : State) (t : Thread) (f : Frame) (g : PerfrF),
    
    Fires s g.p t f ∧ t.isOldest f.seq = true ∧ FreshAt f s.cur.2.2 none := by
  refine ⟨at5 (.perfr ⟨0, 0x1FF, 1, 2⟩) [], th (at5 (.perfr ⟨0, 0x1FF, 1, 2⟩) []), fr (at5 (.perfr ⟨0, 0x1FF, 1, 2⟩) []), ⟨0, 0x1FF, 1, 2⟩, ?_⟩
  try dsimp only [Fires, HasTok, Arrived, FreshOp, FreshAt, Solo, AtHome, AtVault, HasReg, Untracked, Turn, Quiet, Calm, RoleOk, DistinctWrites, ReadyPlain]
  repeat' apply And.intro
  all_goals first | decide +kernel | exact holdsNothing_of _ _ (by decide +kernel) (by decide +kernel) | exact oldest_of_nil _ (by decide +kernel) | exact ok_of _ _ (by decide +kernel) | exact error_of _ _ (by decide +kernel) | exact forall_of_nil _ _ (by decide +kernel) | exact trivial

theorem witness_table_call_beyond :
    ∃ (s : State) (t : Thread) (f : Frame) (g : CalliF) (a ft len : Word),
    
    Fires s g.p t f ∧ HasTok f 0 s.cur.2.2 (.s a) ∧
      FreshOp f s.cur.2.2 g.lsid.toNat ∧ t.regFor f.cyc f.seq 195 = some (.s ft) ∧ t.regFor f.cyc f.seq 196 = some (.s len) ∧
    len.toNat % 2 ^ 32 ≤ a.toNat  := by
  refine ⟨at5 (.calli ⟨0, 0x4C21, 0, 0⟩) [(5, .s 3)], th (at5 (.calli ⟨0, 0x4C21, 0, 0⟩) [(5, .s 3)]), fr (at5 (.calli ⟨0, 0x4C21, 0, 0⟩) [(5, .s 3)]), ⟨0, 0x4C21, 0, 0⟩, 3, 0, 0, ?_⟩
  try dsimp only [Fires, HasTok, Arrived, FreshOp, FreshAt, Solo, AtHome, AtVault, HasReg, Untracked, Turn, Quiet, Calm, RoleOk, DistinctWrites, ReadyPlain]
  repeat' apply And.intro
  all_goals first | decide +kernel | exact holdsNothing_of _ _ (by decide +kernel) (by decide +kernel) | exact oldest_of_nil _ (by decide +kernel) | exact ok_of _ _ (by decide +kernel) | exact error_of _ _ (by decide +kernel) | exact forall_of_nil _ _ (by decide +kernel) | exact trivial

theorem witness_table_call :
    ∃ (s : State) (t : Thread) (f : Frame) (g : CalliF) (a ft len : Word),
    
    Fires s g.p t f ∧ HasTok f 0 s.cur.2.2 (.s a) ∧
      FreshOp f s.cur.2.2 g.lsid.toNat ∧ t.regFor f.cyc f.seq 195 = some (.s ft) ∧ t.regFor f.cyc f.seq 196 = some (.s len) ∧
    a.toNat < len.toNat % 2 ^ 32  := by
  refine ⟨tabled (at5 (.calli ⟨0, 0x4C21, 0, 0⟩) [(5, .s 3)]), th (tabled (at5 (.calli ⟨0, 0x4C21, 0, 0⟩) [(5, .s 3)])), fr (tabled (at5 (.calli ⟨0, 0x4C21, 0, 0⟩) [(5, .s 3)])), ⟨0, 0x4C21, 0, 0⟩, 3, 0x4000, 4, ?_⟩
  try dsimp only [Fires, HasTok, Arrived, FreshOp, FreshAt, Solo, AtHome, AtVault, HasReg, Untracked, Turn, Quiet, Calm, RoleOk, DistinctWrites, ReadyPlain]
  repeat' apply And.intro
  all_goals first | decide +kernel | exact holdsNothing_of _ _ (by decide +kernel) (by decide +kernel) | exact oldest_of_nil _ (by decide +kernel) | exact ok_of _ _ (by decide +kernel) | exact error_of _ _ (by decide +kernel) | exact forall_of_nil _ _ (by decide +kernel) | exact trivial

theorem witness_fault_traps :
    ∃ (i : Instr) (k : Nat) (cs : List Nat) (cls : Nat) (e : Word) (s : State) (t : Thread) (f : Frame),
    faultClasses i = some (k, cs) ∧ cls ∈ cs ∧ cls ≠ 0x01 ∧ Solo s k t ∧ t.spec.tstat.getLsbD 2 = false ∧
    raises s k = some (t, f, cls, e) ∧ (∀ y ∈ t.frames, f.seq ≤ y.seq) ∧ HoldsNothing s k  := by
  refine ⟨.trapInstruction 0, 0, [0x11], 0x11, BitVec.ofNat 64 (7 + 65536 * 5), trapping (at5 (.trap ⟨0, 7⟩) []), th (trapping (at5 (.trap ⟨0, 7⟩) [])), fr (trapping (at5 (.trap ⟨0, 7⟩) [])), ?_⟩
  try dsimp only [Fires, HasTok, Arrived, FreshOp, FreshAt, Solo, AtHome, AtVault, HasReg, Untracked, Turn, Quiet, Calm, RoleOk, DistinctWrites, ReadyPlain]
  repeat' apply And.intro
  all_goals first | decide +kernel | exact holdsNothing_of _ _ (by decide +kernel) (by decide +kernel) | exact oldest_of_nil _ (by decide +kernel) | exact ok_of _ _ (by decide +kernel) | exact error_of _ _ (by decide +kernel) | exact forall_of_nil _ _ (by decide +kernel) | exact trivial

/-- The block holds one fault, and nothing of it can move. -/
def faulted (h : Held) (s : State) : State := onFr s fun f => { f with fired := [5], faults := [h] }
/-- Two tokens met at slot 9. -/
def collided (s : State) : State := onFr s fun f => { f with fired := [5], colls := [(0x22, 9)] }
/-- The block was refused. -/
def refusedAs (e : Word) (s : State) : State := onFr s fun f => { f with fired := [5], refused := some e }

theorem witness_each_fault : ∃ (k : Nat) (s : State) (t : Thread) (f : Frame) (e : Word) (cls : Nat) (l : Option Nat) (n : Nat),
    Solo s k t ∧ t.frames = [f] ∧ f.stage = 1 ∧ f.fails = [] ∧ f.ops = [] ∧ f.still = true ∧ t.spec.tstat.getLsbD 2 = false ∧
    HoldsNothing s k ∧ f.refused = none ∧ f.colls = [] ∧ f.faults = [⟨cls, e, l, n⟩] ∧
    cls ∈ [0x05, 0x06, 0x07, 0x08, 0x09, 0x0A, 0x0B, 0x0C, 0x0D, 0x0E, 0x11, 0x12] := by
  let s := faulted ⟨0x09, 5, some 3, 5⟩ (at5 (.trap ⟨0, 7⟩) [])
  refine ⟨0, s, th s, fr s, 5, 0x09, some 3, 5, ?_⟩
  try dsimp only [Fires, HasTok, Arrived, FreshOp, FreshAt, Solo, AtHome, AtVault, HasReg, Untracked, Turn, Quiet, Calm, RoleOk, DistinctWrites, ReadyPlain]
  repeat' apply And.intro
  all_goals first | decide +kernel | exact holdsNothing_of _ _ (by decide +kernel) (by decide +kernel) | exact oldest_of_nil _ (by decide +kernel) | exact ok_of _ _ (by decide +kernel) | exact error_of _ _ (by decide +kernel) | exact forall_of_nil _ _ (by decide +kernel) | exact trivial

theorem witness_collision : ∃ (k : Nat) (s : State) (t : Thread) (f : Frame) (c i : Nat),
    Solo s k t ∧ t.frames = [f] ∧ f.stage = 1 ∧ f.fails = [] ∧ f.ops = [] ∧ f.still = true ∧ t.spec.tstat.getLsbD 2 = false ∧
    HoldsNothing s k ∧ f.refused = none ∧ f.colls = [(c, i)] := by
  let s := collided (at5 (.trap ⟨0, 7⟩) [])
  refine ⟨0, s, th s, fr s, 0x22, 9, ?_⟩
  try dsimp only [Fires, HasTok, Arrived, FreshOp, FreshAt, Solo, AtHome, AtVault, HasReg, Untracked, Turn, Quiet, Calm, RoleOk, DistinctWrites, ReadyPlain]
  repeat' apply And.intro
  all_goals first | decide +kernel | exact holdsNothing_of _ _ (by decide +kernel) (by decide +kernel) | exact oldest_of_nil _ (by decide +kernel) | exact ok_of _ _ (by decide +kernel) | exact error_of _ _ (by decide +kernel) | exact forall_of_nil _ _ (by decide +kernel) | exact trivial

theorem witness_refused : ∃ (k : Nat) (s : State) (t : Thread) (f : Frame) (e : Word),
    Solo s k t ∧ t.frames = [f] ∧ f.stage = 1 ∧ f.fails = [] ∧ f.ops = [] ∧ f.still = true ∧ t.spec.tstat.getLsbD 2 = false ∧
    HoldsNothing s k ∧ f.refused = some e ∧ field e.toNat 15 9 ≠ 0 := by
  let s := refusedAs 0x1000 (at5 (.trap ⟨0, 7⟩) [])
  refine ⟨0, s, th s, fr s, 0x1000, ?_⟩
  try dsimp only [Fires, HasTok, Arrived, FreshOp, FreshAt, Solo, AtHome, AtVault, HasReg, Untracked, Turn, Quiet, Calm, RoleOk, DistinctWrites, ReadyPlain]
  repeat' apply And.intro
  all_goals first | decide +kernel | exact holdsNothing_of _ _ (by decide +kernel) (by decide +kernel) | exact oldest_of_nil _ (by decide +kernel) | exact ok_of _ _ (by decide +kernel) | exact error_of _ _ (by decide +kernel) | exact forall_of_nil _ _ (by decide +kernel) | exact trivial

theorem witness_refused_reserved : ∃ (k : Nat) (s : State) (t : Thread) (f : Frame) (e : Word),
    Solo s k t ∧ t.frames = [f] ∧ f.stage = 1 ∧ f.fails = [] ∧ f.ops = [] ∧ f.still = true ∧ t.spec.tstat.getLsbD 2 = false ∧
    HoldsNothing s k ∧ f.refused = some e ∧ field e.toNat 15 9 = 0 := by
  let s := refusedAs 5 (at5 (.trap ⟨0, 7⟩) [])
  refine ⟨0, s, th s, fr s, 5, ?_⟩
  try dsimp only [Fires, HasTok, Arrived, FreshOp, FreshAt, Solo, AtHome, AtVault, HasReg, Untracked, Turn, Quiet, Calm, RoleOk, DistinctWrites, ReadyPlain]
  repeat' apply And.intro
  all_goals first | decide +kernel | exact holdsNothing_of _ _ (by decide +kernel) (by decide +kernel) | exact oldest_of_nil _ (by decide +kernel) | exact ok_of _ _ (by decide +kernel) | exact error_of _ _ (by decide +kernel) | exact forall_of_nil _ _ (by decide +kernel) | exact trivial

theorem witness_translation_fault : ∃ (k : Nat) (e : Word) (s : State) (t : Thread) (f : Frame), Solo s k t ∧
    t.spec.tstat.getLsbD 2 = false ∧ raises s k = some (t, f, 0x01, e) ∧ (∀ y ∈ t.frames, f.seq ≤ y.seq) ∧ HoldsNothing s k ∧
    s.thrs = [(k, t)] ∧ s.net = [] ∧ NothingHeld s ∧
    paPkg ((s.ctx t.ctx).word 2 / 2 ^ 14 * 2 ^ 14 % 2 ^ 56) = s.mod.pkg ∧ s.grids = [] ∧ s.dies = [] ∧
    Memory.wf s.mem = true ∧ f.record.length = 1 := by
  let s := failing (at5 (.ldd ⟨0, 0, 8, 1⟩) [])
  refine ⟨0, 1, s, th s, fr s, ?_⟩
  try dsimp only [Fires, HasTok, Arrived, FreshOp, FreshAt, Solo, AtHome, AtVault, HasReg, Untracked, Turn, Quiet, Calm, RoleOk, DistinctWrites, ReadyPlain, NothingHeld, NoneGranted, NoneCommits]
  repeat' apply And.intro
  all_goals first | decide +kernel | exact holdsNothing_of _ _ (by decide +kernel) (by decide +kernel) | exact oldest_of_nil _ (by decide +kernel) | exact ok_of _ _ (by decide +kernel) | exact error_of _ _ (by decide +kernel) | exact forall_of_nil _ _ (by decide +kernel) | exact trivial

theorem witness_leash :
    ∃ (k : Nat) (s : State) (t : Thread),
    Solo s k t ∧ t.run = true ∧ t.stop = false ∧ t.spec.tstat.getLsbD 2 = false ∧
    max t.spec.leash.toNat 1024 ≤ (s.cycThr k - t.leash0).toNat ∧ (∀ f ∈ t.frames, f.stage ≠ 2) ∧
    raises s k = none ∧ HoldsNothing s k ∧ (∀ f, t.oldest = some f → ∀ y ∈ t.frames, f.seq ≤ y.seq)  := by
  refine ⟨0, overdue (at5 (.br ⟨0, 1, 2⟩) []), th (overdue (at5 (.br ⟨0, 1, 2⟩) [])), ?_⟩
  try dsimp only [Fires, HasTok, Arrived, FreshOp, FreshAt, Solo, AtHome, AtVault, HasReg, Untracked, Turn, Quiet, Calm, RoleOk, DistinctWrites, ReadyPlain]
  repeat' apply And.intro
  all_goals first | decide +kernel | exact holdsNothing_of _ _ (by decide +kernel) (by decide +kernel) | exact oldest_of_nil _ (by decide +kernel) | exact ok_of _ _ (by decide +kernel) | exact error_of _ _ (by decide +kernel) | exact forall_of_nil _ _ (by decide +kernel) | exact trivial

theorem witness_double_fault : ∃ (i : Instr) (k : Nat) (cs : List Nat) (cls : Nat) (e : Word) (s : State) (t : Thread) (f : Frame),
    t.spec.tstat.getLsbD 2 = true ∧ tabWf s.thrs = true ∧ s.thr k = some t ∧ faultClasses i = some (k, cs) ∧ cls ∈ cs ∧
    raises s k = some (t, f, cls, e) ∧ NoneCommits s t.ctx := by
  let s := handling (trapping (at5 (.trap ⟨0, 7⟩) []))
  refine ⟨.trapInstruction 0, 0, [0x11], 0x11, BitVec.ofNat 64 (7 + 65536 * 5), s, th s, fr s, ?_⟩
  dsimp only [NoneCommits]
  repeat' apply And.intro
  all_goals decide +kernel

theorem witness_double_fault_by_leash : ∃ (k : Nat) (s : State) (t : Thread), t.spec.tstat.getLsbD 2 = true ∧
    tabWf s.thrs = true ∧ s.thr k = some t ∧ leashOut s k t = true ∧ t.stop = false ∧ (∀ f ∈ t.frames, f.stage ≠ 2) ∧
    raises s k = none ∧ NoneCommits s t.ctx := by
  let s := handling (overdue (at5 (.br ⟨0, 1, 2⟩) []))
  refine ⟨0, s, th s, ?_⟩
  dsimp only [NoneCommits]
  repeat' apply And.intro
  all_goals decide +kernel

theorem witness_double_fault_by_system_call : ∃ (k : Nat) (s : State) (t : Thread) (f : Frame) (x : Exit),
    t.spec.tstat.getLsbD 2 = true ∧ tabWf s.thrs = true ∧ s.thr k = some t ∧ ReadyPlain s k t f x ∧ x.kind = 3 ∧
    (∀ e, (e, 204) ∉ wrEntries f.hdr) ∧ NoneCommits s t.ctx := by
  let s := handling (onFr (committing ⟨0, 0x100, 3, 77⟩ (at5 (.br ⟨0, 0, 2⟩) [])) fun f => { f with chunks := [(0, List.replicate 32 0)] })
  have hw : ∀ e, (e, 204) ∉ wrEntries (fr s).hdr := by
    have h : wrEntries (fr s).hdr = [] := by decide +kernel
    rw [h]; simp
  refine ⟨0, s, th s, fr s, ⟨0, 0x100, 3, 77⟩, ?_⟩
  try dsimp only [Solo, DistinctWrites, ReadyPlain, NoneCommits]
  repeat' apply And.intro
  all_goals first | decide +kernel | exact holdsNothing_of _ _ (by decide +kernel) (by decide +kernel) | exact forall_of_nil _ _ (by decide +kernel) | exact hw

theorem witness_commit :
    ∃ (k : Nat) (s : State) (t : Thread) (f : Frame) (x : Exit),
    ReadyPlain s k t f x ∧ x.kind < 3  := by
  refine ⟨0, committing (⟨0, 0x100, 1, 0⟩) (at5 (.br ⟨0, 0, 2⟩) [(384, .s 9)]), th (committing (⟨0, 0x100, 1, 0⟩) (at5 (.br ⟨0, 0, 2⟩) [(384, .s 9)])), fr (committing (⟨0, 0x100, 1, 0⟩) (at5 (.br ⟨0, 0, 2⟩) [(384, .s 9)])), ⟨0, 0x100, 1, 0⟩, ?_⟩
  try dsimp only [Fires, HasTok, Arrived, FreshOp, FreshAt, Solo, AtHome, AtVault, HasReg, Untracked, Turn, Quiet, Calm, RoleOk, DistinctWrites, ReadyPlain]
  repeat' apply And.intro
  all_goals first | decide +kernel | exact holdsNothing_of _ _ (by decide +kernel) (by decide +kernel) | exact oldest_of_nil _ (by decide +kernel) | exact ok_of _ _ (by decide +kernel) | exact error_of _ _ (by decide +kernel) | exact forall_of_nil _ _ (by decide +kernel) | exact trivial

theorem witness_system_call :
    ∃ (k : Nat) (s : State) (t : Thread) (f : Frame) (x : Exit),
    ReadyPlain s k t f x ∧ wrEntries f.hdr = [] ∧ f.flags = 0 ∧
    x.kind = 3 ∧ t.spec.tstat.getLsbD 2 = false  := by
  refine ⟨0, onFr (committing (⟨0, 0x100, 3, 77⟩) (at5 (.br ⟨0, 0, 2⟩) [])) fun f => { f with chunks := [(0, List.replicate 32 0)] }, th (onFr (committing (⟨0, 0x100, 3, 77⟩) (at5 (.br ⟨0, 0, 2⟩) [])) fun f => { f with chunks := [(0, List.replicate 32 0)] }), fr (onFr (committing (⟨0, 0x100, 3, 77⟩) (at5 (.br ⟨0, 0, 2⟩) [])) fun f => { f with chunks := [(0, List.replicate 32 0)] }), ⟨0, 0x100, 3, 77⟩, ?_⟩
  try dsimp only [Fires, HasTok, Arrived, FreshOp, FreshAt, Solo, AtHome, AtVault, HasReg, Untracked, Turn, Quiet, Calm, RoleOk, DistinctWrites, ReadyPlain]
  repeat' apply And.intro
  all_goals first | decide +kernel | exact holdsNothing_of _ _ (by decide +kernel) (by decide +kernel) | exact oldest_of_nil _ (by decide +kernel) | exact ok_of _ _ (by decide +kernel) | exact error_of _ _ (by decide +kernel) | exact forall_of_nil _ _ (by decide +kernel) | exact trivial

theorem witness_eret_commit :
    ∃ (k : Nat) (s : State) (t : Thread) (f : Frame) (x : Exit),
    ReadyPlain s k t f x ∧ wrEntries f.hdr = [] ∧ f.flags = 0 ∧
    x.kind = 4  := by
  refine ⟨0, onFr (committing (⟨0, 0x100, 4, 0⟩) (at5 (.br ⟨0, 0, 2⟩) [])) fun f => { f with chunks := [(0, List.replicate 32 0)] }, th (onFr (committing (⟨0, 0x100, 4, 0⟩) (at5 (.br ⟨0, 0, 2⟩) [])) fun f => { f with chunks := [(0, List.replicate 32 0)] }), fr (onFr (committing (⟨0, 0x100, 4, 0⟩) (at5 (.br ⟨0, 0, 2⟩) [])) fun f => { f with chunks := [(0, List.replicate 32 0)] }), ⟨0, 0x100, 4, 0⟩, ?_⟩
  try dsimp only [Fires, HasTok, Arrived, FreshOp, FreshAt, Solo, AtHome, AtVault, HasReg, Untracked, Turn, Quiet, Calm, RoleOk, DistinctWrites, ReadyPlain]
  repeat' apply And.intro
  all_goals first | decide +kernel | exact holdsNothing_of _ _ (by decide +kernel) (by decide +kernel) | exact oldest_of_nil _ (by decide +kernel) | exact ok_of _ _ (by decide +kernel) | exact error_of _ _ (by decide +kernel) | exact forall_of_nil _ _ (by decide +kernel) | exact trivial

theorem witness_tlbinv_sup : ∃ (s : State) (t : Thread) (f : Frame) (a b : Word) (g : TlbinvF), HasTok f 0 s.cur.2.2 (.s a) ∧
    HasTok f 1 s.cur.2.2 (.s b) ∧ t.frames = [f] ∧ Fires s g.p t f ∧ FreshAt f s.cur.2.2 (some g.lsid.toNat) ∧ f.sup = true ∧
    ¬(a.toNat % 8 ≠ 0 ∨ 2 ^ 56 ≤ a.toNat) := by
  let s := id (at5 (.tlbinv ⟨0, 4, 0, 0⟩) [(5, .s 8), (133, .s 3)])
  refine ⟨s, th s, fr s, 8, 3, ⟨0, 4, 0, 0⟩, ?_⟩
  try dsimp only [Fires, HasTok, Arrived, FreshOp, FreshAt, Solo, AtHome, AtVault, HasReg, Untracked, Turn, Quiet, Calm, RoleOk, DistinctWrites, ReadyPlain]
  repeat' apply And.intro
  all_goals first | decide +kernel | exact holdsNothing_of _ _ (by decide +kernel) (by decide +kernel) | exact oldest_of_nil _ (by decide +kernel) | exact ok_of _ _ (by decide +kernel) | exact error_of _ _ (by decide +kernel) | exact forall_of_nil _ _ (by decide +kernel) | exact trivial

theorem witness_ctxkill_sup : ∃ (s : State) (t : Thread) (f : Frame) (a b : Word) (g : LsF), HasTok f 0 s.cur.2.2 (.s a) ∧
    HasTok f 1 s.cur.2.2 (.s b) ∧ t.frames = [f] ∧ Fires s g.p t f ∧ FreshAt f s.cur.2.2 (some g.lsid.toNat) ∧ f.sup = true ∧
    ¬(a.toNat % 8 ≠ 0 ∨ 2 ^ 56 ≤ a.toNat) := by
  let s := id (at5 (.ctxkill ⟨0, 0⟩) [(5, .s 8), (133, .s 3)])
  refine ⟨s, th s, fr s, 8, 3, ⟨0, 0⟩, ?_⟩
  try dsimp only [Fires, HasTok, Arrived, FreshOp, FreshAt, Solo, AtHome, AtVault, HasReg, Untracked, Turn, Quiet, Calm, RoleOk, DistinctWrites, ReadyPlain]
  repeat' apply And.intro
  all_goals first | decide +kernel | exact holdsNothing_of _ _ (by decide +kernel) (by decide +kernel) | exact oldest_of_nil _ (by decide +kernel) | exact ok_of _ _ (by decide +kernel) | exact error_of _ _ (by decide +kernel) | exact forall_of_nil _ _ (by decide +kernel) | exact trivial

theorem witness_tlbinv_user : ∃ (s : State) (t : Thread) (f : Frame) (a b : Word) (g : TlbinvF), HasTok f 0 s.cur.2.2 (.s a) ∧
    HasTok f 1 s.cur.2.2 (.s b) ∧ t.frames = [f] ∧ Fires s g.p t f ∧ FreshAt f s.cur.2.2 (some g.lsid.toNat) ∧ f.sup = false ∧
    ¬(a.toNat % 8 ≠ 0 ∨ 2 ^ 56 ≤ a.toNat) := by
  let s := user (at5 (.tlbinv ⟨0, 4, 0, 0⟩) [(5, .s 8), (133, .s 3)])
  refine ⟨s, th s, fr s, 8, 3, ⟨0, 4, 0, 0⟩, ?_⟩
  try dsimp only [Fires, HasTok, Arrived, FreshOp, FreshAt, Solo, AtHome, AtVault, HasReg, Untracked, Turn, Quiet, Calm, RoleOk, DistinctWrites, ReadyPlain]
  repeat' apply And.intro
  all_goals first | decide +kernel | exact holdsNothing_of _ _ (by decide +kernel) (by decide +kernel) | exact oldest_of_nil _ (by decide +kernel) | exact ok_of _ _ (by decide +kernel) | exact error_of _ _ (by decide +kernel) | exact forall_of_nil _ _ (by decide +kernel) | exact trivial

theorem witness_ctxkill_user : ∃ (s : State) (t : Thread) (f : Frame) (a b : Word) (g : LsF), HasTok f 0 s.cur.2.2 (.s a) ∧
    HasTok f 1 s.cur.2.2 (.s b) ∧ t.frames = [f] ∧ Fires s g.p t f ∧ FreshAt f s.cur.2.2 (some g.lsid.toNat) ∧ f.sup = false ∧
    ¬(a.toNat % 8 ≠ 0 ∨ 2 ^ 56 ≤ a.toNat) := by
  let s := user (at5 (.ctxkill ⟨0, 0⟩) [(5, .s 8), (133, .s 3)])
  refine ⟨s, th s, fr s, 8, 3, ⟨0, 0⟩, ?_⟩
  try dsimp only [Fires, HasTok, Arrived, FreshOp, FreshAt, Solo, AtHome, AtVault, HasReg, Untracked, Turn, Quiet, Calm, RoleOk, DistinctWrites, ReadyPlain]
  repeat' apply And.intro
  all_goals first | decide +kernel | exact holdsNothing_of _ _ (by decide +kernel) (by decide +kernel) | exact oldest_of_nil _ (by decide +kernel) | exact ok_of _ _ (by decide +kernel) | exact error_of _ _ (by decide +kernel) | exact forall_of_nil _ _ (by decide +kernel) | exact trivial

theorem witness_srw_runs : ∃ (s : State) (t : Thread) (f : Frame) (a b : Word) (g : LsF), HasTok f 0 s.cur.2.2 (.s a) ∧
    HasTok f 1 s.cur.2.2 (.s b) ∧ t.frames = [f] ∧ Fires s g.p t f ∧ FreshAt f s.cur.2.2 (some g.lsid.toNat) ∧ f.sup = true ∧
    ¬(a.toNat % 8 ≠ 0 ∨ 2 ^ 56 ≤ a.toNat) := by
  let s := id (at5 (.srw ⟨0, 0⟩) [(5, .s 8), (133, .s 3)])
  refine ⟨s, th s, fr s, 8, 3, ⟨0, 0⟩, ?_⟩
  try dsimp only [Fires, HasTok, Arrived, FreshOp, FreshAt, Solo, AtHome, AtVault, HasReg, Untracked, Turn, Quiet, Calm, RoleOk, DistinctWrites, ReadyPlain]
  repeat' apply And.intro
  all_goals first | decide +kernel | exact holdsNothing_of _ _ (by decide +kernel) (by decide +kernel) | exact oldest_of_nil _ (by decide +kernel) | exact ok_of _ _ (by decide +kernel) | exact error_of _ _ (by decide +kernel) | exact forall_of_nil _ _ (by decide +kernel) | exact trivial

theorem witness_srw_wrong : ∃ (s : State) (t : Thread) (f : Frame) (a b : Word) (g : LsF), HasTok f 0 s.cur.2.2 (.s a) ∧
    HasTok f 1 s.cur.2.2 (.s b) ∧ t.frames = [f] ∧ Fires s g.p t f ∧ FreshAt f s.cur.2.2 (some g.lsid.toNat) ∧ f.sup = true ∧
    (a.toNat % 8 ≠ 0 ∨ 2 ^ 56 ≤ a.toNat) := by
  let s := id (at5 (.srw ⟨0, 0⟩) [(5, .s 4), (133, .s 3)])
  refine ⟨s, th s, fr s, 4, 3, ⟨0, 0⟩, ?_⟩
  try dsimp only [Fires, HasTok, Arrived, FreshOp, FreshAt, Solo, AtHome, AtVault, HasReg, Untracked, Turn, Quiet, Calm, RoleOk, DistinctWrites, ReadyPlain]
  repeat' apply And.intro
  all_goals first | decide +kernel | exact holdsNothing_of _ _ (by decide +kernel) (by decide +kernel) | exact oldest_of_nil _ (by decide +kernel) | exact ok_of _ _ (by decide +kernel) | exact error_of _ _ (by decide +kernel) | exact forall_of_nil _ _ (by decide +kernel) | exact trivial

theorem witness_srr_runs : ∃ (s : State) (t : Thread) (f : Frame) (a b : Word) (g : RsF), HasTok f 0 s.cur.2.2 (.s a) ∧
    HasTok f 1 s.cur.2.2 (.s b) ∧ t.frames = [f] ∧ Fires s g.p t f ∧ FreshAt f s.cur.2.2 (some g.lsid.toNat) ∧ f.sup = true ∧
    ¬(a.toNat % 8 ≠ 0 ∨ 2 ^ 56 ≤ a.toNat) := by
  let s := id (at5 (.srr ⟨0, 0x1FF, 1, 0⟩) [(5, .s 8), (133, .s 3)])
  refine ⟨s, th s, fr s, 8, 3, ⟨0, 0x1FF, 1, 0⟩, ?_⟩
  try dsimp only [Fires, HasTok, Arrived, FreshOp, FreshAt, Solo, AtHome, AtVault, HasReg, Untracked, Turn, Quiet, Calm, RoleOk, DistinctWrites, ReadyPlain]
  repeat' apply And.intro
  all_goals first | decide +kernel | exact holdsNothing_of _ _ (by decide +kernel) (by decide +kernel) | exact oldest_of_nil _ (by decide +kernel) | exact ok_of _ _ (by decide +kernel) | exact error_of _ _ (by decide +kernel) | exact forall_of_nil _ _ (by decide +kernel) | exact trivial

theorem witness_srr_wrong : ∃ (s : State) (t : Thread) (f : Frame) (a b : Word) (g : RsF), HasTok f 0 s.cur.2.2 (.s a) ∧
    HasTok f 1 s.cur.2.2 (.s b) ∧ t.frames = [f] ∧ Fires s g.p t f ∧ FreshAt f s.cur.2.2 (some g.lsid.toNat) ∧ f.sup = true ∧
    (a.toNat % 8 ≠ 0 ∨ 2 ^ 56 ≤ a.toNat) := by
  let s := id (at5 (.srr ⟨0, 0x1FF, 1, 0⟩) [(5, .s 0x0100000000000000), (133, .s 3)])
  refine ⟨s, th s, fr s, 0x0100000000000000, 3, ⟨0, 0x1FF, 1, 0⟩, ?_⟩
  try dsimp only [Fires, HasTok, Arrived, FreshOp, FreshAt, Solo, AtHome, AtVault, HasReg, Untracked, Turn, Quiet, Calm, RoleOk, DistinctWrites, ReadyPlain]
  repeat' apply And.intro
  all_goals first | decide +kernel | exact holdsNothing_of _ _ (by decide +kernel) (by decide +kernel) | exact oldest_of_nil _ (by decide +kernel) | exact ok_of _ _ (by decide +kernel) | exact error_of _ _ (by decide +kernel) | exact forall_of_nil _ _ (by decide +kernel) | exact trivial

theorem witness_srr_user : ∃ (s : State) (t : Thread) (f : Frame) (a b : Word) (g : RsF), HasTok f 0 s.cur.2.2 (.s a) ∧
    HasTok f 1 s.cur.2.2 (.s b) ∧ t.frames = [f] ∧ Fires s g.p t f ∧ FreshAt f s.cur.2.2 (some g.lsid.toNat) ∧ f.sup = false ∧
    ¬(a.toNat % 8 ≠ 0 ∨ 2 ^ 56 ≤ a.toNat) := by
  let s := user (at5 (.srr ⟨0, 0x1FF, 1, 0⟩) [(5, .s 8), (133, .s 3)])
  refine ⟨s, th s, fr s, 8, 3, ⟨0, 0x1FF, 1, 0⟩, ?_⟩
  try dsimp only [Fires, HasTok, Arrived, FreshOp, FreshAt, Solo, AtHome, AtVault, HasReg, Untracked, Turn, Quiet, Calm, RoleOk, DistinctWrites, ReadyPlain]
  repeat' apply And.intro
  all_goals first | decide +kernel | exact holdsNothing_of _ _ (by decide +kernel) (by decide +kernel) | exact oldest_of_nil _ (by decide +kernel) | exact ok_of _ _ (by decide +kernel) | exact error_of _ _ (by decide +kernel) | exact forall_of_nil _ _ (by decide +kernel) | exact trivial

theorem witness_eret_user :
    ∃ (s : State) (t : Thread) (f : Frame) (a b : Word) (g : EretF),
    HasTok f 0 s.cur.2.2 (.s a) ∧ HasTok f 1 s.cur.2.2 (.s b) ∧ t.frames = [f] ∧
    Fires s g.p t f ∧ f.sup = false  := by
  refine ⟨user (at5 (.eret ⟨0, 1⟩) [(5, .s 8), (133, .s 3)]), th (user (at5 (.eret ⟨0, 1⟩) [(5, .s 8), (133, .s 3)])), fr (user (at5 (.eret ⟨0, 1⟩) [(5, .s 8), (133, .s 3)])), 8, 3, ⟨0, 1⟩, ?_⟩
  try dsimp only [Fires, HasTok, Arrived, FreshOp, FreshAt, Solo, AtHome, AtVault, HasReg, Untracked, Turn, Quiet, Calm, RoleOk, DistinctWrites, ReadyPlain]
  repeat' apply And.intro
  all_goals first | decide +kernel | exact holdsNothing_of _ _ (by decide +kernel) (by decide +kernel) | exact oldest_of_nil _ (by decide +kernel) | exact ok_of _ _ (by decide +kernel) | exact error_of _ _ (by decide +kernel) | exact forall_of_nil _ _ (by decide +kernel) | exact trivial

theorem witness_system_register :
    ∃ (g : RsF) (s : State) (k : Nat) (t : Thread) (f : Frame) (o : Op) (a : Word),
    s.thr k = some t ∧ t.frames = [f] ∧ f.stage = 1 ∧ f.ops = [o] ∧ o.i = .srr g ∧ o.lsid = some g.lsid.toNat ∧
    o.a = .s a ∧ o.nul = false ∧ o.ans = none ∧ o.parts = [] ∧ f.below g.lsid.toNat (fun _ _ => true) = [] ∧
    (s.clu (cluOf k)).lock = none ∧ s.net = []  := by
  refine ⟨⟨0, 0x1FF, 1, 0⟩, waitingSrr 0x0003000000000100 (at5 (.srr ⟨0, 0x1FF, 1, 0⟩) []), 0, th (waitingSrr 0x0003000000000100 (at5 (.srr ⟨0, 0x1FF, 1, 0⟩) [])), fr (waitingSrr 0x0003000000000100 (at5 (.srr ⟨0, 0x1FF, 1, 0⟩) [])), srrOp 0x0003000000000100, 0x0003000000000100, ?_⟩
  repeat' apply And.intro
  all_goals decide +kernel

/-- `n` arguments have at most `n` values. -/
theorem values_le : ∀ (n : Nat) (f : Nat → Nat) (l : List Nat), l.Nodup → (∀ x ∈ l, ∃ i, i < n ∧ f i = x) → l.length ≤ n := by
  intro n
  induction n with
  | zero =>
    intro f l h hx
    cases l with
    | nil => simp
    | cons a r => obtain ⟨i, hi, _⟩ := hx a (by simp); omega
  | succ n ih =>
    intro f l h hx
    have := ih f (l.erase (f n)) (h.erase _) (by
      intro x hm
      obtain ⟨i, hi, e⟩ := hx x (List.mem_of_mem_erase hm)
      refine ⟨i, ?_, e⟩
      have hne : x ≠ f n := by rintro rfl; exact h.not_mem_erase hm
      have : i ≠ n := by rintro rfl; exact hne e.symm
      omega)
    have : l.length ≤ (l.erase (f n)).length + 1 := by rw [List.length_erase]; split <;> omega
    omega
/-- Of fourteen offsets one is no word of the descriptor. -/
theorem free_offset (f : Nat → Nat) : ∃ x, x < 14 ∧ ∀ i, i < 13 → f i ≠ 0x108 + x := by
  apply Classical.byContradiction
  intro h
  have := values_le 13 f ((List.range 14).map (0x108 + ·)) (by decide) (by
    intro y hy
    obtain ⟨x, hx, rfl⟩ := List.mem_map.mp hy
    apply Classical.byContradiction
    intro h2
    exact h ⟨x, List.mem_range.mp hx, fun i hi e => h2 ⟨i, hi, e⟩⟩)
  simp at this

theorem witness_system_register_absent :
    ∃ (g : RsF) (s : State) (k : Nat) (t : Thread) (f : Frame) (o : Op) (a : Word),
    (s.thr k = some t ∧ t.frames = [f] ∧ f.stage = 1 ∧ f.ops = [o] ∧ o.i = .srr g ∧ o.lsid = some g.lsid.toNat ∧
    o.a = .s a ∧ o.nul = false ∧ o.ans = none ∧ o.parts = [] ∧ f.below g.lsid.toNat (fun _ _ => true) = [] ∧
    (s.clu (cluOf k)).lock = none ∧ s.net = [] ∧ a.toNat / 2 ^ 48 % 4 = 3 ∧ a.toNat / 2 ^ 50 % 64 = s.mod.pkg ∧
    0x108 ≤ a.toNat % 2 ^ 48 ∧ a.toNat % 2 ^ 48 < 0x10000) ∧ ∀ i, i < 13 → Config.descOffset i ≠ a.toNat % 2 ^ 48 := by
  have all : ∀ x, x < 14 →
      let a : Word := BitVec.ofNat 64 (0x0003000000000108 + x)
      let s := waitingSrr a (at5 (.srr ⟨0, 0x1FF, 1, 0⟩) [])
      a.toNat % 2 ^ 48 = 0x108 + x ∧
      (s.thr 0 = some (th s) ∧ (th s).frames = [fr s] ∧ (fr s).stage = 1 ∧ (fr s).ops = [srrOp a] ∧
      (srrOp a).i = .srr ⟨0, 0x1FF, 1, 0⟩ ∧ (srrOp a).lsid = some 0 ∧
      (srrOp a).a = .s a ∧ (srrOp a).nul = false ∧ (srrOp a).ans = none ∧ (srrOp a).parts = [] ∧ (fr s).below 0 (fun _ _ => true) = [] ∧
      (s.clu (cluOf 0)).lock = none ∧ s.net = [] ∧ a.toNat / 2 ^ 48 % 4 = 3 ∧ a.toNat / 2 ^ 50 % 64 = s.mod.pkg ∧
      0x108 ≤ a.toNat % 2 ^ 48 ∧ a.toNat % 2 ^ 48 < 0x10000) := by decide +kernel
  obtain ⟨x, hx, h⟩ := free_offset Config.descOffset
  obtain ⟨e, c⟩ := all x hx
  exact ⟨_, _, 0, _, _, _, _, c, by rw [e]; exact h⟩

/-- What the statement on the system forms asks of a block that may commit with one tracked instruction. -/
def CommitHolds (k l : Nat) (s : State) (t : Thread) (f : Frame) (x : Exit) (o : Op) : Prop :=
  Solo s k t ∧ t.frames = [f] ∧ f.ops = [o] ∧ o.nul = false ∧ o.lsid = some l ∧ l < 32 ∧ commitReady s k t f = true ∧
    f.exit = some x ∧ x.kind = 0 ∧ f.s0 = none ∧ (s.clu (cluOf k)).lock = none ∧ HoldsNothing s k ∧ wrEntries f.hdr = [] ∧
    o.stage = 1 ∧ tabWf s.thrs = true ∧ (s.ctx t.ctx).dying = none ∧ tabWf (s.clu (cluOf k)).pats = true

/-- The thread runs a handler of pattern 31, of serial 1, of its cluster. -/
def patterned (s : State) : State :=
  (onThr s fun t => { t with pat := some (31, 1) }).modClu 0 fun c =>
    { c with pats := [(31, { Pat.reset with en := true, running := 1, serial := 1 })] }

/-- The machine holds a translation in each cache that TLBINV clears, a walk and a walk-cache entry. -/
def cached (s : State) : State :=
  let e : Trans := ⟨0, 5, 5, 0x10000, true, true, true, 0, 0, true⟩
  let w : Walk := ⟨0, 0, 0, 5, 0x10000, true, true, false, [0], none, none, false, [0]⟩
  (((s.modClu 0 fun c => { c with tlb := [e] }).modGrid 0 fun g => { g with utlb := [e] }).modDie 0 fun d =>
    { d with stlb := [e], wcache := [((0, 0, 4), 0x1000)], walks := [(0, w)] })

theorem witness_tend : ∃ (k l : Nat) (s : State) (t : Thread) (f : Frame) (x : Exit) (o : Op) (p : Nat) (y : Pat),
    CommitHolds k l s t f x o ∧ o.i = .tend ⟨0, 0⟩ ∧
    t.pat = some (p, y.serial) ∧ tget (s.clu (cluOf k)).pats p = some y := by
  let o : Op := { heldOp (.tend ⟨0, 0⟩) with ans := some .null }
  let s := patterned (onFr (holding (.tend ⟨0, 0⟩) (committing ⟨0, 0x100, 0, 0⟩ (at5 (.tend ⟨0, 0⟩) []))) fun f => { f with ops := [o] })
  refine ⟨0, 0, s, th s, fr s, ⟨0, 0x100, 0, 0⟩, o, 31, { Pat.reset with en := true, running := 1, serial := 1 }, ?_⟩
  try dsimp only [Fires, HasTok, Arrived, FreshOp, FreshAt, Solo, AtHome, AtVault, HasReg, Untracked, Turn, Quiet, Calm, RoleOk, DistinctWrites, ReadyPlain, NothingHeld, NoneGranted, NoneCommits, CommitHolds]
  repeat' apply And.intro
  all_goals first | decide +kernel | exact holdsNothing_of _ _ (by decide +kernel) (by decide +kernel) | exact oldest_of_nil _ (by decide +kernel) | exact ok_of _ _ (by decide +kernel) | exact error_of _ _ (by decide +kernel) | exact forall_of_nil _ _ (by decide +kernel) | exact trivial

theorem witness_hend_commit : ∃ (k l : Nat) (s : State) (t : Thread) (f : Frame) (x : Exit) (o : Op) (p : Nat) (y : Pat),
    CommitHolds k l s t f x o ∧ o.i = .hend ⟨0, 0⟩ ∧
    t.pat = some (p, y.serial) ∧ tget (s.clu (cluOf k)).pats p = some y := by
  let o : Op := { heldOp (.hend ⟨0, 0⟩) with ans := some .null }
  let s := patterned (onFr (holding (.hend ⟨0, 0⟩) (committing ⟨0, 0x100, 0, 0⟩ (at5 (.hend ⟨0, 0⟩) []))) fun f => { f with ops := [o] })
  refine ⟨0, 0, s, th s, fr s, ⟨0, 0x100, 0, 0⟩, o, 31, { Pat.reset with en := true, running := 1, serial := 1 }, ?_⟩
  try dsimp only [Fires, HasTok, Arrived, FreshOp, FreshAt, Solo, AtHome, AtVault, HasReg, Untracked, Turn, Quiet, Calm, RoleOk, DistinctWrites, ReadyPlain, NothingHeld, NoneGranted, NoneCommits, CommitHolds]
  repeat' apply And.intro
  all_goals first | decide +kernel | exact holdsNothing_of _ _ (by decide +kernel) (by decide +kernel) | exact oldest_of_nil _ (by decide +kernel) | exact ok_of _ _ (by decide +kernel) | exact error_of _ _ (by decide +kernel) | exact forall_of_nil _ _ (by decide +kernel) | exact trivial

theorem witness_ctxkill_commit : ∃ (k l : Nat) (s : State) (t : Thread) (f : Frame) (x : Exit) (o : Op),
    CommitHolds k l s t f x o ∧ o.i = .ctxkill ⟨0, 0⟩ ∧ NoneCommits s t.ctx := by
  let o : Op := { heldOp (.ctxkill ⟨0, 0⟩) with a := .s 0xFF }
  let s := id (onFr (holding (.ctxkill ⟨0, 0⟩) (committing ⟨0, 0x100, 0, 0⟩ (at5 (.ctxkill ⟨0, 0⟩) []))) fun f => { f with ops := [o] })
  refine ⟨0, 0, s, th s, fr s, ⟨0, 0x100, 0, 0⟩, o, ?_⟩
  try dsimp only [Fires, HasTok, Arrived, FreshOp, FreshAt, Solo, AtHome, AtVault, HasReg, Untracked, Turn, Quiet, Calm, RoleOk, DistinctWrites, ReadyPlain, NothingHeld, NoneGranted, NoneCommits, CommitHolds]
  repeat' apply And.intro
  all_goals first | decide +kernel | exact holdsNothing_of _ _ (by decide +kernel) (by decide +kernel) | exact oldest_of_nil _ (by decide +kernel) | exact ok_of _ _ (by decide +kernel) | exact error_of _ _ (by decide +kernel) | exact forall_of_nil _ _ (by decide +kernel) | exact trivial

theorem witness_tlbinv_commit_2 : ∃ (k l : Nat) (s : State) (t : Thread) (f : Frame) (x : Exit) (o : Op),
    CommitHolds k l s t f x o ∧ o.i = .tlbinv ⟨0, 2, 0, 0⟩ := by
  let o : Op := { heldOp (.tlbinv ⟨0, 2, 0, 0⟩) with a := .s 0x5FFFF }
  let s := cached (onFr (holding (.tlbinv ⟨0, 2, 0, 0⟩) (committing ⟨0, 0x100, 0, 0⟩ (at5 (.tlbinv ⟨0, 2, 0, 0⟩) []))) fun f => { f with ops := [o] })
  refine ⟨0, 0, s, th s, fr s, ⟨0, 0x100, 0, 0⟩, o, ?_⟩
  try dsimp only [Fires, HasTok, Arrived, FreshOp, FreshAt, Solo, AtHome, AtVault, HasReg, Untracked, Turn, Quiet, Calm, RoleOk, DistinctWrites, ReadyPlain, NothingHeld, NoneGranted, NoneCommits, CommitHolds]
  repeat' apply And.intro
  all_goals first | decide +kernel | exact holdsNothing_of _ _ (by decide +kernel) (by decide +kernel) | exact oldest_of_nil _ (by decide +kernel) | exact ok_of _ _ (by decide +kernel) | exact error_of _ _ (by decide +kernel) | exact forall_of_nil _ _ (by decide +kernel) | exact trivial

theorem witness_tlbinv_commit_3 : ∃ (k l : Nat) (s : State) (t : Thread) (f : Frame) (x : Exit) (o : Op),
    CommitHolds k l s t f x o ∧ o.i = .tlbinv ⟨0, 3, 1, 0⟩ := by
  let o : Op := { heldOp (.tlbinv ⟨0, 3, 1, 0⟩) with a := .s 0x5FFFF }
  let s := cached (onFr (holding (.tlbinv ⟨0, 3, 1, 0⟩) (committing ⟨0, 0x100, 0, 0⟩ (at5 (.tlbinv ⟨0, 3, 1, 0⟩) []))) fun f => { f with ops := [o] })
  refine ⟨0, 0, s, th s, fr s, ⟨0, 0x100, 0, 0⟩, o, ?_⟩
  try dsimp only [Fires, HasTok, Arrived, FreshOp, FreshAt, Solo, AtHome, AtVault, HasReg, Untracked, Turn, Quiet, Calm, RoleOk, DistinctWrites, ReadyPlain, NothingHeld, NoneGranted, NoneCommits, CommitHolds]
  repeat' apply And.intro
  all_goals first | decide +kernel | exact holdsNothing_of _ _ (by decide +kernel) (by decide +kernel) | exact oldest_of_nil _ (by decide +kernel) | exact ok_of _ _ (by decide +kernel) | exact error_of _ _ (by decide +kernel) | exact forall_of_nil _ _ (by decide +kernel) | exact trivial

theorem witness_tlbinv_commit_4 : ∃ (k l : Nat) (s : State) (t : Thread) (f : Frame) (x : Exit) (o : Op),
    CommitHolds k l s t f x o ∧ o.i = .tlbinv ⟨0, 4, 0, 0⟩ := by
  let o : Op := { heldOp (.tlbinv ⟨0, 4, 0, 0⟩) with a := .s 0x5FFFF }
  let s := cached (onFr (holding (.tlbinv ⟨0, 4, 0, 0⟩) (committing ⟨0, 0x100, 0, 0⟩ (at5 (.tlbinv ⟨0, 4, 0, 0⟩) []))) fun f => { f with ops := [o] })
  refine ⟨0, 0, s, th s, fr s, ⟨0, 0x100, 0, 0⟩, o, ?_⟩
  try dsimp only [Fires, HasTok, Arrived, FreshOp, FreshAt, Solo, AtHome, AtVault, HasReg, Untracked, Turn, Quiet, Calm, RoleOk, DistinctWrites, ReadyPlain, NothingHeld, NoneGranted, NoneCommits, CommitHolds]
  repeat' apply And.intro
  all_goals first | decide +kernel | exact holdsNothing_of _ _ (by decide +kernel) (by decide +kernel) | exact oldest_of_nil _ (by decide +kernel) | exact ok_of _ _ (by decide +kernel) | exact error_of _ _ (by decide +kernel) | exact forall_of_nil _ _ (by decide +kernel) | exact trivial

theorem witness_tlbinv_commit_5 : ∃ (k l : Nat) (s : State) (t : Thread) (f : Frame) (x : Exit) (o : Op),
    CommitHolds k l s t f x o ∧ o.i = .tlbinv ⟨0, 5, 1, 0⟩ := by
  let o : Op := { heldOp (.tlbinv ⟨0, 5, 1, 0⟩) with a := .s 0x5FFFF }
  let s := cached (onFr (holding (.tlbinv ⟨0, 5, 1, 0⟩) (committing ⟨0, 0x100, 0, 0⟩ (at5 (.tlbinv ⟨0, 5, 1, 0⟩) []))) fun f => { f with ops := [o] })
  refine ⟨0, 0, s, th s, fr s, ⟨0, 0x100, 0, 0⟩, o, ?_⟩
  try dsimp only [Fires, HasTok, Arrived, FreshOp, FreshAt, Solo, AtHome, AtVault, HasReg, Untracked, Turn, Quiet, Calm, RoleOk, DistinctWrites, ReadyPlain, NothingHeld, NoneGranted, NoneCommits, CommitHolds]
  repeat' apply And.intro
  all_goals first | decide +kernel | exact holdsNothing_of _ _ (by decide +kernel) (by decide +kernel) | exact oldest_of_nil _ (by decide +kernel) | exact ok_of _ _ (by decide +kernel) | exact error_of _ _ (by decide +kernel) | exact forall_of_nil _ _ (by decide +kernel) | exact trivial

theorem witness_patclr_commit : ∃ (k l : Nat) (s : State) (t : Thread) (f : Frame) (x : Exit) (o : Op),
    CommitHolds k l s t f x o ∧ o.i = .patclr ⟨0, 0⟩ := by
  let o : Op := { heldOp (.patclr ⟨0, 0⟩) with a := .s 31, b := .s 0 }
  let s := id (onFr (holding (.patclr ⟨0, 0⟩) (committing ⟨0, 0x100, 0, 0⟩ (at5 (.patclr ⟨0, 0⟩) []))) fun f => { f with ops := [o] })
  refine ⟨0, 0, s, th s, fr s, ⟨0, 0x100, 0, 0⟩, o, ?_⟩
  try dsimp only [Fires, HasTok, Arrived, FreshOp, FreshAt, Solo, AtHome, AtVault, HasReg, Untracked, Turn, Quiet, Calm, RoleOk, DistinctWrites, ReadyPlain, NothingHeld, NoneGranted, NoneCommits, CommitHolds]
  repeat' apply And.intro
  all_goals first | decide +kernel | exact holdsNothing_of _ _ (by decide +kernel) (by decide +kernel) | exact oldest_of_nil _ (by decide +kernel) | exact ok_of _ _ (by decide +kernel) | exact error_of _ _ (by decide +kernel) | exact forall_of_nil _ _ (by decide +kernel) | exact trivial

theorem witness_portcfg_commit : ∃ (k l : Nat) (s : State) (t : Thread) (f : Frame) (x : Exit) (o : Op),
    CommitHolds k l s t f x o ∧ o.i = .portcfg ⟨0, 0⟩ := by
  let o : Op := { heldOp (.portcfg ⟨0, 0⟩) with a := .s 63, b := .s 0x40003 }
  let s := id (onFr (holding (.portcfg ⟨0, 0⟩) (committing ⟨0, 0x100, 0, 0⟩ (at5 (.portcfg ⟨0, 0⟩) []))) fun f => { f with ops := [o] })
  refine ⟨0, 0, s, th s, fr s, ⟨0, 0x100, 0, 0⟩, o, ?_⟩
  try dsimp only [Fires, HasTok, Arrived, FreshOp, FreshAt, Solo, AtHome, AtVault, HasReg, Untracked, Turn, Quiet, Calm, RoleOk, DistinctWrites, ReadyPlain, NothingHeld, NoneGranted, NoneCommits, CommitHolds]
  repeat' apply And.intro
  all_goals first | decide +kernel | exact holdsNothing_of _ _ (by decide +kernel) (by decide +kernel) | exact oldest_of_nil _ (by decide +kernel) | exact ok_of _ _ (by decide +kernel) | exact error_of _ _ (by decide +kernel) | exact forall_of_nil _ _ (by decide +kernel) | exact trivial

/-- An entry of the stream table: two slots of 512 bytes, one tile complete. -/
def streamEnt : SEnt := ⟨0, 2, 1, 0, 0, 0, false, false, 0, 0, false, 0, 0, 1, 0, 1, 0⟩
/-- It is entry 15 of cluster 0. -/
def streamed (s : State) : State := s.modClu 0 fun c => { c with stab := [(15, streamEnt)] }

theorem witness_stclose_commit : ∃ (k l : Nat) (s : State) (t : Thread) (f : Frame) (x : Exit) (o : Op) (e : SEnt),
    CommitHolds k l s t f x o ∧ o.i = .stclose ⟨0, 0⟩ ∧
    tget (s.clu (cluOf k)).stab (o.a.word.toNat % 16) = some e ∧ e.ctx = t.ctx := by
  let o : Op := { heldOp (.stclose ⟨0, 0⟩) with a := .s 15, b := .s 0 }
  let s := streamed (onFr (holding (.stclose ⟨0, 0⟩) (committing ⟨0, 0x100, 0, 0⟩ (at5 (.stclose ⟨0, 0⟩) []))) fun f => { f with ops := [o] })
  refine ⟨0, 0, s, th s, fr s, ⟨0, 0x100, 0, 0⟩, o, streamEnt, ?_⟩
  try dsimp only [Fires, HasTok, Arrived, FreshOp, FreshAt, Solo, AtHome, AtVault, HasReg, Untracked, Turn, Quiet, Calm, RoleOk, DistinctWrites, ReadyPlain, NothingHeld, NoneGranted, NoneCommits, CommitHolds]
  repeat' apply And.intro
  all_goals first | decide +kernel | exact holdsNothing_of _ _ (by decide +kernel) (by decide +kernel) | exact oldest_of_nil _ (by decide +kernel) | exact ok_of _ _ (by decide +kernel) | exact error_of _ _ (by decide +kernel) | exact forall_of_nil _ _ (by decide +kernel) | exact trivial

theorem witness_mrel_commit : ∃ (k l : Nat) (s : State) (t : Thread) (f : Frame) (x : Exit) (o : Op),
    CommitHolds k l s t f x o ∧ o.i = .mrel ⟨0, 0⟩ := by
  let o : Op := { heldOp (.mrel ⟨0, 0⟩) with a := .s 256, b := .s 0 }
  let s := id (onFr (holding (.mrel ⟨0, 0⟩) (committing ⟨0, 0x100, 0, 0⟩ (at5 (.mrel ⟨0, 0⟩) []))) fun f => { f with ops := [o] })
  refine ⟨0, 0, s, th s, fr s, ⟨0, 0x100, 0, 0⟩, o, ?_⟩
  try dsimp only [Fires, HasTok, Arrived, FreshOp, FreshAt, Solo, AtHome, AtVault, HasReg, Untracked, Turn, Quiet, Calm, RoleOk, DistinctWrites, ReadyPlain, NothingHeld, NoneGranted, NoneCommits, CommitHolds]
  repeat' apply And.intro
  all_goals first | decide +kernel | exact holdsNothing_of _ _ (by decide +kernel) (by decide +kernel) | exact oldest_of_nil _ (by decide +kernel) | exact ok_of _ _ (by decide +kernel) | exact error_of _ _ (by decide +kernel) | exact forall_of_nil _ _ (by decide +kernel) | exact trivial

theorem witness_mshape_commit : ∃ (k l : Nat) (s : State) (t : Thread) (f : Frame) (x : Exit) (o : Op),
    CommitHolds k l s t f x o ∧ o.i = .mshape ⟨0, 15, 15, 9, 0⟩ := by
  let o : Op := { heldOp (.mshape ⟨0, 15, 15, 9, 0⟩) with a := .s 256, b := .s 0 }
  let s := id (onFr (holding (.mshape ⟨0, 15, 15, 9, 0⟩) (committing ⟨0, 0x100, 0, 0⟩ (at5 (.mshape ⟨0, 15, 15, 9, 0⟩) []))) fun f => { f with ops := [o] })
  refine ⟨0, 0, s, th s, fr s, ⟨0, 0x100, 0, 0⟩, o, ?_⟩
  try dsimp only [Fires, HasTok, Arrived, FreshOp, FreshAt, Solo, AtHome, AtVault, HasReg, Untracked, Turn, Quiet, Calm, RoleOk, DistinctWrites, ReadyPlain, NothingHeld, NoneGranted, NoneCommits, CommitHolds]
  repeat' apply And.intro
  all_goals first | decide +kernel | exact holdsNothing_of _ _ (by decide +kernel) (by decide +kernel) | exact oldest_of_nil _ (by decide +kernel) | exact ok_of _ _ (by decide +kernel) | exact error_of _ _ (by decide +kernel) | exact forall_of_nil _ _ (by decide +kernel) | exact trivial

theorem witness_compose_commit : ∃ (k l : Nat) (s : State) (t : Thread) (f : Frame) (x : Exit) (o : Op) (w : Word),
    CommitHolds k l s t f x o ∧ o.i = .compose ⟨0, 0x1FF, 1⟩ ∧ o.ans = some (.s w) ∧ w ≠ 0 := by
  let o : Op := { heldOp (.compose ⟨0, 0x1FF, 1⟩) with a := .s 2, b := .s 0, ans := some (.s 2) }
  let s := id (onFr (holding (.compose ⟨0, 0x1FF, 1⟩) (committing ⟨0, 0x100, 0, 0⟩ (at5 (.compose ⟨0, 0x1FF, 1⟩) []))) fun f => { f with ops := [o] })
  refine ⟨0, 0, s, th s, fr s, ⟨0, 0x100, 0, 0⟩, o, 2, ?_⟩
  try dsimp only [Fires, HasTok, Arrived, FreshOp, FreshAt, Solo, AtHome, AtVault, HasReg, Untracked, Turn, Quiet, Calm, RoleOk, DistinctWrites, ReadyPlain, NothingHeld, NoneGranted, NoneCommits, CommitHolds]
  repeat' apply And.intro
  all_goals first | decide +kernel | exact holdsNothing_of _ _ (by decide +kernel) (by decide +kernel) | exact oldest_of_nil _ (by decide +kernel) | exact ok_of _ _ (by decide +kernel) | exact error_of _ _ (by decide +kernel) | exact forall_of_nil _ _ (by decide +kernel) | exact trivial

theorem witness_decomp_commit : ∃ (k l : Nat) (s : State) (t : Thread) (f : Frame) (x : Exit) (o : Op) (w : Word),
    CommitHolds k l s t f x o ∧ o.i = .decomp ⟨0, 0x1FF, 1⟩ ∧ o.ans = some (.s w) ∧ w ≠ 0 := by
  let o : Op := { heldOp (.decomp ⟨0, 0x1FF, 1⟩) with a := .s 1, b := .s 0, ans := some (.s 1) }
  let s := id (onFr (holding (.decomp ⟨0, 0x1FF, 1⟩) (committing ⟨0, 0x100, 0, 0⟩ (at5 (.decomp ⟨0, 0x1FF, 1⟩) []))) fun f => { f with ops := [o] })
  refine ⟨0, 0, s, th s, fr s, ⟨0, 0x100, 0, 0⟩, o, 1, ?_⟩
  try dsimp only [Fires, HasTok, Arrived, FreshOp, FreshAt, Solo, AtHome, AtVault, HasReg, Untracked, Turn, Quiet, Calm, RoleOk, DistinctWrites, ReadyPlain, NothingHeld, NoneGranted, NoneCommits, CommitHolds]
  repeat' apply And.intro
  all_goals first | decide +kernel | exact holdsNothing_of _ _ (by decide +kernel) (by decide +kernel) | exact oldest_of_nil _ (by decide +kernel) | exact ok_of _ _ (by decide +kernel) | exact error_of _ _ (by decide +kernel) | exact forall_of_nil _ _ (by decide +kernel) | exact trivial

theorem witness_release_drain :
    ∃ (g : SyncF) (k : Nat) (s : State) (t : Thread) (f : Frame) (x : Exit) (o : Op),
    Solo s k t ∧ t.frames = [f] ∧
    f.stage = 2 ∧ t.post = .release ∧ drainDue s k (acqGrids k t f) = false ∧ f.ops = [o] ∧ o.i = .fence g ∧ o.nul = false ∧ o.stage = 0 ∧
    o.lsid = some g.lsid.toNat ∧ g.ord = 2#2 ∧ g.scope ≠ 0#3 ∧ f.exit = some x ∧ x.kind = 0 ∧ HoldsNothing s k ∧
    (s.ctx t.ctx).dying = none := by
  refine ⟨⟨0, 0x1FF, 0x1FF, 0, 2, 2, 0⟩, 0, draining (holding (.fence ⟨0, 0x1FF, 0x1FF, 0, 2, 2, 0⟩) (committing ⟨0, 0x100, 0, 0⟩ (at5 (.fence ⟨0, 0x1FF, 0x1FF, 0, 2, 2, 0⟩) []))), th (draining (holding (.fence ⟨0, 0x1FF, 0x1FF, 0, 2, 2, 0⟩) (committing ⟨0, 0x100, 0, 0⟩ (at5 (.fence ⟨0, 0x1FF, 0x1FF, 0, 2, 2, 0⟩) [])))), fr (draining (holding (.fence ⟨0, 0x1FF, 0x1FF, 0, 2, 2, 0⟩) (committing ⟨0, 0x100, 0, 0⟩ (at5 (.fence ⟨0, 0x1FF, 0x1FF, 0, 2, 2, 0⟩) [])))), ⟨0, 0x100, 0, 0⟩, { heldOp (.fence ⟨0, 0x1FF, 0x1FF, 0, 2, 2, 0⟩) with ans := none, stage := 0 }, ?_⟩
  try dsimp only [Fires, HasTok, Arrived, FreshOp, FreshAt, Solo, AtHome, AtVault, HasReg, Untracked, Turn, Quiet, Calm, RoleOk, DistinctWrites, ReadyPlain]
  repeat' apply And.intro
  all_goals first | decide +kernel | exact holdsNothing_of _ _ (by decide +kernel) (by decide +kernel) | exact oldest_of_nil _ (by decide +kernel) | exact ok_of _ _ (by decide +kernel) | exact error_of _ _ (by decide +kernel) | exact forall_of_nil _ _ (by decide +kernel) | exact trivial

/-! ### Operand memory and the matrix engine -/

/-- A slot of `.i32` elements, 2 rows of 32. -/
def slotD : SlotName := ⟨1, true, false, true, 2, 32, 2, some (0, 0)⟩
/-- A slot of `.i8` elements, 2 rows of 32. -/
def slotA : SlotName := ⟨1, true, false, true, 2, 32, 0, some (1, 0)⟩
/-- A slot of `.i8` elements, 32 rows of 32. -/
def slotB : SlotName := ⟨1, true, false, true, 32, 32, 0, some (2, 0)⟩

/-- Names 0 to 2 of context 0 are claimed and hold physical slots 0 to 2 of cluster 0. -/
def slotted (s : State) : State :=
  (s.modCtx 0 fun c => { c with names := [(0, slotD), (1, slotA), (2, slotB)] }).modClu 0 fun c =>
    { c with phys := [(0, ⟨some (0, 0, 0), true, 0⟩), (1, ⟨some (0, 0, 1), false, 0⟩), (2, ⟨some (0, 0, 2), false, 0⟩)] }

/-- Every name of context 0 is claimed. -/
def crowded (s : State) : State :=
  s.modCtx 0 fun c => { c with names := (List.range 64).map fun n => (n, { slotD with phys := none }) }

/-- What a command of thread 0 captured. -/
def cap0 : Capture := ⟨0, 0, 0, 0, 0, 0, 0, 0, 0, 5, true⟩
/-- A move or read on name 0. -/
def moveJob (i : Instr) (b : Tok) : MJob := ⟨i, cap0, 0, 0, 256, b, 0, [(0, slotD)], 0, Eng.mk0⟩
/-- It is the only command of cluster 0. -/
def moving (i : Instr) (b : Tok) (s : State) : State := s.modClu 0 fun c => { c with moves := [moveJob i b] }
/-- A read that its block tracks. -/
def readOp (i : Instr) : Op := { Op.mk0 i 5 (some 0) (.s 256) .null .null with stage := 2 }
/-- The block tracks it. -/
def reading (i : Instr) (s : State) : State := onFr s fun f => { f with fired := [5], ops := [readOp i] }
/-- A job on names 0 to 2 (an MZERO on name 0) that its pipe runs. -/
def runJob (i : Instr) : MJob :=
  ⟨i, cap0, 0, 0, 256, .s 0x01020101, 0, match i with | .mzero _ => [(0, slotD)] | _ => [(0, slotD), (1, slotA), (2, slotB)], 0, { Eng.mk0 with st := 1 }⟩
/-- It is the only command of cluster 0 and runs on the compute pipe. -/
def running (i : Instr) (s : State) : State := s.modClu 0 fun c => { c with jobs := [runJob i], pipeC := some 0 }
/-- The same job before it starts. -/
def idleJob (i : Instr) : MJob := { runJob i with eng := Eng.mk0 }
/-- It has not started. -/
def idle (s : State) : State :=
  s.modClu 0 fun c => { c with jobs := c.jobs.map fun j => { j with eng := Eng.mk0 }, pipeC := none }
/-- Physical slot 0 is being saved. -/
def saving (s : State) : State := s.modClu 0 fun c => { c with saving := [0] }
/-- A job that waits for a slot that was taken. -/
def takenJob : MJob := { runJob (.mzero ⟨0, 0x1FF, 1, 0⟩) with shapes := [(0, { slotD with phys := none })], eng := Eng.mk0 }
/-- The physical slot of name 0 was taken, and a job waits for it. -/
def taken (s : State) : State :=
  ((s.modCtx 0 fun c => { c with names := [(0, { slotD with phys := none })] }).modClu 0 fun c =>
    { c with phys := (List.range 3).map fun p => (p, ⟨some (1, 0, p), false, 0⟩), jobs := [takenJob] })

/-! #### The codes of the matrix checks (R299 to R302, R305, R306, R320 to R322) -/

/-- A block that tracks `i` with handle `a` and LSID 0 alone, in a cluster where name 0 is `x`. -/
def coded (i : Instr) (a : Nat) (x : SlotName) : State × Op :=
  let o := Op.mk0 i 5 (some 0) (.s (BitVec.ofNat 64 a)) .null .null
  (onFr ((at5 i []).modCtx 0 fun c => { c with names := [(0, x)] }) fun f => { f with ops := [o] }, o)

/-- Handle `h` names a live claim on slot `x` (R300). -/
def LiveHandle (h : Nat) (x : SlotName) : Prop :=
  h ≠ 0 ∧ h < 65536 ∧ h / 64 % 2 = 0 ∧ x.claimed = true ∧ h / 256 = x.ser ∧ (x.pair = true ↔ h / 128 % 2 = 1) ∧ (x.pair = true → h % 2 = 0)

/-- A case of the statement on the codes, for handle 256 or another. -/
def MatrixCase (i : Instr) (a : Nat) (x : SlotName) (p : Prop) : Prop :=
  let c := coded i a x
  (fr c.1).ops = [c.2] ∧ c.2.lsid = some 0 ∧ c.2.i = i ∧ slotAt (c.1.ctx (th c.1).ctx).names (th c.1).lclu (c.2.a.word.toNat % 64) = x ∧ p

/-- A row past the last and the last one, a segment past the row and its last one, elements of 6 bits, a column past the last and the
last one, and rows of 256 bytes and more. -/
theorem witness_matrix_codes :
    MatrixCase (.mload ⟨0x1FF, 1, 1, 0, 0, 2, 1, 0⟩) 512 slotD (¬LiveHandle 512 slotD) ∧
    MatrixCase (.mload ⟨0x1FF, 1, 1, 0, 0, 2, 1, 0⟩) 256 { slotD with shaped := false } (LiveHandle 256 { slotD with shaped := false }) ∧
    MatrixCase (.mload ⟨0x1FF, 1, 1, 1, 0, 2, 1, 0⟩) 256 slotD (LiveHandle 256 slotD ∧ slotD.rows ≤ 1 + 1) ∧
    MatrixCase (.mstore ⟨0x1FF, 1, 1, 0, 0, 2, 1, 0⟩) 256 slotD (LiveHandle 256 slotD ∧ 1 + 0 < slotD.rows) ∧
    MatrixCase (.mrow ⟨0, 0x1FF, 0x1FF, 1, 2, 0⟩) 256 slotD (LiveHandle 256 slotD ∧ slotD.rowBytes ≤ 64 * 2) ∧
    MatrixCase (.mrowr ⟨0, 0x1FF, 1, 1, 1, 0⟩) 256 slotD (LiveHandle 256 slotD ∧ 64 * 1 < slotD.rowBytes ∧ 1 < slotD.rows) ∧
    MatrixCase (.mcol ⟨0, 0x1FF, 1, 1, 31, 0⟩) 256 { slotD with fmt := 0x0E } (LiveHandle 256 slotD ∧ elemBits 0x0E = 6) ∧
    MatrixCase (.mcol ⟨0, 0x1FF, 1, 1, 31, 0⟩) 256 slotD (LiveHandle 256 slotD ∧ 1 < slotD.rows ∧ 31 < slotD.cols ∧ elemBits slotD.fmt = 32) ∧
    MatrixCase (.mcolw ⟨0, 0x1FF, 1, 1, 32, 0⟩) 256 slotD (LiveHandle 256 slotD ∧ slotD.cols ≤ 32) ∧
    MatrixCase (.mrel ⟨0, 0⟩) 256 slotD (LiveHandle 256 slotD) ∧
    MatrixCase (.mshape ⟨0, 1, 63, 9, 0⟩) 256 slotD (LiveHandle 256 slotD ∧ 64 * elemBits 9 ≤ 2048) ∧
    MatrixCase (.mshape ⟨0, 1, 64, 9, 0⟩) 256 slotD (LiveHandle 256 slotD ∧ 2048 < 65 * elemBits 9) := by
  unfold MatrixCase LiveHandle
  repeat' apply And.intro
  all_goals decide +kernel

/-- Names for the roles of a compute form. -/
def roled (i : Instr) (a : Nat) (b : Word) : Op := Op.mk0 i 5 (some 0) (.s (BitVec.ofNat 64 a)) (.s b) .null

/-- MMA at the largest inner dimension of its formats and past it, on different names and on its own; MACCR of formats that suit and
not; MSCAN at the last row of h and past it, and on its own name. -/
theorem witness_compute_codes :
    (∃ (g : MmaF) (d a b : SlotName) (o : Op), o.i = .mma g ∧ a.fmt = 0 ∧ b.fmt = 0 ∧ d.fmt = 2 ∧ a.cols = b.cols ∧ a.cols = 256 ∧
      d.rows = a.rows ∧ d.cols = b.rows ∧ (handles o).1 = [0x100, 0x101, 0x102]) ∧
    (∃ (g : MmaF) (d a b : SlotName) (o : Op), o.i = .mma g ∧ a.fmt = 0 ∧ b.fmt = 0 ∧ d.fmt = 2 ∧ a.cols = b.cols ∧ a.cols = 288 ∧
      d.rows = a.rows ∧ d.cols = b.rows) ∧
    (∃ (g : MmaF) (d a b : SlotName) (o : Op), o.i = .mma g ∧ a.fmt = 0x10 ∧ b.fmt = 0x10 ∧ d.fmt = 9 ∧ a.cols = b.cols ∧ a.cols = 512 ∧
      d.rows = a.rows ∧ d.cols = b.rows ∧ (handles o).1 = [0x100, 0x100, 0x102]) ∧
    (∃ (g : AccrF) (d a : SlotName) (o : Op), o.i = .maccr g ∧ a.fmt = 9 ∧ d.fmt = 0x0D ∧ a.rows = d.rows ∧ a.cols = d.cols ∧
      (handles o).1 = [0x100, 0x101]) ∧
    (∃ (g : AccrF) (d a : SlotName) (o : Op), o.i = .maccr g ∧ a.fmt = 2 ∧ d.fmt = 0x0A) ∧
    (∃ (g : ScanF) (d a b h : SlotName) (o : Op), o.i = .mscan g ∧ d.fmt = 9 ∧ a.fmt = 0x0A ∧ a.rows = d.rows ∧ a.cols = d.cols ∧ b = d ∧
      h.fmt = 9 ∧ h.cols = d.cols ∧ g.hrow.toNat + 1 = h.rows ∧ (handles o).1 = [0x100, 0x101, 0x102, 0x103]) ∧
    (∃ (g : ScanF) (d a b h : SlotName) (o : Op), o.i = .mscan g ∧ d.fmt = 9 ∧ a = d ∧ b = d ∧ h = d ∧ g.hrow.toNat = h.rows) ∧
    (∃ (g : ScanF) (d a b h : SlotName) (o : Op), o.i = .mscan g ∧ d.fmt = 9 ∧ a = d ∧ b = d ∧ h = d ∧ g.hrow.toNat < h.rows ∧
      (handles o).1 = [0x100, 0x101, 0x102, 0x102]) := by
  let m : MmaF := ⟨0, 0x1FF, 1, 0, 0⟩
  let k : AccrF := ⟨0, 0x1FF, 1, 0, 1, 0⟩
  let sc := fun (h : Nat) => (⟨0, 0x1FF, 1, BitVec.ofNat 7 h, 0⟩ : ScanF)
  let d := { slotD with fmt := 9 }
  refine ⟨⟨m, slotD, { slotA with cols := 256 }, { slotB with cols := 256 }, roled (.mma m) 0x100 0x01020101, ?_⟩,
    ⟨m, slotD, { slotA with cols := 288 }, { slotB with cols := 288 }, roled (.mma m) 0x100 0x01020101, ?_⟩,
    ⟨m, d, { slotA with cols := 512, fmt := 0x10 }, { slotB with cols := 512, fmt := 0x10 }, roled (.mma m) 0x100 0x01020100, ?_⟩,
    ⟨k, { slotD with fmt := 0x0D }, d, roled (.maccr k) 0x100 0x101, ?_⟩, ⟨k, { slotD with fmt := 0x0A }, slotD, roled (.maccr k) 0x100 0x101, ?_⟩,
    ⟨sc 1, d, { d with fmt := 0x0A }, d, d, roled (.mscan (sc 1)) 0x100 0x010301020101, ?_⟩,
    ⟨sc 2, d, d, d, d, roled (.mscan (sc 2)) 0x100 0x010301020101, ?_⟩,
    ⟨sc 0, d, d, d, d, roled (.mscan (sc 0)) 0x100 0x010201020101, ?_⟩⟩ <;>
  · repeat' apply And.intro
    all_goals decide +kernel

theorem witness_matrix_fires :
    ∃ (i : Instr) (nb nc : Bool) (l : Nat) (s : State) (t : Thread) (f : Frame) (a b c : Tok) (xs : _),
    matrixForm i = some (nb, nc, l) ∧ Fires s i.pred t f ∧ Arrived f s.cur.2.2 (memTakes i nb nc) a b c ∧
    FreshAt f s.cur.2.2 (some l) ∧ t.isOldest f.seq = true ∧
    let o := firedOp s f i l
    let f1 := firedFrame s f o
    f1.turn o = true ∧
    matrixCheck s s.cur.1 t f1 o = .ok xs  := by
  let s := slotted (at5 (.mrel ⟨0, 3⟩) [(5, .s 256)])
  refine ⟨.mrel ⟨0, 3⟩, false, false, 3, s, th s, fr s, .s 256, .null, .null, [(0, slotD)], ?_⟩
  try dsimp only [Fires, HasTok, Arrived, FreshOp, FreshAt, Solo, AtHome, AtVault, HasReg, Untracked, Turn, Quiet, Calm, RoleOk, DistinctWrites, ReadyPlain]
  repeat' apply And.intro
  all_goals first | decide +kernel | exact holdsNothing_of _ _ (by decide +kernel) (by decide +kernel) | exact oldest_of_nil _ (by decide +kernel) | exact ok_of _ _ (by decide +kernel) | exact error_of _ _ (by decide +kernel) | exact forall_of_nil _ _ (by decide +kernel) | exact trivial

theorem witness_matrix_fails :
    ∃ (i : Instr) (nb nc : Bool) (l : Nat) (s : State) (t : Thread) (f : Frame) (a b c : Tok) (code : _) (h : _),
    matrixForm i = some (nb, nc, l) ∧ Fires s i.pred t f ∧ Arrived f s.cur.2.2 (memTakes i nb nc) a b c ∧
    FreshAt f s.cur.2.2 (some l) ∧ t.isOldest f.seq = true ∧
    let o := firedOp s f i l
    let f1 := firedFrame s f o
    f1.turn o = true ∧
    matrixCheck s s.cur.1 t f1 o = .error (code, h)  := by
  let s := slotted (at5 (.mrel ⟨0, 3⟩) [(5, .s 512)])
  refine ⟨.mrel ⟨0, 3⟩, false, false, 3, s, th s, fr s, .s 512, .null, .null, 0x40, 512, ?_⟩
  try dsimp only [Fires, HasTok, Arrived, FreshOp, FreshAt, Solo, AtHome, AtVault, HasReg, Untracked, Turn, Quiet, Calm, RoleOk, DistinctWrites, ReadyPlain]
  repeat' apply And.intro
  all_goals first | decide +kernel | exact holdsNothing_of _ _ (by decide +kernel) (by decide +kernel) | exact oldest_of_nil _ (by decide +kernel) | exact ok_of _ _ (by decide +kernel) | exact error_of _ _ (by decide +kernel) | exact forall_of_nil _ _ (by decide +kernel) | exact trivial

theorem witness_matrix_job_fires :
    ∃ (i : Instr) (nb nc : Bool) (l : Nat) (s : State) (t : Thread) (f : Frame) (a b c : Tok) (xs : _),
    matrixForm i = some (nb, nc, l) ∧ Fires s i.pred t f ∧ Arrived f s.cur.2.2 (memTakes i nb nc) a b c ∧
    FreshAt f s.cur.2.2 (some l) ∧ t.isOldest f.seq = true ∧
    let o := firedOp s f i l
    let f1 := firedFrame s f o
    f1.turn o = true ∧
    matrixCheck s s.cur.1 t f1 o = .ok xs  := by
  let s := slotted (at5 (.mma ⟨0, 0x1FF, 1, 0, 31⟩) [(5, .s 256), (133, .s 0x01020101)])
  refine ⟨.mma ⟨0, 0x1FF, 1, 0, 31⟩, true, false, 31, s, th s, fr s, .s 256, .s 0x01020101, .null, [(0, slotD), (1, slotA), (2, slotB)], ?_⟩
  try dsimp only [Fires, HasTok, Arrived, FreshOp, FreshAt, Solo, AtHome, AtVault, HasReg, Untracked, Turn, Quiet, Calm, RoleOk, DistinctWrites, ReadyPlain]
  repeat' apply And.intro
  all_goals first | decide +kernel | exact holdsNothing_of _ _ (by decide +kernel) (by decide +kernel) | exact oldest_of_nil _ (by decide +kernel) | exact ok_of _ _ (by decide +kernel) | exact error_of _ _ (by decide +kernel) | exact forall_of_nil _ _ (by decide +kernel) | exact trivial

theorem witness_mclaim_full : ∃ (g : ClaimF) (s : State) (t : Thread) (f : Frame), Fires s g.p t f ∧ f.ops = [] ∧
    t.isOldest f.seq = true ∧ g.pair = 0#1 ∧ (firedFrame s f (firedOp s f (.mclaim g) g.lsid.toNat)).turn (firedOp s f (.mclaim g) g.lsid.toNat) = true ∧
    ∀ m, m < 64 → (slotAt (s.ctx t.ctx).names t.lclu m).claimed = true := by
  let s := crowded (at5 (.mclaim ⟨0, 0x1FF, 1, 0, 0⟩) [])
  refine ⟨⟨0, 0x1FF, 1, 0, 0⟩, s, th s, fr s, ?_⟩
  repeat' apply And.intro
  all_goals decide +kernel

theorem witness_mclaim :
    ∃ (g : ClaimF) (s : State) (t : Thread) (f : Frame) (n : _) (p : _),
    Fires s g.p t f ∧ f.ops = [] ∧ t.isOldest f.seq = true ∧
    g.pair = 0#1 ∧
    let o := firedOp s f (.mclaim g) g.lsid.toNat
    (firedFrame s f o).turn o = true ∧
    let tab := (s.ctx t.ctx).names
    let clu := cluOf s.cur.1
    n < 64 ∧ (slotAt tab t.lclu n).claimed = false ∧ (∀ m, m < n → (slotAt tab t.lclu m).claimed = true) ∧
      p < 64 ∧ ((s.clu clu).slot p).owner = none ∧ (s.clu clu).saving = [] ∧
      (∀ q, q < p → ((s.clu clu).slot q).owner ≠ none)  := by
  let s := slotted (at5 (.mclaim ⟨0, 0x1FF, 1, 0, 0⟩) [])
  refine ⟨⟨0, 0x1FF, 1, 0, 0⟩, s, th s, fr s, 3, 3, ?_⟩
  repeat' apply And.intro
  all_goals decide +kernel

theorem witness_mrowr : ∃ (s : State) (t : Thread) (f : Frame) (a : Word) (g : RowF) (xs : List (Nat × SlotName)),
    HasTok f 0 s.cur.2.2 (.s a) ∧ t.isOldest f.seq = true ∧ Fires s g.p t f ∧ FreshAt f s.cur.2.2 (some g.lsid.toNat) ∧
    (firedFrame s f (firedOp s f (.mrowr g) g.lsid.toNat)).turn (firedOp s f (.mrowr g) g.lsid.toNat) = true ∧
    matrixCheck s s.cur.1 t (firedFrame s f (firedOp s f (.mrowr g) g.lsid.toNat)) (firedOp s f (.mrowr g) g.lsid.toNat) = .ok xs := by
  let s := slotted (at5 (.mrowr ⟨0, 0x1FF, 1, 1, 1, 2⟩) [(5, .s 256)])
  refine ⟨s, th s, fr s, 256, ⟨0, 0x1FF, 1, 1, 1, 2⟩, [(0, slotD)], ?_⟩
  try dsimp only [Fires, HasTok, Arrived, FreshOp, FreshAt, Solo, AtHome, AtVault, HasReg, Untracked, Turn, Quiet, Calm, RoleOk, DistinctWrites, ReadyPlain]
  repeat' apply And.intro
  all_goals first | decide +kernel | exact holdsNothing_of _ _ (by decide +kernel) (by decide +kernel) | exact oldest_of_nil _ (by decide +kernel) | exact ok_of _ _ (by decide +kernel) | exact error_of _ _ (by decide +kernel) | exact forall_of_nil _ _ (by decide +kernel) | exact trivial

theorem witness_mcol : ∃ (s : State) (t : Thread) (f : Frame) (a : Word) (g : ColF) (xs : List (Nat × SlotName)),
    HasTok f 0 s.cur.2.2 (.s a) ∧ t.isOldest f.seq = true ∧ Fires s g.p t f ∧ FreshAt f s.cur.2.2 (some g.lsid.toNat) ∧
    (firedFrame s f (firedOp s f (.mcol g) g.lsid.toNat)).turn (firedOp s f (.mcol g) g.lsid.toNat) = true ∧
    matrixCheck s s.cur.1 t (firedFrame s f (firedOp s f (.mcol g) g.lsid.toNat)) (firedOp s f (.mcol g) g.lsid.toNat) = .ok xs := by
  let s := slotted (at5 (.mcol ⟨0, 0x1FF, 1, 1, 31, 2⟩) [(5, .s 256)])
  refine ⟨s, th s, fr s, 256, ⟨0, 0x1FF, 1, 1, 31, 2⟩, [(0, slotD)], ?_⟩
  try dsimp only [Fires, HasTok, Arrived, FreshOp, FreshAt, Solo, AtHome, AtVault, HasReg, Untracked, Turn, Quiet, Calm, RoleOk, DistinctWrites, ReadyPlain]
  repeat' apply And.intro
  all_goals first | decide +kernel | exact holdsNothing_of _ _ (by decide +kernel) (by decide +kernel) | exact oldest_of_nil _ (by decide +kernel) | exact ok_of _ _ (by decide +kernel) | exact error_of _ _ (by decide +kernel) | exact forall_of_nil _ _ (by decide +kernel) | exact trivial

theorem witness_mrow_performed :
    ∃ (clu : Nat) (s : State) (j : MJob) (r : List MJob) (ph : Nat × Nat) (g : RowF),
    (s.clu clu).moves = j :: r ∧
    (∀ x ∈ (s.clu clu).jobs ++ r, j.place ≤ x.place) ∧ j.shapes.length = 1 ∧ physNow j 0 = some ph ∧
    RoleOk (j.shape 0) ph ∧ Memory.wf s.opmem = true ∧
    let x := j.shape 0
    j.i = .mrow g ∧ g.row.toNat < x.rows ∧ 64 * g.seg.toNat < x.rowBytes  := by
  let s := moving (.mrow ⟨0, 0x1FF, 0x1FF, 1, 1, 0⟩) (.v 7) (slotted (at5 (.mrow ⟨0, 0x1FF, 0x1FF, 1, 1, 0⟩) []))
  refine ⟨0, s, moveJob (.mrow ⟨0, 0x1FF, 0x1FF, 1, 1, 0⟩) (.v 7), [], (0, 0), ⟨0, 0x1FF, 0x1FF, 1, 1, 0⟩, ?_⟩
  repeat' apply And.intro
  all_goals decide +kernel

theorem witness_mrowr_performed :
    ∃ (clu : Nat) (s : State) (j : MJob) (r : List MJob) (ph : Nat × Nat) (g : RowF) (f : Frame) (o : Op),
    (s.clu clu).moves = j :: r ∧
    (∀ x ∈ (s.clu clu).jobs ++ r, j.place ≤ x.place) ∧ j.shapes.length = 1 ∧ physNow j 0 = some ph ∧
    RoleOk (j.shape 0) ph ∧ Memory.wf s.opmem = true ∧
    let x := j.shape 0
    j.i = .mrowr g ∧ g.row.toNat < x.rows ∧ 64 * g.seg.toNat < x.rowBytes ∧
        s.frame j.cap.thr j.seq = some f ∧ f.op j.cap.slot = some o ∧ o.i = j.i  := by
  let s := reading (.mrowr ⟨0, 0x1FF, 1, 0, 0, 0⟩) (moving (.mrowr ⟨0, 0x1FF, 1, 0, 0, 0⟩) (.null) (slotted (at5 (.mrowr ⟨0, 0x1FF, 1, 0, 0, 0⟩) [])))
  refine ⟨0, s, moveJob (.mrowr ⟨0, 0x1FF, 1, 0, 0, 0⟩) (.null), [], (0, 0), ⟨0, 0x1FF, 1, 0, 0, 0⟩, fr s, readOp (.mrowr ⟨0, 0x1FF, 1, 0, 0, 0⟩), ?_⟩
  repeat' apply And.intro
  all_goals decide +kernel

theorem witness_mcol_performed :
    ∃ (clu : Nat) (s : State) (j : MJob) (r : List MJob) (ph : Nat × Nat) (g : ColF) (f : Frame) (o : Op),
    (s.clu clu).moves = j :: r ∧
    (∀ x ∈ (s.clu clu).jobs ++ r, j.place ≤ x.place) ∧ j.shapes.length = 1 ∧ physNow j 0 = some ph ∧
    RoleOk (j.shape 0) ph ∧ Memory.wf s.opmem = true ∧
    let x := j.shape 0
    j.i = .mcol g ∧
        s.frame j.cap.thr j.seq = some f ∧ f.op j.cap.slot = some o ∧ o.i = j.i ∧
        let w := elemBits x.fmt / 8
        (w = 1 ∨ w = 2 ∨ w = 4) ∧ g.col.toNat < x.cols  := by
  let s := reading (.mcol ⟨0, 0x1FF, 1, 1, 31, 0⟩) (moving (.mcol ⟨0, 0x1FF, 1, 1, 31, 0⟩) (.null) (slotted (at5 (.mcol ⟨0, 0x1FF, 1, 1, 31, 0⟩) [])))
  refine ⟨0, s, moveJob (.mcol ⟨0, 0x1FF, 1, 1, 31, 0⟩) (.null), [], (0, 0), ⟨0, 0x1FF, 1, 1, 31, 0⟩, fr s, readOp (.mcol ⟨0, 0x1FF, 1, 1, 31, 0⟩), ?_⟩
  repeat' apply And.intro
  all_goals decide +kernel

theorem witness_mcolw_performed :
    ∃ (clu : Nat) (s : State) (j : MJob) (r : List MJob) (ph : Nat × Nat) (g : ColF),
    (s.clu clu).moves = j :: r ∧
    (∀ x ∈ (s.clu clu).jobs ++ r, j.place ≤ x.place) ∧ j.shapes.length = 1 ∧ physNow j 0 = some ph ∧
    RoleOk (j.shape 0) ph ∧ Memory.wf s.opmem = true ∧
    let x := j.shape 0
    j.i = .mcolw g ∧
        let w := elemBits x.fmt / 8
        (w = 1 ∨ w = 2 ∨ w = 4) ∧ g.col.toNat < x.cols ∧ w * x.cols ≤ x.rowBytes  := by
  let s := moving (.mcolw ⟨0, 0x1FF, 0x1FF, 0, 31, 0⟩) (.v 7) (slotted (at5 (.mcolw ⟨0, 0x1FF, 0x1FF, 0, 31, 0⟩) []))
  refine ⟨0, s, moveJob (.mcolw ⟨0, 0x1FF, 0x1FF, 0, 31, 0⟩) (.v 7), [], (0, 0), ⟨0, 0x1FF, 0x1FF, 0, 31, 0⟩, ?_⟩
  repeat' apply And.intro
  all_goals decide +kernel

theorem witness_matrix_job_starts :
    ∃ (clu : Nat) (s : State) (j : MJob),
    (s.clu clu).jobs = [j] ∧ (s.clu clu).moves = [] ∧ j.eng.st = 0 ∧
    (s.clu clu).pipeC = none ∧ (s.clu clu).pipeT = none ∧ slotsHere j = true ∧ 0 < (s.clu clu).bucket ∧
    (s.clu clu).fab.q = [] ∧ (s.clu clu).copyQ = [] ∧ (s.clu clu).streams = []  := by
  let s := idle (running (.mma ⟨0, 0x1FF, 1, 0, 0⟩) (slotted (at5 (.mma ⟨0, 0x1FF, 1, 0, 0⟩) [])))
  refine ⟨0, s, idleJob (.mma ⟨0, 0x1FF, 1, 0, 0⟩), ?_⟩
  repeat' apply And.intro
  all_goals decide +kernel

theorem witness_mzero_completes :
    ∃ (clu k : Nat) (s : State) (j : MJob) (t : Thread) (ph : Nat × Nat) (g : RsF),
    (s.clu clu).pipeC = some j.place ∧
    (s.clu clu).jobs = [j] ∧ j.eng = { Eng.mk0 with st := 1 } ∧ Memory.wf s.opmem = true ∧ s.opoison = [] ∧ s.holds = [] ∧
    s.thrs = [(k, t)] ∧ j.cap.uid = t.ser ∧ physNow j 0 = some ph ∧
    j.i = .mzero g ∧ (j.shape 0).pair = false  := by
  let s := running (.mzero ⟨0, 0x1FF, 1, 0⟩) (slotted (at5 (.mzero ⟨0, 0x1FF, 1, 0⟩) []))
  refine ⟨0, 0, s, runJob (.mzero ⟨0, 0x1FF, 1, 0⟩), th s, (0, 0), ⟨0, 0x1FF, 1, 0⟩, ?_⟩
  repeat' apply And.intro
  all_goals decide +kernel

theorem witness_mma_completes :
    ∃ (clu k : Nat) (s : State) (j : MJob) (t : Thread) (ph : Nat × Nat) (g : MmaF) (pa pb : Nat × Nat),
    (s.clu clu).pipeC = some j.place ∧
    (s.clu clu).jobs = [j] ∧ j.eng = { Eng.mk0 with st := 1 } ∧ Memory.wf s.opmem = true ∧ s.opoison = [] ∧ s.holds = [] ∧
    s.thrs = [(k, t)] ∧ j.cap.uid = t.ser ∧ physNow j 0 = some ph ∧
    j.i = .mma g ∧ j.shapes.length = 3 ∧ physNow j 1 = some pa ∧
      physNow j 2 = some pb ∧ RoleOk (j.shape 0) ph ∧ RoleOk (j.shape 1) pa ∧ RoleOk (j.shape 2) pb ∧
      (j.shape 0).fmt = 2 ∧ (j.shape 1).fmt = 0 ∧ (j.shape 2).fmt = 0 ∧ (j.shape 0).rows = (j.shape 1).rows ∧
      (j.shape 0).cols = (j.shape 2).rows ∧ (j.shape 1).cols = (j.shape 2).cols ∧ (j.shape 1).cols % 32 = 0  := by
  let s := running (.mma ⟨0, 0x1FF, 1, 0, 0⟩) (slotted (at5 (.mma ⟨0, 0x1FF, 1, 0, 0⟩) []))
  refine ⟨0, 0, s, runJob (.mma ⟨0, 0x1FF, 1, 0, 0⟩), th s, (0, 0), ⟨0, 0x1FF, 1, 0, 0⟩, (1, 0), (2, 0), ?_⟩
  repeat' apply And.intro
  all_goals decide +kernel

/-! #### The other compute forms and the transfers (R310, R318 to R323) -/

/-- Job `i` on slots of these shapes, one physical slot each, running on the compute pipe. -/
def shapedJob (i : Instr) (xs : List SlotName) : MJob :=
  { runJob i with shapes := (List.range xs.length).map fun n => (n, { xs.getD n slotD with phys := some (n, 0) }) }
/-- It is the only command of cluster 0, its element bytes 0x38 in each slot. -/
def computing (i : Instr) (xs : List SlotName) : State :=
  { (at5 i []).modClu 0 fun c => { c with jobs := [shapedJob i xs], pipeC := some 0 } with opmem := [(physBase 0 1, 0x38)] }
/-- What the statement on the compute forms asks of the machine. -/
def Computes (clu k : Nat) (s : State) (j : MJob) (t : Thread) (ph : Nat × Nat) : Prop :=
  (s.clu clu).pipeC = some j.place ∧ (s.clu clu).jobs = [j] ∧ j.eng = { Eng.mk0 with st := 1 } ∧ Memory.wf s.opmem = true ∧
    s.opoison = [] ∧ s.holds = [] ∧ s.thrs = [(k, t)] ∧ j.cap.uid = t.ser ∧ physNow j 0 = some ph ∧ RoleOk (j.shape 0) ph

/-- D of `.f32`, and operands of `fmt`. -/
def shapesOf (d fmt cols : Nat) : List SlotName :=
  [{ slotD with fmt := d, cols := 4 }, { slotA with fmt := fmt, cols := cols }, { slotB with rows := 4, fmt := fmt, cols := cols }]

theorem witness_mma_float : ∃ (clu k : Nat) (s : State) (j : MJob) (t : Thread) (ph pa pb : Nat × Nat) (g : MmaF),
    Computes clu k s j t ph ∧ physNow j 1 = some pa ∧ physNow j 2 = some pb ∧ RoleOk (j.shape 1) pa ∧ RoleOk (j.shape 2) pb ∧
    j.i = .mma g ∧ j.shapes.length = 3 ∧ (j.shape 1).rows = (j.shape 0).rows ∧ (j.shape 0).cols = (j.shape 2).rows ∧
    (j.shape 1).cols = (j.shape 2).cols ∧ (j.shape 1).cols % 32 = 0 ∧ (j.shape 0).fmt = 9 ∧ (j.shape 1).fmt = 0x10 ∧
    (j.shape 2).fmt = 0x10 := by
  let i := Instr.mma ⟨0, 0x1FF, 1, 0, 0⟩
  let xs := shapesOf 9 0x10 64
  refine ⟨0, 0, computing i xs, shapedJob i xs, th (computing i xs), (0, 0), (1, 0), (2, 0), ⟨0, 0x1FF, 1, 0, 0⟩, ?_⟩
  dsimp only [Computes]
  repeat' apply And.intro
  all_goals decide +kernel

theorem witness_mmas : ∃ (clu k : Nat) (s : State) (j : MJob) (t : Thread) (ph pa pb sa sb : Nat × Nat) (g : RsF),
    Computes clu k s j t ph ∧ physNow j 1 = some pa ∧ physNow j 2 = some pb ∧ RoleOk (j.shape 1) pa ∧ RoleOk (j.shape 2) pb ∧
    j.i = .mmas g ∧ j.shapes.length = 5 ∧ (j.shape 1).rows = (j.shape 0).rows ∧ (j.shape 0).cols = (j.shape 2).rows ∧
    (j.shape 1).cols = (j.shape 2).cols ∧ (j.shape 1).cols % 32 = 0 ∧ (j.shape 0).fmt = 9 ∧ (j.shape 1).fmt = 0x0C ∧
    (j.shape 2).fmt = 0x0C ∧ physNow j 3 = some sa ∧ physNow j 4 = some sb ∧ RoleOk (j.shape 3) sa ∧ RoleOk (j.shape 4) sb ∧
    (j.shape 3).fmt = 0x11 ∧ (j.shape 4).fmt = 0x11 ∧ (j.shape 3).rows = (j.shape 1).rows ∧ (j.shape 4).rows = (j.shape 2).rows ∧
    (j.shape 3).cols = (j.shape 1).cols / 32 ∧ (j.shape 4).cols = (j.shape 1).cols / 32 := by
  let i := Instr.mmas ⟨0, 0x1FF, 1, 0⟩
  let xs := shapesOf 9 0x0C 64 ++ [{ slotD with fmt := 0x11, cols := 2 }, { slotD with fmt := 0x11, rows := 4, cols := 2 }]
  refine ⟨0, 0, computing i xs, shapedJob i xs, th (computing i xs), (0, 0), (1, 0), (2, 0), (3, 0), (4, 0), ⟨0, 0x1FF, 1, 0⟩, ?_⟩
  dsimp only [Computes]
  repeat' apply And.intro
  all_goals decide +kernel

theorem witness_mma_planes : ∃ (clu k : Nat) (s : State) (j : MJob) (t : Thread) (ph pa pb : Nat × Nat) (g : MmaF),
    Computes clu k s j t ph ∧ physNow j 1 = some pa ∧ physNow j 2 = some pb ∧ RoleOk (j.shape 1) pa ∧ RoleOk (j.shape 2) pb ∧
    j.i = .mma g ∧ j.shapes.length = 3 ∧ (j.shape 1).rows = (j.shape 0).rows ∧ (j.shape 0).cols = (j.shape 2).rows ∧
    (j.shape 1).cols = (j.shape 2).cols ∧ (j.shape 1).cols % 64 = 0 ∧ (j.shape 0).fmt = 2 ∧ (j.shape 1).fmt = 0x12 ∧
    (j.shape 2).fmt = 0x12 ∧ 1 ≤ g.pl.toNat := by
  let i := Instr.mma ⟨0, 0x1FF, 1, 1, 0⟩
  let xs := shapesOf 2 0x12 64
  refine ⟨0, 0, computing i xs, shapedJob i xs, th (computing i xs), (0, 0), (1, 0), (2, 0), ⟨0, 0x1FF, 1, 1, 0⟩, ?_⟩
  dsimp only [Computes]
  repeat' apply And.intro
  all_goals decide +kernel

theorem witness_mscan : ∃ (clu k : Nat) (s : State) (j : MJob) (t : Thread) (ph pa pb qh : Nat × Nat) (g : ScanF),
    Computes clu k s j t ph ∧ physNow j 1 = some pa ∧ physNow j 2 = some pb ∧ RoleOk (j.shape 1) pa ∧ RoleOk (j.shape 2) pb ∧
    j.i = .mscan g ∧ j.shapes.length = 4 ∧ physNow j 3 = some qh ∧ RoleOk (j.shape 3) qh ∧ (j.shape 0).fmt = 9 ∧
    (j.shape 1).fmt = 0x0A ∧ (j.shape 2).fmt = 9 ∧ (j.shape 1).rows = (j.shape 0).rows ∧ (j.shape 2).rows = (j.shape 0).rows ∧
    (j.shape 1).cols = (j.shape 0).cols ∧ (j.shape 2).cols = (j.shape 0).cols ∧ (j.shape 3).fmt = 9 ∧
    (j.shape 3).cols = (j.shape 0).cols ∧ g.hrow.toNat + 1 = (j.shape 3).rows ∧ Apart (j.shape 0) ph (j.shape 3) qh := by
  let i := Instr.mscan ⟨0, 0x1FF, 1, 1, 0⟩
  let d := { slotD with fmt := 9, cols := 4 }
  let xs := [d, { d with fmt := 0x0A }, d, d]
  refine ⟨0, 0, computing i xs, shapedJob i xs, th (computing i xs), (0, 0), (1, 0), (2, 0), (3, 0), ⟨0, 0x1FF, 1, 1, 0⟩, ?_⟩
  dsimp only [Computes, Apart]
  repeat' apply And.intro
  all_goals decide +kernel

theorem witness_maccr : ∃ (clu k : Nat) (s : State) (j : MJob) (t : Thread) (ph pa : Nat × Nat) (g : AccrF),
    Computes clu k s j t ph ∧ j.i = .maccr g ∧ j.shapes.length = 2 ∧ physNow j 1 = some pa ∧ RoleOk (j.shape 1) pa ∧
    Apart (j.shape 0) ph (j.shape 1) pa ∧ (j.shape 1).rows = (j.shape 0).rows ∧ (j.shape 1).cols = (j.shape 0).cols ∧
    (j.shape 0).cols * elemBits (j.shape 0).fmt % 8 = 0 ∧ (j.shape 1).fmt = 9 ∧ (j.shape 0).fmt = 0x0D ∧ g.clr = 1#1 := by
  let i := Instr.maccr ⟨0, 0x1FF, 1, 4, 1, 0⟩
  let xs := [{ slotD with fmt := 0x0D }, { slotD with fmt := 9 }]
  refine ⟨0, 0, computing i xs, shapedJob i xs, th (computing i xs), (0, 0), (1, 0), ⟨0, 0x1FF, 1, 4, 1, 0⟩, ?_⟩
  dsimp only [Computes, Apart]
  repeat' apply And.intro
  all_goals decide +kernel

theorem witness_maccr_integers : ∃ (clu k : Nat) (s : State) (j : MJob) (t : Thread) (ph pa : Nat × Nat) (g : AccrF),
    Computes clu k s j t ph ∧ j.i = .maccr g ∧ j.shapes.length = 2 ∧ physNow j 1 = some pa ∧ RoleOk (j.shape 1) pa ∧
    Apart (j.shape 0) ph (j.shape 1) pa ∧ (j.shape 1).rows = (j.shape 0).rows ∧ (j.shape 1).cols = (j.shape 0).cols ∧
    (j.shape 0).cols * elemBits (j.shape 0).fmt % 8 = 0 ∧ (j.shape 1).fmt = 2 ∧ (j.shape 0).fmt = 1 := by
  let i := Instr.maccr ⟨0, 0x1FF, 1, 4, 0, 0⟩
  let xs := [{ slotD with fmt := 1 }, slotD]
  refine ⟨0, 0, computing i xs, shapedJob i xs, th (computing i xs), (0, 0), (1, 0), ⟨0, 0x1FF, 1, 4, 0, 0⟩, ?_⟩
  dsimp only [Computes, Apart]
  repeat' apply And.intro
  all_goals decide +kernel

/-- A transfer at a step of its progress, with one piece of 4 bytes at the end of a line; a row of it failed with cause 15. -/
def xferJob (i : Instr) (st : Nat) (ds : List Seg) : MJob :=
  { runJob i with shapes := [(0, { slotD with phys := some (0, 1) })], eng := { Eng.mk0 with st := st, segs := ds, xf := some 15 } }
/-- It runs on the transfer pipe of cluster 0. -/
def moved (j : MJob) : State :=
  { (at5 j.i []).modClu 0 fun c => { c with jobs := [j], pipeT := some 0 } with opmem := [(physBase 0 0, 1)] }
/-- What the statement on the transfers asks of the machine. -/
def Transfers (clu k : Nat) (s : State) (j : MJob) (t : Thread) (ph : Nat × Nat) : Prop :=
  (s.clu clu).pipeT = some j.place ∧ (s.clu clu).jobs = [j] ∧ j.eng.out = [] ∧ Memory.wf s.opmem = true ∧ s.opoison = [] ∧
    s.holds = [] ∧ s.thrs = [(k, t)] ∧ j.cap.uid = t.ser ∧ j.cap.id < 256 ∧ physNow j 0 = some ph ∧ ph.1 ≠ ph.2 ∧ ph.1 < 64 ∧
    ph.2 < 64 ∧ ∀ c, j.eng.xf = some c → c < 16

theorem witness_mload_moves : ∃ (clu k : Nat) (s : State) (j : MJob) (t : Thread) (ph : Nat × Nat) (g : XferF) (d : Seg),
    Transfers clu k s j t ph ∧ j.i = .mload g ∧ j.eng.st = 3 ∧ j.eng.segs = [d] ∧ d.dst = false ∧ d.st = 1 ∧ d.poison = 0 ∧
    d.data.length = d.len ∧ 0 < d.len ∧ d.pa % 64 + d.len ≤ 64 ∧ d.off + d.len ≤ 32768 := by
  let d : Seg := ⟨0x103C, 32764, 4, 0, 1, false, 1, [1, 2, 3, 4], 0⟩
  let j := xferJob (.mload ⟨0x1FF, 1, 0, 1, 0, 2, 1, 0⟩) 3 [d]
  refine ⟨0, 0, moved j, j, th (moved j), (0, 1), ⟨0x1FF, 1, 0, 1, 0, 2, 1, 0⟩, d, ?_⟩
  dsimp only [Transfers]
  repeat' apply And.intro
  all_goals first | decide +kernel | (intro c h; obtain rfl : c = 15 := by simpa [j, xferJob] using h.symm; decide)

theorem witness_mstore_moves : ∃ (clu k : Nat) (s : State) (j : MJob) (t : Thread) (ph : Nat × Nat) (g : XferF) (d : Seg),
    Transfers clu k s j t ph ∧ j.i = .mstore g ∧ j.eng.st = 2 ∧ j.eng.segs = [d] ∧ d.dst = true ∧ d.cls ≠ 5 ∧ 0 < d.len ∧
    d.pa % 64 + d.len ≤ 64 ∧ 32768 ≤ d.off ∧ d.off + d.len ≤ 65536 := by
  let d : Seg := ⟨0x103C, 65532, 4, 0, 1, true, 0, [], 0⟩
  let j := xferJob (.mstore ⟨0x1FF, 1, 0, 1, 0, 2, 1, 0⟩) 2 [d]
  refine ⟨0, 0, moved j, j, th (moved j), (0, 1), ⟨0x1FF, 1, 0, 1, 0, 2, 1, 0⟩, d, ?_⟩
  dsimp only [Transfers]
  repeat' apply And.intro
  all_goals first | decide +kernel | (intro c h; obtain rfl : c = 15 := by simpa [j, xferJob] using h.symm; decide)

theorem witness_mstore_ends : ∃ (clu k : Nat) (s : State) (j : MJob) (t : Thread) (ph : Nat × Nat) (g : XferF),
    Transfers clu k s j t ph ∧ j.i = .mstore g ∧ j.eng.st = 4 ∧ ∀ d ∈ j.eng.segs, d.kind ≠ 3 := by
  let j := xferJob (.mstore ⟨0x1FF, 1, 0, 1, 0, 2, 1, 0⟩) 4 []
  refine ⟨0, 0, moved j, j, th (moved j), (0, 1), ⟨0x1FF, 1, 0, 1, 0, 2, 1, 0⟩, ?_⟩
  dsimp only [Transfers]
  repeat' apply And.intro
  all_goals first | decide +kernel | (intro c h; obtain rfl : c = 15 := by simpa [j, xferJob] using h.symm; decide)

theorem witness_slot_saved :
    ∃ (clu p : Nat) (r : List Nat) (s : State) (w : Nat × Nat × Nat),
    (s.clu clu).saving = p :: r ∧
    ((s.clu clu).slot p).owner = some w ∧ (slotAt (s.ctx w.1).names w.2.1 w.2.2).pair = false ∧
    (∀ q, (slotAt (s.ctx w.1).names w.2.1 w.2.2).phys = some q → q.1 = p) ∧ Memory.wf s.mem = true ∧ Quiet s ∧ s.dies = [] ∧
    paPkg ((s.ctx w.1).word 12 % 2 ^ 56 / 2 ^ 22 * 2 ^ 22 + 2 ^ 22 * w.2.1 + 32768 * w.2.2) = s.mod.pkg := by
  let s := saving (slotted (at5 (.mrel ⟨0, 0⟩) []))
  refine ⟨0, 0, [], s, (0, 0, 0), ?_⟩
  repeat' apply And.intro
  all_goals decide +kernel

theorem witness_slot_restored :
    ∃ (clu ctx lclu n p : Nat) (s : State) (x : SlotName) (j : MJob),
    n < 64 ∧ x = slotAt (s.ctx ctx).names lclu n ∧
    x.claimed = true ∧ x.pair = false ∧ x.phys = none ∧ (s.clu clu).jobs = [j] ∧ (s.clu clu).moves = [] ∧ j.cap.ctx = ctx ∧
    j.cap.lclu = lclu ∧ j.shapes = [(n, x)] ∧ Quiet s ∧ s.dies = [] ∧
    paPkg ((s.ctx ctx).word 12 % 2 ^ 56 / 2 ^ 22 * 2 ^ 22 + 2 ^ 22 * lclu + 32768 * n) = s.mod.pkg ∧ p < 64 ∧ ((s.clu clu).slot p).owner = none ∧ (s.clu clu).saving = [] ∧
    (∀ q, q < p → ((s.clu clu).slot q).owner ≠ none) ∧ Memory.wf s.opmem = true  := by
  let s := taken (slotted (at5 (.mrel ⟨0, 0⟩) []))
  refine ⟨0, 0, 0, 0, 3, s, { slotD with phys := none }, takenJob, ?_⟩
  repeat' apply And.intro
  all_goals decide +kernel

theorem witness_wait_done :
    ∃ (g : RsF) (s : State) (t : Thread) (f : Frame) (a : Word),
    Fires s g.p t f ∧ HasTok f 0 s.cur.2.2 (.s a) ∧
    FreshAt f s.cur.2.2 (some g.lsid.toNat) ∧ t.isOldest f.seq = true ∧
    let st := fun (unit : Nat) => (tget t.status (256 * unit + a.toNat % 256)).getD 0
    let runs := fun (unit : Nat) => ∃ e ∈ s.clus, ∃ c : Capture, c.uid = t.ser ∧ c.id = a.toNat % 256 ∧
      ((unit = 1 ∧ ∃ j ∈ e.2.jobs, j.cap = c) ∨ (unit = 2 ∧ ∃ j ∈ e.2.fab.q, j.cap = c) ∨
        (unit = 0 ∧ ((∃ j ∈ e.2.copyQ, j.cap = c) ∨ ∃ x ∈ e.2.streams, x.cmd.cap = c)))
    ¬runs 1 ∧
    ¬runs 2 ∧
    ¬runs 0  := by
  let s := at5 (.mwait ⟨0, 0x1FF, 1, 3⟩) [(5, .s 258)]
  refine ⟨⟨0, 0x1FF, 1, 3⟩, s, th s, fr s, 258, ?_⟩
  dsimp only [Fires, HasTok, FreshAt]
  refine ⟨⟨?_, ?_, ?_⟩, ?_, ?_, ?_, ?_, ?_, ?_⟩
  all_goals first | decide +kernel | (rintro ⟨e, he, -⟩; revert he; rw [show s.clus = [] by decide +kernel]; simp)

theorem witness_wait_runs :
    ∃ (g : RsF) (s : State) (t : Thread) (f : Frame) (a : Word),
    Fires s g.p t f ∧ HasTok f 0 s.cur.2.2 (.s a) ∧
    FreshAt f s.cur.2.2 (some g.lsid.toNat) ∧ t.isOldest f.seq = true ∧
    let st := fun (unit : Nat) => (tget t.status (256 * unit + a.toNat % 256)).getD 0
    let runs := fun (unit : Nat) => ∃ e ∈ s.clus, ∃ c : Capture, c.uid = t.ser ∧ c.id = a.toNat % 256 ∧
      ((unit = 1 ∧ ∃ j ∈ e.2.jobs, j.cap = c) ∨ (unit = 2 ∧ ∃ j ∈ e.2.fab.q, j.cap = c) ∨
        (unit = 0 ∧ ((∃ j ∈ e.2.copyQ, j.cap = c) ∨ ∃ x ∈ e.2.streams, x.cmd.cap = c)))
    runs 1  := by
  let s := running (.mzero ⟨0, 0x1FF, 1, 0⟩) (slotted (at5 (.mwait ⟨0, 0x1FF, 1, 3⟩) [(5, .s 0)]))
  refine ⟨⟨0, 0x1FF, 1, 3⟩, s, th s, fr s, 0, ?_⟩
  dsimp only [Fires, HasTok, FreshAt]
  refine ⟨⟨?_, ?_, ?_⟩, ?_, ?_, ?_, ?_⟩
  all_goals first | decide +kernel | exact ⟨(0, s.clu 0), by decide +kernel, cap0, by decide +kernel, by decide +kernel, .inl ⟨rfl, runJob (.mzero ⟨0, 0x1FF, 1, 0⟩), by decide +kernel, by decide +kernel⟩⟩

/-! ### The lookup-cell fabric -/

/-- The fabric of cluster 0 is context 0's, has run 65,535 layers, and selects slot 5, which holds one cell. -/
def fabricked (s : State) : State :=
  s.modClu 0 fun c => { c with fab := { c.fab with owner := 0, sel := 5, layers := 0xFFFF, slots := [(5, ⟨1, true, [0]⟩)] } }
/-- A fabric command of thread 0, at a step of its progress, with operands 0x4000 and 2. -/
def fabCmd (i : Instr) (st : Nat) : FCmd := ⟨i, cap0, 0, 0x4000, 2, 0, 16, false, false, { Eng.mk0 with st := st }⟩
/-- It is the only command of cluster 0. -/
def commanded (i : Instr) (st : Nat) (s : State) : State :=
  s.modClu 0 fun c => { c with fab := { c.fab with q := [fabCmd i st] } }

/-! #### The codes of the lookup checks, and the wires (R362, R368, R370) -/

/-- A block that tracks `i` with operand b alone, in a cluster whose fabric belongs to `owner`. -/
def lookedUp (i : Instr) (b : Word) (owner : Nat) : State × Op :=
  ((at5 i []).modClu 0 fun c => { c with fab := { c.fab with owner := owner } }, Op.mk0 i 5 (some 0) (.s 0x4000) (.s b) .null)

/-- A fabric of another context; as many records as a slot has cells and one more; wires that end at the last one and past it, by planes
and by thresholds; a sample count where it ends; and a set reserved bit. -/
theorem witness_lookup_codes :
    (∃ g s o, (s, o) = lookedUp (.lcload g) 0 1 ∧ o.i = .lcload g ∧ (s.clu (cluOf 0)).fab.owner ≠ (th s).ctx) ∧
    (∃ g s o, (s, o) = lookedUp (.lcload g) 8192 0 ∧ o.i = .lcload g ∧ (s.clu (cluOf 0)).fab.owner = (th s).ctx ∧ 8192 ≤ o.b.word.toNat % 2 ^ 14) ∧
    (∃ g s o, (s, o) = lookedUp (.lcload g) 8193 0 ∧ o.i = .lcload g ∧ (s.clu (cluOf 0)).fab.owner = (th s).ctx ∧ 8192 < o.b.word.toNat % 2 ^ 14) ∧
    (∃ (g : LcinF) (s : State) (o : Op), (s, o) = lookedUp (.lcin g) 0x1FFF 0 ∧ o.i = .lcin g ∧ g.thr = 0#1 ∧ g.plm1 = 0#3 ∧
      (s.clu (cluOf 0)).fab.owner = (th s).ctx) ∧
    (∃ (g : LcinF) (s : State) (o : Op), (s, o) = lookedUp (.lcin g) 0x1FFF 0 ∧ o.i = .lcin g ∧ g.thr = 0#1 ∧ g.plm1 = 1#3 ∧
      (s.clu (cluOf 0)).fab.owner = (th s).ctx ∧ 8192 < 0x1FFF + (0 + 1) * (1 + 1)) ∧
    (∃ (g : LcinF) (s : State) (o : Op), (s, o) = lookedUp (.lcin g) 0xFF0000000000 0 ∧ o.i = .lcin g ∧ g.thr = 1#1 ∧
      (s.clu (cluOf 0)).fab.owner = (th s).ctx ∧ 0 + (0 + 1) * (255 + 1) ≤ 8192) ∧
    (∃ g s o, (s, o) = lookedUp (.lcout g) 0x1FFF 0 ∧ o.i = .lcout g ∧ (s.clu (cluOf 0)).fab.owner = (th s).ctx) ∧
    (∃ g s o, (s, o) = lookedUp (.lcout g) 0x11FFF 0 ∧ o.i = .lcout g ∧ (s.clu (cluOf 0)).fab.owner = (th s).ctx ∧
      8192 < 0x1FFF + (0 + 1) * (1 + 1)) ∧
    (∃ g s o, (s, o) = lookedUp (.lcsel g) 0 0 ∧ o.i = .lcsel g ∧ (s.clu (cluOf 0)).fab.owner = (th s).ctx) ∧
    (∃ g s o, (s, o) = lookedUp (.lcrun g) 0 0 ∧ o.i = .lcrun g ∧ (s.clu (cluOf 0)).fab.owner = (th s).ctx) := by
  let ld : LcloadF := ⟨0, 0x1FF, 1, 5, 1, 2, 0, 0, 31⟩
  let pl : LcinF := ⟨0x1FF, 1, 0, 0, 0, 0, 1, 2, 0, 0, 31⟩
  let lo : LcoutF := ⟨0, 0x1FF, 1, 0, 1, 2, 0, 0, 31⟩
  refine ⟨⟨ld, _, _, rfl, ?_⟩, ⟨ld, _, _, rfl, ?_⟩, ⟨ld, _, _, rfl, ?_⟩, ⟨pl, _, _, rfl, ?_⟩, ⟨{ pl with plm1 := 1 }, _, _, rfl, ?_⟩,
    ⟨{ pl with thr := 1 }, _, _, rfl, ?_⟩, ⟨lo, _, _, rfl, ?_⟩, ⟨lo, _, _, rfl, ?_⟩,
    ⟨⟨0, 0x1FF, 1, 5, 2, 0, 0, 31⟩, _, _, rfl, ?_⟩, ⟨⟨0, 0x1FF, 1, 15, 2, 0, 0, 31⟩, _, _, rfl, ?_⟩⟩ <;>
  · repeat' apply And.intro
    all_goals decide +kernel

/-- A ninth command: eight others of the block stand below it. -/
theorem witness_lookup_ninth : ∃ (f : Frame) (o : Op), o.lsid = some 8 ∧ 8 ≤ issuedBelow f (o.lsid.getD 0) isLcell := by
  let g : LcselF := ⟨0, 0x1FF, 1, 5, 2, 0, 0, 0⟩
  let op := fun (l : Nat) => Op.mk0 (.lcsel g) l (some l) .null .null .null
  exact ⟨{ Frame.mk0 0 0 true 1 none with ops := (List.range 9).map op }, op 8, by decide +kernel, by decide +kernel⟩

/-- LCIN by planes into the last wires of P: elements 0x80 and 0 of one sample. -/
theorem witness_lcin_planes : ∃ (clu k : Nat) (s : State) (j : FCmd) (t : Thread) (g : LcinF), (s.clu clu).fab.q = [j] ∧ s.holds = [] ∧
    j.cap.id < 256 ∧ s.thrs = [(k, t)] ∧ j.cap.uid = t.ser ∧ j.i = .lcin g ∧ g.ntf = 0#1 ∧ j.eng.st = 5 ∧ j.eng.xf = none ∧
    j.eng.pz = false ∧ j.nctx = false ∧ (∀ d ∈ j.eng.segs, d.dst = false) ∧ g.thr = 0#1 ∧ g.ty.toNat = 4 := by
  let g : LcinF := ⟨0x1FF, 1, 4, 7, 0, 0, 1, 2, 0, 0, 31⟩
  let j : FCmd := { fabCmd (.lcin g) 5 with b := 0x11FF0, eng := { Eng.mk0 with st := 5, segs := [⟨0x4000, 0, 2, 0, 1, false, 1, [0x80, 0], 0⟩] } }
  let s := (fabricked (at5 (.lcin g) [])).modClu 0 fun c => { c with fab := { c.fab with q := [j] } }
  refine ⟨0, 0, s, j, th s, g, ?_⟩
  repeat' apply And.intro
  all_goals decide +kernel

/-- LCIN by one threshold of `.bf16`: a NaN against 1. -/
theorem witness_lcin_threshold : ∃ (clu k : Nat) (s : State) (j : FCmd) (t : Thread) (g : LcinF), (s.clu clu).fab.q = [j] ∧ s.holds = [] ∧
    j.cap.id < 256 ∧ s.thrs = [(k, t)] ∧ j.cap.uid = t.ser ∧ j.i = .lcin g ∧ g.ntf = 0#1 ∧ j.eng.st = 5 ∧ j.eng.xf = none ∧
    j.eng.pz = false ∧ j.nctx = false ∧ (∀ d ∈ j.eng.segs, d.dst = false) ∧ g.thr = 1#1 ∧ g.ty.toNat ∈ [0, 1, 4, 5, 9, 0x0A] := by
  let g : LcinF := ⟨0x1FF, 1, 0x0A, 0, 1, 1, 1, 2, 0, 0, 31⟩
  let j : FCmd := { fabCmd (.lcin g) 5 with b := 0, eng := { Eng.mk0 with st := 5, segs := [⟨0x4000, 0, 4, 0, 1, false, 1, [0xC0, 0x7F, 0x80, 0x3F], 0⟩] } }
  let s := (fabricked (at5 (.lcin g) [])).modClu 0 fun c => { c with fab := { c.fab with q := [j] } }
  refine ⟨0, 0, s, j, th s, g, ?_⟩
  repeat' apply And.intro
  all_goals decide +kernel

theorem witness_lcout_writes : ∃ (clu k : Nat) (s : State) (j : FCmd) (t : Thread) (g : LcoutF) (d : Seg), (s.clu clu).fab.q = [j] ∧
    s.holds = [] ∧ j.cap.id < 256 ∧ s.thrs = [(k, t)] ∧ j.cap.uid = t.ser ∧ j.i = .lcout g ∧ j.eng.st = 2 ∧ j.eng.out = [] ∧
    j.eng.segs = [d] ∧ d.dst = true ∧ d.cls ≠ 5 ∧ 0 < d.len ∧ d.pa % 64 + d.len ≤ 64 := by
  let g : LcoutF := ⟨0, 0x1FF, 1, 0, 1, 2, 0, 0, 31⟩
  let d : Seg := ⟨0x403E, 0, 2, 0, 1, true, 0, [], 0⟩
  let j : FCmd := { fabCmd (.lcout g) 2 with b := 0x20000, eng := { Eng.mk0 with st := 2, segs := [d] } }
  let s := (fabricked (at5 (.lcout g) [])).modClu 0 fun c => { c with fab := { c.fab with q := [j] } }
  refine ⟨0, 0, s, j, th s, g, d, ?_⟩
  repeat' apply And.intro
  all_goals decide +kernel

theorem witness_lcload : ∃ (s : State) (t : Thread) (f : Frame) (g : LcloadF) (a b : Word), t.isOldest f.seq = true ∧ Fires s g.p t f ∧
    HasTok f 0 s.cur.2.2 (.s a) ∧ HasTok f 1 s.cur.2.2 (.s b) ∧
    FreshAt f s.cur.2.2 (some g.lsid.toNat) ∧
    (firedFrame s f (firedOp s f (.lcload g) g.lsid.toNat)).turn (firedOp s f (.lcload g) g.lsid.toNat) = true ∧
    lcellCheck s s.cur.1 t (firedFrame s f (firedOp s f (.lcload g) g.lsid.toNat)) (firedOp s f (.lcload g) g.lsid.toNat) = none := by
  let s := fabricked (at5 (.lcload ⟨0, 0x1FF, 1, 5, 1, 2, 0, 0, 31⟩) [(5, .s 0x4000), (133, .s 8192)])
  refine ⟨s, th s, fr s, ⟨0, 0x1FF, 1, 5, 1, 2, 0, 0, 31⟩, 0x4000, 8192, ?_⟩
  try dsimp only [Fires, HasTok, Arrived, FreshOp, FreshAt, Solo, AtHome, AtVault, HasReg, Untracked, Turn, Quiet, Calm, RoleOk, DistinctWrites, ReadyPlain]
  repeat' apply And.intro
  all_goals first | decide +kernel | exact holdsNothing_of _ _ (by decide +kernel) (by decide +kernel) | exact oldest_of_nil _ (by decide +kernel) | exact ok_of _ _ (by decide +kernel) | exact error_of _ _ (by decide +kernel) | exact forall_of_nil _ _ (by decide +kernel) | exact trivial

theorem witness_lcload_fails : ∃ (s : State) (t : Thread) (f : Frame) (g : LcloadF) (a b : Word), t.isOldest f.seq = true ∧ Fires s g.p t f ∧
    HasTok f 0 s.cur.2.2 (.s a) ∧ HasTok f 1 s.cur.2.2 (.s b) ∧
    FreshAt f s.cur.2.2 (some g.lsid.toNat) ∧
    (firedFrame s f (firedOp s f (.lcload g) g.lsid.toNat)).turn (firedOp s f (.lcload g) g.lsid.toNat) = true ∧
    lcellCheck s s.cur.1 t (firedFrame s f (firedOp s f (.lcload g) g.lsid.toNat)) (firedOp s f (.lcload g) g.lsid.toNat) = some 0x61 := by
  let s := fabricked (at5 (.lcload ⟨0, 0x1FF, 1, 5, 1, 2, 0, 0, 31⟩) [(5, .s 0x4000), (133, .s 8193)])
  refine ⟨s, th s, fr s, ⟨0, 0x1FF, 1, 5, 1, 2, 0, 0, 31⟩, 0x4000, 8193, ?_⟩
  try dsimp only [Fires, HasTok, Arrived, FreshOp, FreshAt, Solo, AtHome, AtVault, HasReg, Untracked, Turn, Quiet, Calm, RoleOk, DistinctWrites, ReadyPlain]
  repeat' apply And.intro
  all_goals first | decide +kernel | exact holdsNothing_of _ _ (by decide +kernel) (by decide +kernel) | exact oldest_of_nil _ (by decide +kernel) | exact ok_of _ _ (by decide +kernel) | exact error_of _ _ (by decide +kernel) | exact forall_of_nil _ _ (by decide +kernel) | exact trivial

theorem witness_lcload_other : ∃ (s : State) (t : Thread) (f : Frame) (g : LcloadF) (a b : Word), t.isOldest f.seq = true ∧ Fires s g.p t f ∧
    HasTok f 0 s.cur.2.2 (.s a) ∧ HasTok f 1 s.cur.2.2 (.s b) ∧
    FreshAt f s.cur.2.2 (some g.lsid.toNat) ∧
    (firedFrame s f (firedOp s f (.lcload g) g.lsid.toNat)).turn (firedOp s f (.lcload g) g.lsid.toNat) = true ∧
    (s.clu (cluOf s.cur.1)).fab.owner ≠ t.ctx := by
  let s := at5 (.lcload ⟨0, 0x1FF, 1, 5, 1, 2, 0, 0, 31⟩) [(5, .s 0x4000), (133, .s 8192)]
  refine ⟨s, th s, fr s, ⟨0, 0x1FF, 1, 5, 1, 2, 0, 0, 31⟩, 0x4000, 8192, ?_⟩
  try dsimp only [Fires, HasTok, Arrived, FreshOp, FreshAt, Solo, AtHome, AtVault, HasReg, Untracked, Turn, Quiet, Calm, RoleOk, DistinctWrites, ReadyPlain]
  repeat' apply And.intro
  all_goals first | decide +kernel | exact holdsNothing_of _ _ (by decide +kernel) (by decide +kernel) | exact oldest_of_nil _ (by decide +kernel) | exact ok_of _ _ (by decide +kernel) | exact error_of _ _ (by decide +kernel) | exact forall_of_nil _ _ (by decide +kernel) | exact trivial

theorem witness_lcsel : ∃ (s : State) (t : Thread) (f : Frame) (g : LcselF), t.isOldest f.seq = true ∧ Fires s g.p t f ∧
    FreshAt f s.cur.2.2 (some g.lsid.toNat) ∧
    (firedFrame s f (firedOp s f (.lcsel g) g.lsid.toNat)).turn (firedOp s f (.lcsel g) g.lsid.toNat) = true ∧
    lcellCheck s s.cur.1 t (firedFrame s f (firedOp s f (.lcsel g) g.lsid.toNat)) (firedOp s f (.lcsel g) g.lsid.toNat) = none := by
  let s := fabricked (at5 (.lcsel ⟨0, 0x1FF, 1, 5, 2, 0, 0, 31⟩) [])
  refine ⟨s, th s, fr s, ⟨0, 0x1FF, 1, 5, 2, 0, 0, 31⟩, ?_⟩
  try dsimp only [Fires, HasTok, Arrived, FreshOp, FreshAt, Solo, AtHome, AtVault, HasReg, Untracked, Turn, Quiet, Calm, RoleOk, DistinctWrites, ReadyPlain]
  repeat' apply And.intro
  all_goals first | decide +kernel | exact holdsNothing_of _ _ (by decide +kernel) (by decide +kernel) | exact oldest_of_nil _ (by decide +kernel) | exact ok_of _ _ (by decide +kernel) | exact error_of _ _ (by decide +kernel) | exact forall_of_nil _ _ (by decide +kernel) | exact trivial

theorem witness_lcin : ∃ (s : State) (t : Thread) (f : Frame) (g : LcinF) (a b c : Word), t.isOldest f.seq = true ∧ Fires s 0#2 t f ∧
    HasTok f 0 s.cur.2.2 (.s a) ∧ HasTok f 1 s.cur.2.2 (.s b) ∧ HasTok f 2 s.cur.2.2 (.s c) ∧
    FreshAt f s.cur.2.2 (some g.lsid.toNat) ∧
    (firedFrame s f (firedOp s f (.lcin g) g.lsid.toNat)).turn (firedOp s f (.lcin g) g.lsid.toNat) = true ∧
    lcellCheck s s.cur.1 t (firedFrame s f (firedOp s f (.lcin g) g.lsid.toNat)) (firedOp s f (.lcin g) g.lsid.toNat) = none := by
  let s := fabricked (at5 (.lcin ⟨0x1FF, 1, 0, 0, 0, 0, 1, 2, 0, 0, 31⟩) [(5, .s 0x4000), (133, .s 0), (261, .s 0)])
  refine ⟨s, th s, fr s, ⟨0x1FF, 1, 0, 0, 0, 0, 1, 2, 0, 0, 31⟩, 0x4000, 0, 0, ?_⟩
  try dsimp only [Fires, HasTok, Arrived, FreshOp, FreshAt, Solo, AtHome, AtVault, HasReg, Untracked, Turn, Quiet, Calm, RoleOk, DistinctWrites, ReadyPlain]
  repeat' apply And.intro
  all_goals first | decide +kernel | exact holdsNothing_of _ _ (by decide +kernel) (by decide +kernel) | exact oldest_of_nil _ (by decide +kernel) | exact ok_of _ _ (by decide +kernel) | exact error_of _ _ (by decide +kernel) | exact forall_of_nil _ _ (by decide +kernel) | exact trivial

theorem witness_lcrun : ∃ (s : State) (t : Thread) (f : Frame) (g : LcrunF), t.isOldest f.seq = true ∧ Fires s g.p t f ∧
    FreshAt f s.cur.2.2 (some g.lsid.toNat) ∧
    (firedFrame s f (firedOp s f (.lcrun g) g.lsid.toNat)).turn (firedOp s f (.lcrun g) g.lsid.toNat) = true ∧
    lcellCheck s s.cur.1 t (firedFrame s f (firedOp s f (.lcrun g) g.lsid.toNat)) (firedOp s f (.lcrun g) g.lsid.toNat) = none := by
  let s := fabricked (at5 (.lcrun ⟨0, 0x1FF, 1, 15, 2, 0, 0, 31⟩) [])
  refine ⟨s, th s, fr s, ⟨0, 0x1FF, 1, 15, 2, 0, 0, 31⟩, ?_⟩
  try dsimp only [Fires, HasTok, Arrived, FreshOp, FreshAt, Solo, AtHome, AtVault, HasReg, Untracked, Turn, Quiet, Calm, RoleOk, DistinctWrites, ReadyPlain]
  repeat' apply And.intro
  all_goals first | decide +kernel | exact holdsNothing_of _ _ (by decide +kernel) (by decide +kernel) | exact oldest_of_nil _ (by decide +kernel) | exact ok_of _ _ (by decide +kernel) | exact error_of _ _ (by decide +kernel) | exact forall_of_nil _ _ (by decide +kernel) | exact trivial

theorem witness_lcout : ∃ (s : State) (t : Thread) (f : Frame) (g : LcoutF) (a b : Word), t.isOldest f.seq = true ∧ Fires s g.p t f ∧
    HasTok f 0 s.cur.2.2 (.s a) ∧ HasTok f 1 s.cur.2.2 (.s b) ∧
    FreshAt f s.cur.2.2 (some g.lsid.toNat) ∧
    (firedFrame s f (firedOp s f (.lcout g) g.lsid.toNat)).turn (firedOp s f (.lcout g) g.lsid.toNat) = true ∧
    lcellCheck s s.cur.1 t (firedFrame s f (firedOp s f (.lcout g) g.lsid.toNat)) (firedOp s f (.lcout g) g.lsid.toNat) = none := by
  let s := fabricked (at5 (.lcout ⟨0, 0x1FF, 1, 0, 1, 2, 0, 0, 31⟩) [(5, .s 0x4000), (133, .s 0x1FFF)])
  refine ⟨s, th s, fr s, ⟨0, 0x1FF, 1, 0, 1, 2, 0, 0, 31⟩, 0x4000, 0x1FFF, ?_⟩
  try dsimp only [Fires, HasTok, Arrived, FreshOp, FreshAt, Solo, AtHome, AtVault, HasReg, Untracked, Turn, Quiet, Calm, RoleOk, DistinctWrites, ReadyPlain]
  repeat' apply And.intro
  all_goals first | decide +kernel | exact holdsNothing_of _ _ (by decide +kernel) (by decide +kernel) | exact oldest_of_nil _ (by decide +kernel) | exact ok_of _ _ (by decide +kernel) | exact error_of _ _ (by decide +kernel) | exact forall_of_nil _ _ (by decide +kernel) | exact trivial

theorem witness_lcstat : ∃ (s : State) (t : Thread) (f : Frame) (g : GF), t.isOldest f.seq = true ∧ Fires s g.p t f ∧
    FreshAt f s.cur.2.2 none ∧ (s.clu (cluOf s.cur.1)).fab.owner = t.ctx ∧ (s.clu (cluOf s.cur.1)).fab.layers = 0xFFFF ∧
    (s.clu (cluOf s.cur.1)).fab.q.length = 0 ∧ ∀ i, ((s.clu (cluOf s.cur.1)).fab.slot i).nc < 2 ^ 16 := by
  let s := fabricked (at5 (.lcstat ⟨0, 0x1FF, 1⟩) [])
  have h : (s.clu (cluOf s.cur.1)).fab.slots = [(5, ⟨1, true, [0]⟩)] := by decide +kernel
  refine ⟨s, th s, fr s, ⟨0, 0x1FF, 1⟩, ?_⟩
  dsimp only [Fires, FreshAt]
  repeat' apply And.intro
  all_goals first
    | decide +kernel
    | (intro i; simp only [Fabric.slot, h, tget]; split <;> simp <;> omega)

theorem witness_lcstat_other : ∃ (s : State) (t : Thread) (f : Frame) (g : GF), t.isOldest f.seq = true ∧ Fires s g.p t f ∧
    FreshAt f s.cur.2.2 none ∧ (s.clu (cluOf s.cur.1)).fab.owner ≠ t.ctx := by
  let s := at5 (.lcstat ⟨0, 0x1FF, 1⟩) []
  refine ⟨s, th s, fr s, ⟨0, 0x1FF, 1⟩, ?_⟩
  try dsimp only [Fires, HasTok, Arrived, FreshOp, FreshAt, Solo, AtHome, AtVault, HasReg, Untracked, Turn, Quiet, Calm, RoleOk, DistinctWrites, ReadyPlain]
  repeat' apply And.intro
  all_goals first | decide +kernel | exact holdsNothing_of _ _ (by decide +kernel) (by decide +kernel) | exact oldest_of_nil _ (by decide +kernel) | exact ok_of _ _ (by decide +kernel) | exact error_of _ _ (by decide +kernel) | exact forall_of_nil _ _ (by decide +kernel) | exact trivial

theorem witness_layer : ∃ (clu : Nat) (s : State) (j : FCmd) (g : LcrunF), (s.clu clu).fab.q = [j] ∧ j.i = .lcrun g ∧
    j.eng.st = 1 ∧ j.layers = g.repm1.toNat + 1 ∧ ((s.clu clu).fab.slot (s.clu clu).fab.sel).nc = 1 := by
  let s := commanded (.lcrun ⟨0, 0x1FF, 1, 15, 2, 0, 0, 31⟩) 1 (fabricked State.reset)
  refine ⟨0, s, fabCmd (.lcrun ⟨0, 0x1FF, 1, 15, 2, 0, 0, 31⟩) 1, ⟨0, 0x1FF, 1, 15, 2, 0, 0, 31⟩, ?_⟩
  repeat' apply And.intro
  all_goals decide +kernel

theorem witness_later_layer : ∃ (clu m : Nat) (s : State) (j : FCmd) (g : LcrunF), (s.clu clu).fab.q = [j] ∧ j.i = .lcrun g ∧
    j.eng.st = 1 ∧ j.layers = m + 1 ∧ m < g.repm1.toNat ∧ (s.clu clu).jobs = [] ∧ (s.clu clu).moves = [] ∧ (s.clu clu).copyQ = [] ∧
    (s.clu clu).streams = [] ∧ 0 < (s.clu clu).bucket := by
  let i := Instr.lcrun ⟨0, 0x1FF, 1, 15, 2, 0, 0, 31⟩
  let j := { fabCmd i 1 with layers := 1 }
  let s := (fabricked State.reset).modClu 0 fun c => { c with fab := { c.fab with q := [j] } }
  refine ⟨0, 0, s, j, ⟨0, 0x1FF, 1, 15, 2, 0, 0, 31⟩, ?_⟩
  repeat' apply And.intro
  all_goals decide +kernel

theorem witness_fabric_starts :
    ∃ (clu : Nat) (s : State) (j : FCmd),
    (s.clu clu).fab.q = [j] ∧ isLcell j.i = true ∧ j.eng.st = 0 ∧
    (s.clu clu).jobs = [] ∧ (s.clu clu).moves = [] ∧ (s.clu clu).copyQ = [] ∧ (s.clu clu).streams = [] ∧
    0 < (s.clu clu).bucket  := by
  let s := commanded (.lcload ⟨0, 0x1FF, 1, 5, 1, 2, 0, 0, 31⟩) 0 (fabricked State.reset)
  refine ⟨0, s, fabCmd (.lcload ⟨0, 0x1FF, 1, 5, 1, 2, 0, 0, 31⟩) 0, ?_⟩
  repeat' apply And.intro
  all_goals decide +kernel

theorem witness_lcsel_completes :
    ∃ (clu k : Nat) (s : State) (j : FCmd) (t : Thread) (g : LcselF),
    (s.clu clu).fab.q = [j] ∧ j.eng.st = 5 ∧ s.holds = [] ∧
    j.eng.xf = none ∧ j.eng.pz = false ∧ j.nv = false ∧ j.nctx = false ∧ j.cap.id < 256 ∧
    s.thrs = [(k, t)] ∧ j.cap.uid = t.ser ∧
    j.i = .lcsel g ∧ g.ntf = 0#1  := by
  let s := commanded (.lcsel ⟨0, 0x1FF, 1, 5, 2, 0, 0, 31⟩) 5 (fabricked (at5 (.lcsel ⟨0, 0x1FF, 1, 5, 2, 0, 0, 31⟩) []))
  refine ⟨0, 0, s, fabCmd (.lcsel ⟨0, 0x1FF, 1, 5, 2, 0, 0, 31⟩) 5, th s, ⟨0, 0x1FF, 1, 5, 2, 0, 0, 31⟩, ?_⟩
  repeat' apply And.intro
  all_goals decide +kernel

theorem witness_lcload_completes :
    ∃ (clu k : Nat) (s : State) (j : FCmd) (t : Thread) (g : _) (n : _),
    (s.clu clu).fab.q = [j] ∧ j.eng.st = 5 ∧ s.holds = [] ∧
    j.eng.xf = none ∧ j.eng.pz = false ∧ j.nv = false ∧ j.nctx = false ∧ j.cap.id < 256 ∧
    s.thrs = [(k, t)] ∧ j.cap.uid = t.ser ∧
    j.i = .lcload g ∧ g.ntf = 0#1 ∧ n = j.b.toNat % 2 ^ 14 ∧ (∀ d ∈ j.eng.segs, d.dst = false)  := by
  let s := commanded (.lcload ⟨0, 0x1FF, 1, 5, 1, 2, 0, 0, 31⟩) 5 (fabricked (at5 (.lcload ⟨0, 0x1FF, 1, 5, 1, 2, 0, 0, 31⟩) []))
  refine ⟨0, 0, s, fabCmd (.lcload ⟨0, 0x1FF, 1, 5, 1, 2, 0, 0, 31⟩) 5, th s, ⟨0, 0x1FF, 1, 5, 1, 2, 0, 0, 31⟩, 2, ?_⟩
  repeat' apply And.intro
  all_goals decide +kernel

/-! ### The copy engine -/

/-- Context 0 maps logical cluster 0 to cluster 0. -/
def mapped (s : State) : State :=
  { s.modCtx 0 fun c => { c with alive := true, words := [0, 0, 0, 0, 1] } with mem := [(3, 0x80)] }
theorem mapped_all (s : State) (k x : Nat) (c : Tok)
    (h : ((branchClus c).all fun m => match mapAt s k x m with | .ok _ => true | .error _ => false) = true) :
    ∀ m ∈ branchClus c, ∃ p, mapAt s k x m = .ok p := by
  intro m hm
  have := List.all_eq_true.mp h m hm
  revert this
  cases mapAt s k x m <;> simp

/-- An entry of the stream table: two slots of 512 bytes, one tile complete. -/
def entry : SEnt := ⟨0, 2, 1, 0, 0, 0, false, false, 0, 0, false, 0, 0, 1, 0, 1, 0⟩
/-- It is entry 15 of cluster 0. -/
def streaming (s : State) : State := s.modClu 0 fun c => { c with stab := [(15, entry)] }
/-- One tile of one row of 512 bytes in each dimension. -/
def tiling : Vec := 0x100000001 <<< 256
/-- One branch: two slots, cluster 0, entry 0, no port. -/
def ring : Vec := 0x21
/-- A CPY of bytes. -/
def cpyForm : CpyF := ⟨0x1FF, 1, 0, 0, 0, 0, 1, 2, 0, 0, 31⟩
/-- A CPY of 2^24 bytes at a step of its progress, its first token paid. -/
def cpyCmd (st : Nat) : CCmd :=
  ⟨.cpy cpyForm, cap0, 0, 0x4000, .s 0x5000, .v 0x00000001000000010000000101000000, 1, 0, { Eng.mk0 with st := st }⟩
/-- It is the only command of cluster 0. -/
def copying (j : CCmd) (s : State) : State := s.modClu 0 fun c => { c with copyQ := [j] }
/-- Two bytes that were read, and where they go. -/
def srcSeg : Seg := ⟨0x1000, 0, 2, 0, 1, false, 1, [7, 8], 0⟩
/-- See `srcSeg`. -/
def dstSeg : Seg := ⟨0x203E, 0, 2, 0, 1, true, 0, [], 0⟩
/-- A CPY whose source has been read. -/
def copied : CCmd := { cpyCmd 3 with eng := { Eng.mk0 with st := 3, segs := [srcSeg, dstSeg] } }
/-- A CPY that ended with a translation failure of cause 15, an overflow and poison. -/
def failedCpy : CCmd := { cpyCmd 5 with eng := { Eng.mk0 with st := 5, fl := 4, xf := some 15, pz := true } }
/-- A CPYS to `ring`. -/
def cpysForm : CpysF := ⟨0x1FF, 1, 1, 2, 0, 0, 31⟩
/-- See `cpysForm`. -/
def cpysCmd : CCmd := ⟨.cpys cpysForm, cap0, 0, 0x4000, .v tiling, .v ring, 0, 0, Eng.mk0⟩
/-- Its branch. -/
def branch0 : Branch := ⟨0, 0, 0, 0, 0, 2, 1, 0, [0], none, []⟩
/-- Entry 0 is taken. -/
def taking (s : State) : State := s.modClu 0 fun c => { c with stab := [(0, entry)] }
/-- A stream whose first tile has been read as one piece of two bytes. -/
def stream3 : Stream :=
  ⟨{ cpysCmd with eng := { Eng.mk0 with st := 3, segs := [{ srcSeg with len := 2 }] } }, [branch0], 0, 1, [], false, none, false⟩
/-- A tile of zeros but its first byte. -/
def tile0 : Tile := ⟨0, 9 :: List.replicate 511 0, none, []⟩
/-- A stream with a tile in staging. -/
def staged : Stream := ⟨cpysCmd, [branch0], 1, 1, [tile0], false, none, false⟩
/-- A stream whose tile has landed at the consumer's entry 15. -/
def landed : Stream := ⟨cpysCmd, [{ branch0 with ent := 15, w := 1, run := [(2, tile0)] }], 1, 1, [], false, none, false⟩
/-- It is the only stream of cluster 0. -/
def producing (x : Stream) (s : State) : State := s.modClu 0 fun c => { c with streams := [x] }
/-- A notice to cluster 0 with argument 1. -/
def noticeMsg (k : MKind) (par : Nat) : Msg := { Msg.mk0 k .dog with node := 9, par := par, arg := 1 }
/-- It is the only message. -/
def noticing (k : MKind) (par : Nat) (s : State) : State := { s with net := [(0, noticeMsg k par)] }

theorem witness_cpy_fires :
    ∃ (s : State) (t : Thread) (f : Frame) (a : Word) (g : CpyF) (b : Word) (c : Vec),
    HasTok f 0 s.cur.2.2 (.s a) ∧ t.isOldest f.seq = true ∧
    let n := s.cur.2.2
    let id := fun (l : Nat) => Tok.s (BitVec.ofNat 64 ((t.cnts.2.2 + issuedBelow f l isCopy) % 256))
    let check := fun (i : Instr) (l : Nat) => copyCheck s s.cur.1 t (firedFrame s f (firedOp s f i l)) (firedOp s f i l)
    let turn := fun (i : Instr) (l : Nat) => (firedFrame s f (firedOp s f i l)).turn (firedOp s f i l) = true
    let bad := fun (i : Instr) (l c : Nat) => firedBad s f i (some l) 0x0C
      (n + 512 * c + 65536 * l + if c = 0x73 ∨ c = 0x74 then 2 ^ 21 * (a.toNat % 16) else 0)
    Fires s 0#2 t f ∧ HasTok f 1 n (.s b) ∧ HasTok f 2 n (.v c) ∧
      FreshAt f n (some g.lsid.toNat) ∧ turn (.cpy g) g.lsid.toNat ∧
    check (.cpy g) g.lsid.toNat = none  := by
  let s := streaming (mapped (at5 (.cpy ⟨0x1FF, 1, 0, 0, 0, 0, 1, 2, 0, 0, 31⟩) [(5, .s 0x4000), (133, .s 0x5000), (261, .v 0x00000001000000010000000100000001)]))
  refine ⟨s, th s, fr s, 0x4000, ⟨0x1FF, 1, 0, 0, 0, 0, 1, 2, 0, 0, 31⟩, 0x5000, 0x00000001000000010000000100000001, ?_⟩
  try dsimp only [Fires, HasTok, Arrived, FreshOp, FreshAt, Solo, AtHome, AtVault, HasReg, Untracked, Turn, Quiet, Calm, RoleOk, DistinctWrites, ReadyPlain]
  repeat' apply And.intro
  all_goals first | decide +kernel | exact holdsNothing_of _ _ (by decide +kernel) (by decide +kernel) | exact oldest_of_nil _ (by decide +kernel) | exact ok_of _ _ (by decide +kernel) | exact error_of _ _ (by decide +kernel) | exact forall_of_nil _ _ (by decide +kernel) | exact trivial

theorem witness_cpy_fails :
    ∃ (s : State) (t : Thread) (f : Frame) (a : Word) (g : CpyF) (b : Word) (c : Vec) (x : _),
    HasTok f 0 s.cur.2.2 (.s a) ∧ t.isOldest f.seq = true ∧
    let n := s.cur.2.2
    let id := fun (l : Nat) => Tok.s (BitVec.ofNat 64 ((t.cnts.2.2 + issuedBelow f l isCopy) % 256))
    let check := fun (i : Instr) (l : Nat) => copyCheck s s.cur.1 t (firedFrame s f (firedOp s f i l)) (firedOp s f i l)
    let turn := fun (i : Instr) (l : Nat) => (firedFrame s f (firedOp s f i l)).turn (firedOp s f i l) = true
    let bad := fun (i : Instr) (l c : Nat) => firedBad s f i (some l) 0x0C
      (n + 512 * c + 65536 * l + if c = 0x73 ∨ c = 0x74 then 2 ^ 21 * (a.toNat % 16) else 0)
    Fires s 0#2 t f ∧ HasTok f 1 n (.s b) ∧ HasTok f 2 n (.v c) ∧
      FreshAt f n (some g.lsid.toNat) ∧ turn (.cpy g) g.lsid.toNat ∧
    check (.cpy g) g.lsid.toNat = some x  := by
  let s := streaming (mapped (at5 (.cpy ⟨0x1FF, 1, 0, 0, 0, 0, 1, 2, 0, 0, 31⟩) [(5, .s 0x4000), (133, .s 0x5000), (261, .v 0)]))
  refine ⟨s, th s, fr s, 0x4000, ⟨0x1FF, 1, 0, 0, 0, 0, 1, 2, 0, 0, 31⟩, 0x5000, 0, 0x70, ?_⟩
  try dsimp only [Fires, HasTok, Arrived, FreshOp, FreshAt, Solo, AtHome, AtVault, HasReg, Untracked, Turn, Quiet, Calm, RoleOk, DistinctWrites, ReadyPlain]
  repeat' apply And.intro
  all_goals first | decide +kernel | exact holdsNothing_of _ _ (by decide +kernel) (by decide +kernel) | exact oldest_of_nil _ (by decide +kernel) | exact ok_of _ _ (by decide +kernel) | exact error_of _ _ (by decide +kernel) | exact forall_of_nil _ _ (by decide +kernel) | exact trivial

theorem witness_cpys_fires :
    ∃ (s : State) (t : Thread) (f : Frame) (a : Word) (g : CpysF) (b c : Vec),
    HasTok f 0 s.cur.2.2 (.s a) ∧ t.isOldest f.seq = true ∧
    let n := s.cur.2.2
    let id := fun (l : Nat) => Tok.s (BitVec.ofNat 64 ((t.cnts.2.2 + issuedBelow f l isCopy) % 256))
    let check := fun (i : Instr) (l : Nat) => copyCheck s s.cur.1 t (firedFrame s f (firedOp s f i l)) (firedOp s f i l)
    let turn := fun (i : Instr) (l : Nat) => (firedFrame s f (firedOp s f i l)).turn (firedOp s f i l) = true
    let bad := fun (i : Instr) (l c : Nat) => firedBad s f i (some l) 0x0C
      (n + 512 * c + 65536 * l + if c = 0x73 ∨ c = 0x74 then 2 ^ 21 * (a.toNat % 16) else 0)
    Fires s 0#2 t f ∧ HasTok f 1 n (.v b) ∧ HasTok f 2 n (.v c) ∧
      FreshAt f n (some g.lsid.toNat) ∧ turn (.cpys g) g.lsid.toNat ∧
    check (.cpys g) g.lsid.toNat = none ∧
        (∀ m ∈ branchClus (.v c), ∃ p, mapAt s (cluOf s.cur.1) t.ctx m = .ok p) ∧ (s.clu (cluOf s.cur.1)).mapc = [] := by
  let s := streaming (mapped (at5 (.cpys ⟨0x1FF, 1, 1, 2, 0, 0, 31⟩) [(5, .s 0x4000), (133, .v tiling), (261, .v ring)]))
  refine ⟨s, th s, fr s, 0x4000, ⟨0x1FF, 1, 1, 2, 0, 0, 31⟩, tiling, ring, ?_⟩
  try dsimp only [Fires, HasTok, Arrived, FreshOp, FreshAt, Solo, AtHome, AtVault, HasReg, Untracked, Turn, Quiet, Calm, RoleOk, DistinctWrites, ReadyPlain]
  repeat' apply And.intro
  all_goals first | exact mapped_all _ _ _ _ (by decide +kernel) | decide +kernel | exact holdsNothing_of _ _ (by decide +kernel) (by decide +kernel) | exact oldest_of_nil _ (by decide +kernel) | exact ok_of _ _ (by decide +kernel) | exact error_of _ _ (by decide +kernel) | exact forall_of_nil _ _ (by decide +kernel) | exact trivial

/-! #### The codes of the copy checks (R379, R384, R386, R387) -/

/-- A tracked copy instruction with LSID 0 and these operands. -/
def copyOp (i : Instr) (a b c : Tok) : Op := Op.mk0 i 5 (some 0) a b c
/-- CPY's counts, all 1 but N0. -/
def counted (n0 : Nat) : Vec := BitVec.ofNat 512 (n0 + 2 ^ 32 + 2 ^ 64 + 2 ^ 96)
/-- CPYS's tiling with one tile of 512 bytes, and a branch of two slots on cluster 0. -/
def tiled : Vec := BitVec.ofNat 512 (2 ^ 256 + 2 ^ 288)

/-- A count of 0, of 2^24 and above; a copy of 2^16 and of 2^16 + 8 bytes to the port window and one elsewhere; a tiling that is valid
and one with no tile; entries 15 and 16, free, full, with nothing to free, closing, and of another context. -/
theorem witness_copy_codes :
    (∃ (g : CpyF) (o : Op), o.i = .cpy g ∧ o.c.vec.toNat / 2 ^ (32 * 0) % 2 ^ 32 = 0) ∧
    (∃ (g : CpyF) (o : Op), o.i = .cpy g ∧ o.c.vec.toNat / 2 ^ (32 * 0) % 2 ^ 32 = 2 ^ 24 ∧ (∀ d < 4, 1 ≤ d → o.c.vec.toNat / 2 ^ (32 * d) % 2 ^ 32 = 1) ∧
      o.b.word.toNat / 2 ^ 56 ≠ 0xF2) ∧
    (∃ (g : CpyF) (o : Op), o.i = .cpy g ∧ 2 ^ 24 < o.c.vec.toNat / 2 ^ (32 * 0) % 2 ^ 32) ∧
    (∃ (g : CpyF) (o : Op), o.i = .cpy g ∧ g.cv = 0#1 ∧ o.b.word.toNat / 2 ^ 56 = 0xF2 ∧ o.b.word.toNat % 2 ^ 17 = 0 ∧
      o.c.vec = counted 65536) ∧
    (∃ (g : CpyF) (o : Op), o.i = .cpy g ∧ o.b.word.toNat / 2 ^ 56 = 0xF2 ∧ o.c.vec = counted 65544 ∧ 65536 < 65544) ∧
    (∃ (g : CpysF) (o : Op), o.i = .cpys g ∧ o.b.vec = tiled ∧ o.c.vec = ring) ∧
    (∃ (g : CpysF) (o : Op), o.i = .cpys g ∧ o.b.vec.toNat / 2 ^ (64 * 4) % 2 ^ 64 = 0) ∧
    (∃ (s : State) (g g' : LsF) (o o' : Op), o.i = .stclose g ∧ o'.i = .stfree g' ∧ o.a.word.toNat = 16 ∧ o'.a.word.toNat = 15 ∧
      tget (s.clu 0).stab 15 = none) ∧
    (∃ (s : State) (e : SEnt), tget (s.clu 0).stab 15 = some e ∧ e.ctx = 0 ∧ e.st = 1 ∧ e.c ≠ e.f ∧ e.c < 2 ^ 32 ∧ e.f < 2 ^ 32) ∧
    (∃ (s : State) (e : SEnt), tget (s.clu 0).stab 15 = some e ∧ e.ctx = 0 ∧ e.st = 1 ∧ e.c = e.f ∧ e.c < 2 ^ 32) ∧
    (∃ (s : State) (e : SEnt), tget (s.clu 0).stab 15 = some e ∧ e.ctx = 0 ∧ e.st ≠ 1) := by
  let cp := fun (b : Word) (n : Nat) => copyOp (.cpy cpyForm) (.s 0x4000) (.s b) (.v (counted n))
  let put := fun (e : SEnt) => State.reset.modClu 0 fun c => { c with stab := [(15, e)] }
  let op : SEnt := { entry with st := 1 }
  refine ⟨⟨cpyForm, cp 0 0, ?_⟩, ⟨cpyForm, cp 0x5000 (2 ^ 24), ?_⟩, ⟨cpyForm, cp 0 (2 ^ 24 + 1), ?_⟩,
    ⟨cpyForm, cp 0xF200000000000000 65536, ?_⟩, ⟨cpyForm, cp 0xF200000000000000 65544, ?_⟩,
    ⟨cpysForm, copyOp (.cpys cpysForm) (.s 0) (.v tiled) (.v ring), ?_⟩, ⟨cpysForm, copyOp (.cpys cpysForm) (.s 0) (.v 0) (.v ring), ?_⟩,
    ⟨State.reset, ⟨0, 31⟩, ⟨0, 31⟩, copyOp (.stclose ⟨0, 31⟩) (.s 16) .null .null, copyOp (.stfree ⟨0, 31⟩) (.s 15) .null .null, ?_⟩,
    ⟨put { op with c := 1, f := 0 }, { op with c := 1, f := 0 }, ?_⟩, ⟨put { op with c := 0xFFFFFFFF, f := 0xFFFFFFFF }, { op with c := 0xFFFFFFFF, f := 0xFFFFFFFF }, ?_⟩,
    ⟨put { op with st := 2 }, { op with st := 2 }, ?_⟩⟩ <;>
  · repeat' apply And.intro
    all_goals decide +kernel

theorem witness_cpys_fails :
    ∃ (s : State) (t : Thread) (f : Frame) (a : Word) (g : CpysF) (b c : Vec) (x : _),
    HasTok f 0 s.cur.2.2 (.s a) ∧ t.isOldest f.seq = true ∧
    let n := s.cur.2.2
    let id := fun (l : Nat) => Tok.s (BitVec.ofNat 64 ((t.cnts.2.2 + issuedBelow f l isCopy) % 256))
    let check := fun (i : Instr) (l : Nat) => copyCheck s s.cur.1 t (firedFrame s f (firedOp s f i l)) (firedOp s f i l)
    let turn := fun (i : Instr) (l : Nat) => (firedFrame s f (firedOp s f i l)).turn (firedOp s f i l) = true
    let bad := fun (i : Instr) (l c : Nat) => firedBad s f i (some l) 0x0C
      (n + 512 * c + 65536 * l + if c = 0x73 ∨ c = 0x74 then 2 ^ 21 * (a.toNat % 16) else 0)
    Fires s 0#2 t f ∧ HasTok f 1 n (.v b) ∧ HasTok f 2 n (.v c) ∧
      FreshAt f n (some g.lsid.toNat) ∧ turn (.cpys g) g.lsid.toNat ∧
    check (.cpys g) g.lsid.toNat = some x  := by
  let s := streaming (mapped (at5 (.cpys ⟨0x1FF, 1, 1, 2, 0, 0, 31⟩) [(5, .s 0x4000), (133, .v tiling), (261, .v 0)]))
  refine ⟨s, th s, fr s, 0x4000, ⟨0x1FF, 1, 1, 2, 0, 0, 31⟩, tiling, 0, 0x72, ?_⟩
  try dsimp only [Fires, HasTok, Arrived, FreshOp, FreshAt, Solo, AtHome, AtVault, HasReg, Untracked, Turn, Quiet, Calm, RoleOk, DistinctWrites, ReadyPlain]
  repeat' apply And.intro
  all_goals first | decide +kernel | exact holdsNothing_of _ _ (by decide +kernel) (by decide +kernel) | exact oldest_of_nil _ (by decide +kernel) | exact ok_of _ _ (by decide +kernel) | exact error_of _ _ (by decide +kernel) | exact forall_of_nil _ _ (by decide +kernel) | exact trivial

theorem witness_stclose :
    ∃ (s : State) (t : Thread) (f : Frame) (a : Word) (g : LsF),
    HasTok f 0 s.cur.2.2 (.s a) ∧ t.isOldest f.seq = true ∧
    let n := s.cur.2.2
    let id := fun (l : Nat) => Tok.s (BitVec.ofNat 64 ((t.cnts.2.2 + issuedBelow f l isCopy) % 256))
    let check := fun (i : Instr) (l : Nat) => copyCheck s s.cur.1 t (firedFrame s f (firedOp s f i l)) (firedOp s f i l)
    let turn := fun (i : Instr) (l : Nat) => (firedFrame s f (firedOp s f i l)).turn (firedOp s f i l) = true
    let bad := fun (i : Instr) (l c : Nat) => firedBad s f i (some l) 0x0C
      (n + 512 * c + 65536 * l + if c = 0x73 ∨ c = 0x74 then 2 ^ 21 * (a.toNat % 16) else 0)
    Fires s g.p t f ∧ FreshAt f n (some g.lsid.toNat) ∧
    turn (.stclose g) g.lsid.toNat ∧
    check (.stclose g) g.lsid.toNat = none  := by
  let s := streaming (mapped (at5 (.stclose ⟨0, 31⟩) [(5, .s 15)]))
  refine ⟨s, th s, fr s, 15, ⟨0, 31⟩, ?_⟩
  try dsimp only [Fires, HasTok, Arrived, FreshOp, FreshAt, Solo, AtHome, AtVault, HasReg, Untracked, Turn, Quiet, Calm, RoleOk, DistinctWrites, ReadyPlain]
  repeat' apply And.intro
  all_goals first | decide +kernel | exact holdsNothing_of _ _ (by decide +kernel) (by decide +kernel) | exact oldest_of_nil _ (by decide +kernel) | exact ok_of _ _ (by decide +kernel) | exact error_of _ _ (by decide +kernel) | exact forall_of_nil _ _ (by decide +kernel) | exact trivial

theorem witness_stclose_beyond :
    ∃ (s : State) (t : Thread) (f : Frame) (a : Word) (g : LsF),
    HasTok f 0 s.cur.2.2 (.s a) ∧ t.isOldest f.seq = true ∧
    let n := s.cur.2.2
    let id := fun (l : Nat) => Tok.s (BitVec.ofNat 64 ((t.cnts.2.2 + issuedBelow f l isCopy) % 256))
    let check := fun (i : Instr) (l : Nat) => copyCheck s s.cur.1 t (firedFrame s f (firedOp s f i l)) (firedOp s f i l)
    let turn := fun (i : Instr) (l : Nat) => (firedFrame s f (firedOp s f i l)).turn (firedOp s f i l) = true
    let bad := fun (i : Instr) (l c : Nat) => firedBad s f i (some l) 0x0C
      (n + 512 * c + 65536 * l + if c = 0x73 ∨ c = 0x74 then 2 ^ 21 * (a.toNat % 16) else 0)
    Fires s g.p t f ∧ FreshAt f n (some g.lsid.toNat) ∧
    turn (.stclose g) g.lsid.toNat ∧
    16 ≤ a.toNat  := by
  let s := streaming (mapped (at5 (.stclose ⟨0, 31⟩) [(5, .s 16)]))
  refine ⟨s, th s, fr s, 16, ⟨0, 31⟩, ?_⟩
  try dsimp only [Fires, HasTok, Arrived, FreshOp, FreshAt, Solo, AtHome, AtVault, HasReg, Untracked, Turn, Quiet, Calm, RoleOk, DistinctWrites, ReadyPlain]
  repeat' apply And.intro
  all_goals first | decide +kernel | exact holdsNothing_of _ _ (by decide +kernel) (by decide +kernel) | exact oldest_of_nil _ (by decide +kernel) | exact ok_of _ _ (by decide +kernel) | exact error_of _ _ (by decide +kernel) | exact forall_of_nil _ _ (by decide +kernel) | exact trivial

theorem witness_stclose_absent :
    ∃ (s : State) (t : Thread) (f : Frame) (a : Word) (g : LsF),
    HasTok f 0 s.cur.2.2 (.s a) ∧ t.isOldest f.seq = true ∧
    let n := s.cur.2.2
    let id := fun (l : Nat) => Tok.s (BitVec.ofNat 64 ((t.cnts.2.2 + issuedBelow f l isCopy) % 256))
    let check := fun (i : Instr) (l : Nat) => copyCheck s s.cur.1 t (firedFrame s f (firedOp s f i l)) (firedOp s f i l)
    let turn := fun (i : Instr) (l : Nat) => (firedFrame s f (firedOp s f i l)).turn (firedOp s f i l) = true
    let bad := fun (i : Instr) (l c : Nat) => firedBad s f i (some l) 0x0C
      (n + 512 * c + 65536 * l + if c = 0x73 ∨ c = 0x74 then 2 ^ 21 * (a.toNat % 16) else 0)
    Fires s g.p t f ∧ FreshAt f n (some g.lsid.toNat) ∧
    turn (.stclose g) g.lsid.toNat ∧
    a.toNat < 16 ∧ tget (s.clu (cluOf s.cur.1)).stab a.toNat = none  := by
  let s := streaming (mapped (at5 (.stclose ⟨0, 31⟩) [(5, .s 14)]))
  refine ⟨s, th s, fr s, 14, ⟨0, 31⟩, ?_⟩
  try dsimp only [Fires, HasTok, Arrived, FreshOp, FreshAt, Solo, AtHome, AtVault, HasReg, Untracked, Turn, Quiet, Calm, RoleOk, DistinctWrites, ReadyPlain]
  repeat' apply And.intro
  all_goals first | decide +kernel | exact holdsNothing_of _ _ (by decide +kernel) (by decide +kernel) | exact oldest_of_nil _ (by decide +kernel) | exact ok_of _ _ (by decide +kernel) | exact error_of _ _ (by decide +kernel) | exact forall_of_nil _ _ (by decide +kernel) | exact trivial

theorem witness_stfree :
    ∃ (s : State) (t : Thread) (f : Frame) (a : Word) (g : LsF),
    HasTok f 0 s.cur.2.2 (.s a) ∧ t.isOldest f.seq = true ∧
    let n := s.cur.2.2
    let id := fun (l : Nat) => Tok.s (BitVec.ofNat 64 ((t.cnts.2.2 + issuedBelow f l isCopy) % 256))
    let check := fun (i : Instr) (l : Nat) => copyCheck s s.cur.1 t (firedFrame s f (firedOp s f i l)) (firedOp s f i l)
    let turn := fun (i : Instr) (l : Nat) => (firedFrame s f (firedOp s f i l)).turn (firedOp s f i l) = true
    let bad := fun (i : Instr) (l c : Nat) => firedBad s f i (some l) 0x0C
      (n + 512 * c + 65536 * l + if c = 0x73 ∨ c = 0x74 then 2 ^ 21 * (a.toNat % 16) else 0)
    Fires s g.p t f ∧ FreshAt f n (some g.lsid.toNat) ∧
    turn (.stfree g) g.lsid.toNat ∧
    check (.stfree g) g.lsid.toNat = none  := by
  let s := streaming (mapped (at5 (.stfree ⟨0, 31⟩) [(5, .s 15)]))
  refine ⟨s, th s, fr s, 15, ⟨0, 31⟩, ?_⟩
  try dsimp only [Fires, HasTok, Arrived, FreshOp, FreshAt, Solo, AtHome, AtVault, HasReg, Untracked, Turn, Quiet, Calm, RoleOk, DistinctWrites, ReadyPlain]
  repeat' apply And.intro
  all_goals first | decide +kernel | exact holdsNothing_of _ _ (by decide +kernel) (by decide +kernel) | exact oldest_of_nil _ (by decide +kernel) | exact ok_of _ _ (by decide +kernel) | exact error_of _ _ (by decide +kernel) | exact forall_of_nil _ _ (by decide +kernel) | exact trivial

theorem witness_stfree_fails :
    ∃ (s : State) (t : Thread) (f : Frame) (a : Word) (g : LsF) (x : _),
    HasTok f 0 s.cur.2.2 (.s a) ∧ t.isOldest f.seq = true ∧
    let n := s.cur.2.2
    let id := fun (l : Nat) => Tok.s (BitVec.ofNat 64 ((t.cnts.2.2 + issuedBelow f l isCopy) % 256))
    let check := fun (i : Instr) (l : Nat) => copyCheck s s.cur.1 t (firedFrame s f (firedOp s f i l)) (firedOp s f i l)
    let turn := fun (i : Instr) (l : Nat) => (firedFrame s f (firedOp s f i l)).turn (firedOp s f i l) = true
    let bad := fun (i : Instr) (l c : Nat) => firedBad s f i (some l) 0x0C
      (n + 512 * c + 65536 * l + if c = 0x73 ∨ c = 0x74 then 2 ^ 21 * (a.toNat % 16) else 0)
    Fires s g.p t f ∧ FreshAt f n (some g.lsid.toNat) ∧
    turn (.stfree g) g.lsid.toNat ∧
    check (.stfree g) g.lsid.toNat = some x  := by
  let s := streaming (mapped (at5 (.stfree ⟨0, 31⟩) [(5, .s 14)]))
  refine ⟨s, th s, fr s, 14, ⟨0, 31⟩, 0x73, ?_⟩
  try dsimp only [Fires, HasTok, Arrived, FreshOp, FreshAt, Solo, AtHome, AtVault, HasReg, Untracked, Turn, Quiet, Calm, RoleOk, DistinctWrites, ReadyPlain]
  repeat' apply And.intro
  all_goals first | decide +kernel | exact holdsNothing_of _ _ (by decide +kernel) (by decide +kernel) | exact oldest_of_nil _ (by decide +kernel) | exact ok_of _ _ (by decide +kernel) | exact error_of _ _ (by decide +kernel) | exact forall_of_nil _ _ (by decide +kernel) | exact trivial

theorem witness_stq_0 :
    ∃ (s : State) (t : Thread) (f : Frame) (a : Word) (g : StqF) (e : SEnt),
    HasTok f 0 s.cur.2.2 (.s a) ∧ t.isOldest f.seq = true ∧
    let n := s.cur.2.2
    let id := fun (l : Nat) => Tok.s (BitVec.ofNat 64 ((t.cnts.2.2 + issuedBelow f l isCopy) % 256))
    let check := fun (i : Instr) (l : Nat) => copyCheck s s.cur.1 t (firedFrame s f (firedOp s f i l)) (firedOp s f i l)
    let turn := fun (i : Instr) (l : Nat) => (firedFrame s f (firedOp s f i l)).turn (firedOp s f i l) = true
    let bad := fun (i : Instr) (l c : Nat) => firedBad s f i (some l) 0x0C
      (n + 512 * c + 65536 * l + if c = 0x73 ∨ c = 0x74 then 2 ^ 21 * (a.toNat % 16) else 0)
    Fires s g.p t f ∧ FreshAt f n none ∧ a.toNat < 16 ∧
      tget (s.clu (cluOf s.cur.1)).stab a.toNat = some e ∧ e.ctx = t.ctx  := by
  let s := streaming (mapped (at5 (.stq ⟨0, 0x1FF, 1, 0⟩) [(5, .s 15)]))
  refine ⟨s, th s, fr s, 15, ⟨0, 0x1FF, 1, 0⟩, entry, ?_⟩
  try dsimp only [Fires, HasTok, Arrived, FreshOp, FreshAt, Solo, AtHome, AtVault, HasReg, Untracked, Turn, Quiet, Calm, RoleOk, DistinctWrites, ReadyPlain]
  repeat' apply And.intro
  all_goals first | decide +kernel | exact holdsNothing_of _ _ (by decide +kernel) (by decide +kernel) | exact oldest_of_nil _ (by decide +kernel) | exact ok_of _ _ (by decide +kernel) | exact error_of _ _ (by decide +kernel) | exact forall_of_nil _ _ (by decide +kernel) | exact trivial

theorem witness_stq_1 :
    ∃ (s : State) (t : Thread) (f : Frame) (a : Word) (g : StqF) (e : SEnt),
    HasTok f 0 s.cur.2.2 (.s a) ∧ t.isOldest f.seq = true ∧
    let n := s.cur.2.2
    let id := fun (l : Nat) => Tok.s (BitVec.ofNat 64 ((t.cnts.2.2 + issuedBelow f l isCopy) % 256))
    let check := fun (i : Instr) (l : Nat) => copyCheck s s.cur.1 t (firedFrame s f (firedOp s f i l)) (firedOp s f i l)
    let turn := fun (i : Instr) (l : Nat) => (firedFrame s f (firedOp s f i l)).turn (firedOp s f i l) = true
    let bad := fun (i : Instr) (l c : Nat) => firedBad s f i (some l) 0x0C
      (n + 512 * c + 65536 * l + if c = 0x73 ∨ c = 0x74 then 2 ^ 21 * (a.toNat % 16) else 0)
    Fires s g.p t f ∧ FreshAt f n none ∧ a.toNat < 16 ∧
      tget (s.clu (cluOf s.cur.1)).stab a.toNat = some e ∧ e.ctx = t.ctx  := by
  let s := streaming (mapped (at5 (.stq ⟨0, 0x1FF, 1, 1⟩) [(5, .s 15)]))
  refine ⟨s, th s, fr s, 15, ⟨0, 0x1FF, 1, 1⟩, entry, ?_⟩
  try dsimp only [Fires, HasTok, Arrived, FreshOp, FreshAt, Solo, AtHome, AtVault, HasReg, Untracked, Turn, Quiet, Calm, RoleOk, DistinctWrites, ReadyPlain]
  repeat' apply And.intro
  all_goals first | decide +kernel | exact holdsNothing_of _ _ (by decide +kernel) (by decide +kernel) | exact oldest_of_nil _ (by decide +kernel) | exact ok_of _ _ (by decide +kernel) | exact error_of _ _ (by decide +kernel) | exact forall_of_nil _ _ (by decide +kernel) | exact trivial

theorem witness_stq_3 :
    ∃ (s : State) (t : Thread) (f : Frame) (a : Word) (g : StqF) (e : SEnt),
    HasTok f 0 s.cur.2.2 (.s a) ∧ t.isOldest f.seq = true ∧
    let n := s.cur.2.2
    let id := fun (l : Nat) => Tok.s (BitVec.ofNat 64 ((t.cnts.2.2 + issuedBelow f l isCopy) % 256))
    let check := fun (i : Instr) (l : Nat) => copyCheck s s.cur.1 t (firedFrame s f (firedOp s f i l)) (firedOp s f i l)
    let turn := fun (i : Instr) (l : Nat) => (firedFrame s f (firedOp s f i l)).turn (firedOp s f i l) = true
    let bad := fun (i : Instr) (l c : Nat) => firedBad s f i (some l) 0x0C
      (n + 512 * c + 65536 * l + if c = 0x73 ∨ c = 0x74 then 2 ^ 21 * (a.toNat % 16) else 0)
    Fires s g.p t f ∧ FreshAt f n none ∧ a.toNat < 16 ∧
      tget (s.clu (cluOf s.cur.1)).stab a.toNat = some e ∧ e.ctx = t.ctx  := by
  let s := streaming (mapped (at5 (.stq ⟨0, 0x1FF, 1, 3⟩) [(5, .s 15)]))
  refine ⟨s, th s, fr s, 15, ⟨0, 0x1FF, 1, 3⟩, entry, ?_⟩
  try dsimp only [Fires, HasTok, Arrived, FreshOp, FreshAt, Solo, AtHome, AtVault, HasReg, Untracked, Turn, Quiet, Calm, RoleOk, DistinctWrites, ReadyPlain]
  repeat' apply And.intro
  all_goals first | decide +kernel | exact holdsNothing_of _ _ (by decide +kernel) (by decide +kernel) | exact oldest_of_nil _ (by decide +kernel) | exact ok_of _ _ (by decide +kernel) | exact error_of _ _ (by decide +kernel) | exact forall_of_nil _ _ (by decide +kernel) | exact trivial

theorem witness_cpy_starts :
    ∃ (clu : Nat) (s : State) (j : CCmd) (g : CpyF),
    (s.clu clu).copyQ = [j] ∧ j.i = .cpy g ∧ (s.clu clu).jobs = [] ∧
    (s.clu clu).moves = [] ∧ (s.clu clu).fab.q = [] ∧ (s.clu clu).streams = [] ∧ 0 < (s.clu clu).bucket ∧
    j.eng.st = 0  := by
  let s := copying (cpyCmd 0) State.reset
  refine ⟨0, s, cpyCmd 0, cpyForm, ?_⟩
  repeat' apply And.intro
  all_goals decide +kernel

theorem witness_cpy_pays :
    ∃ (clu : Nat) (s : State) (j : CCmd) (g : CpyF),
    (s.clu clu).copyQ = [j] ∧ j.i = .cpy g ∧ (s.clu clu).jobs = [] ∧
    (s.clu clu).moves = [] ∧ (s.clu clu).fab.q = [] ∧ (s.clu clu).streams = [] ∧ 0 < (s.clu clu).bucket ∧
    j.eng.st = 3 ∧ j.eng.out = [] ∧ j.portions * 32768 < cpyBytes j ∧
    (∀ d ∈ j.eng.segs, d.dst = false → d.st = 0 → paid j g d = false)  := by
  let s := copying (cpyCmd 3) State.reset
  refine ⟨0, s, cpyCmd 3, cpyForm, ?_⟩
  repeat' apply And.intro
  all_goals decide +kernel

theorem witness_cpy_writes :
    ∃ (clu : Nat) (s : State) (j : CCmd) (g : CpyF) (x d : Seg),
    (s.clu clu).copyQ = [j] ∧ j.i = .cpy g ∧ g.cv = 0#1 ∧
    toWindow j.b.word = false ∧ j.eng.st = 3 ∧ j.eng.out = [] ∧ j.eng.segs = [x, d] ∧ x.dst = false ∧ d.dst = true ∧
    x.st = 1 ∧ x.off = 0 ∧ d.off = 0 ∧ x.len = d.len ∧ x.data.length = x.len ∧ x.poison = 0 ∧
    d.pa % 64 + d.len ≤ 64 ∧ 0 < d.len  := by
  let s := copying copied State.reset
  refine ⟨0, s, copied, cpyForm, srcSeg, dstSeg, ?_⟩
  repeat' apply And.intro
  all_goals decide +kernel

theorem witness_cpy_completes :
    ∃ (clu k : Nat) (s : State) (j : CCmd) (g : CpyF) (t : Thread),
    (s.clu clu).copyQ = [j] ∧ (s.clu clu).streams = [] ∧
    j.i = .cpy g ∧ g.ntf = 0#1 ∧ toWindow j.b.word = false ∧ j.eng.st = 5 ∧ j.eng.out = [] ∧ s.holds = [] ∧ j.cap.id < 256 ∧
    s.thrs = [(k, t)] ∧ j.cap.uid = t.ser ∧ (∀ c, j.eng.xf = some c → c < 16)  := by
  let s := copying failedCpy (at5 (.cpy cpyForm) [])
  refine ⟨0, 0, s, failedCpy, cpyForm, th s, ?_⟩
  repeat' apply And.intro
  all_goals decide +kernel

theorem witness_stream_opens :
    ∃ (clu : Nat) (s : State) (j : CCmd) (g : CpysF) (b : Branch) (i r : Nat),
    (s.clu clu).copyQ = [j] ∧ j.i = .cpys g ∧
    j.eng.st = 0 ∧ branchesOf j.c = [(i, r)] ∧ openBranches s clu j = some [b] ∧ s.queues = [] ∧ b.clu < 1024 ∧
    (∀ v ∈ b.vaults, v < 1024) ∧ s.resvs = [] ∧
    tget (s.clu b.clu).stab b.ent = none ∧ (s.clu clu).streams = [] ∧ s.holds = [] ∧
      (∀ v ∈ b.vaults, brEnd (cpysZ j.b) r ≤ 2 ^ 23 - 128 * (s.clu v).kennel.size)  := by
  let s := copying cpysCmd (mapped (at5 (.cpys cpysForm) []))
  refine ⟨0, s, cpysCmd, cpysForm, branch0, 0, 33, ?_⟩
  repeat' apply And.intro
  all_goals decide +kernel

theorem witness_stream_taken :
    ∃ (clu : Nat) (s : State) (j : CCmd) (g : CpysF) (b : Branch) (i r : Nat),
    (s.clu clu).copyQ = [j] ∧ j.i = .cpys g ∧
    j.eng.st = 0 ∧ branchesOf j.c = [(i, r)] ∧ openBranches s clu j = some [b] ∧ s.queues = [] ∧ b.clu < 1024 ∧
    (∀ v ∈ b.vaults, v < 1024) ∧ s.resvs = [] ∧
    tget (s.clu b.clu).stab b.ent ≠ none ∧ (s.clu clu).streams.length < 3 := by
  let s := taking (copying cpysCmd (mapped (at5 (.cpys cpysForm) [])))
  refine ⟨0, s, cpysCmd, cpysForm, branch0, 0, 33, ?_⟩
  repeat' apply And.intro
  all_goals decide +kernel

theorem witness_tile_read :
    ∃ (clu : Nat) (s : State) (x : Stream),
    (s.clu clu).streams = [x] ∧ x.cmd.eng.st = 3 ∧ x.cmd.eng.out = [] ∧
    (∀ d ∈ x.cmd.eng.segs, d.st = 1 ∧ d.dst = false ∧ d.poison = 0) ∧ x.closing = false  := by
  let s := producing stream3 (mapped State.reset)
  refine ⟨0, s, stream3, ?_⟩
  repeat' apply And.intro
  all_goals decide +kernel

theorem witness_tile_starts :
    ∃ (clu : Nat) (s : State) (x : Stream) (b : Branch) (z : Tile),
    (s.clu clu).streams = [x] ∧ x.branches = [b] ∧
    x.staging = [z] ∧ z.t = b.w ∧ b.clu < 1024 ∧
    (∀ v ∈ b.vaults, v < 1024) ∧ b.w - b.f < b.s ∧ x.closing = false ∧ (s.clu clu).copyQ = [] ∧ (s.clu clu).jobs = [] ∧
    (s.clu clu).moves = [] ∧ (s.clu clu).fab.q = [] ∧ 0 < (s.clu clu).bucket  := by
  let s := producing staged (mapped State.reset)
  refine ⟨0, s, staged, branch0, tile0, ?_⟩
  repeat' apply And.intro
  all_goals decide +kernel

theorem witness_start_notice :
    ∃ (n clu : Nat) (s : State) (m : Msg) (e : SEnt),
    s.net = [(n, m)] ∧ m.kind = .startNotice ∧ m.node = 9 + clu ∧
    tget (s.clu clu).stab m.par = some e ∧ e.ctx = m.ctx ∧ (s.ctx m.ctx).gen = m.gen  := by
  let s := noticing .startNotice 15 (streaming (mapped State.reset))
  refine ⟨0, 0, s, noticeMsg .startNotice 15, entry, ?_⟩
  repeat' apply And.intro
  all_goals decide +kernel

theorem witness_tile_completes :
    ∃ (clu : Nat) (s : State) (x : Stream) (b : Branch) (z : Tile) (e : SEnt),
    (s.clu clu).streams = [x] ∧
    x.branches = [b] ∧ b.run = [(2, z)] ∧ b.port = none ∧ b.clu < 1024 ∧
    (∀ v ∈ b.vaults, v < 1024) ∧ tget (s.clu b.clu).stab b.ent = some e ∧ s.queues = []  := by
  let s := producing landed (streaming (mapped State.reset))
  refine ⟨0, s, landed, { branch0 with ent := 15, w := 1, run := [(2, tile0)] }, tile0, entry, ?_⟩
  repeat' apply And.intro
  all_goals decide +kernel

theorem witness_freed_notice :
    ∃ (n clu : Nat) (s : State) (m : Msg) (x : Stream) (b : Branch),
    s.net = [(n, m)] ∧ m.node = 9 + clu ∧
    (s.clu clu).streams = [x] ∧ x.branches = [b] ∧ m.par = x.cmd.place ∧ m.port = 0 ∧ m.arg < 2 ^ 32 ∧
    m.kind = .freedNotice  := by
  let s := noticing .freedNotice 0 (producing landed (mapped State.reset))
  refine ⟨0, 0, s, noticeMsg .freedNotice 0, landed, { branch0 with ent := 15, w := 1, run := [(2, tile0)] }, ?_⟩
  repeat' apply And.intro
  all_goals decide +kernel

theorem witness_close_notice :
    ∃ (n clu : Nat) (s : State) (m : Msg) (x : Stream) (b : Branch),
    s.net = [(n, m)] ∧ m.node = 9 + clu ∧
    (s.clu clu).streams = [x] ∧ x.branches = [b] ∧ m.par = x.cmd.place ∧ m.port = 0 ∧ m.arg < 2 ^ 32 ∧
    m.kind = .closeNotice  := by
  let s := noticing .closeNotice 0 (producing landed (mapped State.reset))
  refine ⟨0, 0, s, noticeMsg .closeNotice 0, landed, { branch0 with ent := 15, w := 1, run := [(2, tile0)] }, ?_⟩
  repeat' apply And.intro
  all_goals decide +kernel

/-! ### Ports, patterns, threads and packs -/

/-- A port of context 0, enabled and open. -/
def port63 : Port := { Port.reset with owner := 0, en := true, open_ := true }
/-- A pattern of context 0 on port 63, for grid 0, its target 0x2000. -/
def pat31 : Pat := { Pat.reset with owner := 0, en := true, mask := 0x8000000000000000, ctl := 0x10000, target := 0x2000 }
/-- Port 63 and pattern 31 of cluster 0 are context 0's, which has one handler entry. -/
def ported (s : State) : State :=
  (s.modClu 0 fun c => { c with ports := [(63, port63)], pats := [(31, pat31)] }).modCtx 0 fun c =>
    { c with words := [0, 0, 0, 0, 1, 0, 0, 1] }


/-- A message of one word. -/
def pmsg : PMsg := ⟨[11], 0xFFFF, true, 0x7FF, 0⟩
/-- A request to a port of cluster 0 from slot 5 of block 0 of thread 0. -/
def reqMsg (p : Nat) : Msg := { Msg.mk0 .grantReq (.acc 0 0 5 0) with node := 9, port := p, pm := some pmsg }
/-- It is the only message. -/
def requesting (p : Nat) (s : State) : State := { s with net := [(0, reqMsg p)] }
/-- Port 63 holds eight messages, under a policy. -/
def brimming (pol : Nat) (s : State) : State :=
  s.modClu 0 fun c => { c with ports := [(63, { port63 with pol := pol, res := List.replicate 8 pmsg })] }
/-- An instruction that has asked for something. -/
def askedOp (i : Instr) : Op := { Op.mk0 i 5 (some 31) (.s 0x80) (.s 7) (.s 0x200000200) with stage := 2, aux := 1 }
/-- The message has come, of a kind and with a value of 2, for the instruction at slot 5. -/
def answering (m : Msg) (k : MKind) (i : Instr) (s : State) : State :=
  { onFr s fun f => { f with fired := [5], ops := [askedOp i] } with net := [(0, { m with kind := k, sub := 2 })], fresh := 1 }
/-- A message of a SPAWN at slot 5 to cluster 0. -/
def spawnMsg : Msg := { Msg.mk0 .spawnReq (.acc 0 0 5 0) with node := 9 }
/-- A spawn request of thread 0 for grid 0, with what it has been granted. -/
def spawn0 (got : List Nat) : Spawn := ⟨0, 0, 0x2000, 7, 0x200000100, false, 0, 0, 5, Spec.reset, got, true, Sig.empty⟩
/-- It is the only one at cluster 0's allocator. -/
def spawning (got : List Nat) (s : State) : State := s.modClu 0 fun c => { c with spawns := [(0, spawn0 got)] }
/-- Some requests wait, and the grids are full. -/
def waiters (n : Nat) (s : State) : State :=
  { s.modClu 0 fun c => { c with spawns := (List.range n).map fun i => (i, spawn0 []), nextSpawn := n } with
    thrs := s.thrs ++ (List.range 31).map fun i => (i + 1, Thread.reset) }
/-- A handler is about to begin at thread 0. -/
def handled (s : State) : State :=
  { s.modClu 0 fun c => { c with handlers := [⟨0, Sig.empty⟩] } with thrs := [(0, Thread.reset)] }
/-- A thread with number 7. -/
def leader7 : Thread := { Thread.reset with run := true, spec := { Spec.reset with thid := 7 } }
/-- It runs on grid 1. -/
def led (s : State) : State := { s with thrs := [(4, leader7), (0, th s)] }

theorem witness_send :
    ∃ (s : State) (t : Thread) (f : Frame) (a : Word) (g : SendF) (b : Tok),
    HasTok f 0 s.cur.2.2 (.s a) ∧ t.isOldest f.seq = true ∧
    let n := s.cur.2.2
    let clu := cluOf s.cur.1
    Fires s g.p t f ∧ HasTok f 1 n b ∧ b ≠ .null ∧ FreshAt f n (some g.lsid.toNat) ∧
    (firedFrame s f (firedOp s f (.send g) g.lsid.toNat)).turn (firedOp s f (.send g) g.lsid.toNat) = true ∧
      let words := if g.v = 1#1 then (List.range (g.wcm1.toNat + 1)).map fun j => bits b.vec (64 * j) 64 else [b.word]
    a.toNat / 64 % 2 ^ 10 = 0 ∧ a.toNat < 2 ^ 48 ∧
    a.toNat < 2 ^ 32  ∧
    mapAt s clu t.ctx (a.toNat / 2 ^ 16 % 2 ^ 16) = .ok (s.mod.pkg, 0) := by
  let s := ported (mapped (at5 (.send ⟨0, 0x1FF, 1, 2, 7, 1, 31⟩) [(5, .s 63), (133, .v 1)]))
  refine ⟨s, th s, fr s, 63, ⟨0, 0x1FF, 1, 2, 7, 1, 31⟩, .v 1, ?_⟩
  try dsimp only [Fires, HasTok, Arrived, FreshOp, FreshAt, Solo, AtHome, AtVault, HasReg, Untracked, Turn, Quiet, Calm, RoleOk, DistinctWrites, ReadyPlain]
  repeat' apply And.intro
  all_goals first | decide +kernel | exact holdsNothing_of _ _ (by decide +kernel) (by decide +kernel) | exact oldest_of_nil _ (by decide +kernel) | exact ok_of _ _ (by decide +kernel) | exact error_of _ _ (by decide +kernel) | exact forall_of_nil _ _ (by decide +kernel) | exact trivial

theorem witness_sendt :
    ∃ (s : State) (t : Thread) (f : Frame) (a : Word) (g : SendF) (b : Tok),
    HasTok f 0 s.cur.2.2 (.s a) ∧ t.isOldest f.seq = true ∧
    let n := s.cur.2.2
    let clu := cluOf s.cur.1
    Fires s g.p t f ∧ HasTok f 1 n b ∧ b ≠ .null ∧ FreshAt f n (some g.lsid.toNat) ∧
    (firedFrame s f (firedOp s f (.sendt g) g.lsid.toNat)).turn (firedOp s f (.sendt g) g.lsid.toNat) = true ∧
      let words := if g.v = 1#1 then (List.range (g.wcm1.toNat + 1)).map fun j => bits b.vec (64 * j) 64 else [b.word]
    a.toNat / 64 % 2 ^ 10 = 0 ∧ a.toNat < 2 ^ 48  ∧
    mapAt s clu t.ctx (a.toNat / 2 ^ 16 % 2 ^ 16) = .ok (s.mod.pkg, 0) := by
  let s := ported (mapped (at5 (.sendt ⟨0, 0x1FF, 1, 2, 7, 1, 31⟩) [(5, .s 0xFFFF0000003F), (133, .v 1)]))
  refine ⟨s, th s, fr s, 0xFFFF0000003F, ⟨0, 0x1FF, 1, 2, 7, 1, 31⟩, .v 1, ?_⟩
  try dsimp only [Fires, HasTok, Arrived, FreshOp, FreshAt, Solo, AtHome, AtVault, HasReg, Untracked, Turn, Quiet, Calm, RoleOk, DistinctWrites, ReadyPlain]
  repeat' apply And.intro
  all_goals first | decide +kernel | exact holdsNothing_of _ _ (by decide +kernel) (by decide +kernel) | exact oldest_of_nil _ (by decide +kernel) | exact ok_of _ _ (by decide +kernel) | exact error_of _ _ (by decide +kernel) | exact forall_of_nil _ _ (by decide +kernel) | exact trivial

theorem witness_send_odd :
    ∃ (s : State) (t : Thread) (f : Frame) (a : Word) (g : SendF) (b : Tok),
    HasTok f 0 s.cur.2.2 (.s a) ∧ t.isOldest f.seq = true ∧
    let n := s.cur.2.2
    let clu := cluOf s.cur.1
    Fires s g.p t f ∧ HasTok f 1 n b ∧ b ≠ .null ∧ FreshAt f n (some g.lsid.toNat) ∧
    (firedFrame s f (firedOp s f (.send g) g.lsid.toNat)).turn (firedOp s f (.send g) g.lsid.toNat) = true ∧
      let words := if g.v = 1#1 then (List.range (g.wcm1.toNat + 1)).map fun j => bits b.vec (64 * j) 64 else [b.word]
    (a.toNat / 64 % 2 ^ 10 ≠ 0 ∨ 2 ^ 48 ≤ a.toNat)  := by
  let s := ported (mapped (at5 (.send ⟨0, 0x1FF, 1, 2, 7, 1, 31⟩) [(5, .s 64), (133, .v 1)]))
  refine ⟨s, th s, fr s, 64, ⟨0, 0x1FF, 1, 2, 7, 1, 31⟩, .v 1, ?_⟩
  try dsimp only [Fires, HasTok, Arrived, FreshOp, FreshAt, Solo, AtHome, AtVault, HasReg, Untracked, Turn, Quiet, Calm, RoleOk, DistinctWrites, ReadyPlain]
  repeat' apply And.intro
  all_goals first | decide +kernel | exact holdsNothing_of _ _ (by decide +kernel) (by decide +kernel) | exact oldest_of_nil _ (by decide +kernel) | exact ok_of _ _ (by decide +kernel) | exact error_of _ _ (by decide +kernel) | exact forall_of_nil _ _ (by decide +kernel) | exact trivial

theorem witness_sendt_odd :
    ∃ (s : State) (t : Thread) (f : Frame) (a : Word) (g : SendF) (b : Tok),
    HasTok f 0 s.cur.2.2 (.s a) ∧ t.isOldest f.seq = true ∧
    let n := s.cur.2.2
    let clu := cluOf s.cur.1
    Fires s g.p t f ∧ HasTok f 1 n b ∧ b ≠ .null ∧ FreshAt f n (some g.lsid.toNat) ∧
    (firedFrame s f (firedOp s f (.sendt g) g.lsid.toNat)).turn (firedOp s f (.sendt g) g.lsid.toNat) = true ∧
      let words := if g.v = 1#1 then (List.range (g.wcm1.toNat + 1)).map fun j => bits b.vec (64 * j) 64 else [b.word]
    (a.toNat / 64 % 2 ^ 10 ≠ 0 ∨ 2 ^ 48 ≤ a.toNat)  := by
  let s := ported (mapped (at5 (.sendt ⟨0, 0x1FF, 1, 2, 7, 1, 31⟩) [(5, .s 0x1000000000000), (133, .v 1)]))
  refine ⟨s, th s, fr s, 0x1000000000000, ⟨0, 0x1FF, 1, 2, 7, 1, 31⟩, .v 1, ?_⟩
  try dsimp only [Fires, HasTok, Arrived, FreshOp, FreshAt, Solo, AtHome, AtVault, HasReg, Untracked, Turn, Quiet, Calm, RoleOk, DistinctWrites, ReadyPlain]
  repeat' apply And.intro
  all_goals first | decide +kernel | exact holdsNothing_of _ _ (by decide +kernel) (by decide +kernel) | exact oldest_of_nil _ (by decide +kernel) | exact ok_of _ _ (by decide +kernel) | exact error_of _ _ (by decide +kernel) | exact forall_of_nil _ _ (by decide +kernel) | exact trivial

theorem witness_send_tagged :
    ∃ (s : State) (t : Thread) (f : Frame) (a : Word) (g : SendF) (b : Tok),
    HasTok f 0 s.cur.2.2 (.s a) ∧ t.isOldest f.seq = true ∧
    let n := s.cur.2.2
    let clu := cluOf s.cur.1
    Fires s g.p t f ∧ HasTok f 1 n b ∧ b ≠ .null ∧ FreshAt f n (some g.lsid.toNat) ∧
    (firedFrame s f (firedOp s f (.send g) g.lsid.toNat)).turn (firedOp s f (.send g) g.lsid.toNat) = true ∧
      let words := if g.v = 1#1 then (List.range (g.wcm1.toNat + 1)).map fun j => bits b.vec (64 * j) 64 else [b.word]
    2 ^ 32 ≤ a.toNat  := by
  let s := ported (mapped (at5 (.send ⟨0, 0x1FF, 1, 2, 7, 1, 31⟩) [(5, .s 0x100000000), (133, .v 1)]))
  refine ⟨s, th s, fr s, 0x100000000, ⟨0, 0x1FF, 1, 2, 7, 1, 31⟩, .v 1, ?_⟩
  try dsimp only [Fires, HasTok, Arrived, FreshOp, FreshAt, Solo, AtHome, AtVault, HasReg, Untracked, Turn, Quiet, Calm, RoleOk, DistinctWrites, ReadyPlain]
  repeat' apply And.intro
  all_goals first | decide +kernel | exact holdsNothing_of _ _ (by decide +kernel) (by decide +kernel) | exact oldest_of_nil _ (by decide +kernel) | exact ok_of _ _ (by decide +kernel) | exact error_of _ _ (by decide +kernel) | exact forall_of_nil _ _ (by decide +kernel) | exact trivial

theorem witness_portcfg :
    ∃ (s : State) (t : Thread) (f : Frame) (a : Word) (g : LsF) (b : Word),
    HasTok f 0 s.cur.2.2 (.s a) ∧ t.isOldest f.seq = true ∧
    let n := s.cur.2.2
    let clu := cluOf s.cur.1
    Fires s g.p t f ∧ HasTok f 1 n (.s b) ∧ FreshAt f n (some g.lsid.toNat) ∧
    (firedFrame s f (firedOp s f (.portcfg g) g.lsid.toNat)).turn (firedOp s f (.portcfg g) g.lsid.toNat) = true ∧
    a.toNat < 64 ∧ ((s.clu clu).port a.toNat).owner = t.ctx ∧ b.toNat < 2 ^ 27 ∧ b.toNat / 32 % 2 ^ 11 = 0 ∧
        b.toNat / 4 % 4 ≠ 3  := by
  let s := ported (mapped (at5 (.portcfg ⟨0, 31⟩) [(5, .s 63), (133, .s 0x7FF001B)]))
  refine ⟨s, th s, fr s, 63, ⟨0, 31⟩, 0x7FF001B, ?_⟩
  try dsimp only [Fires, HasTok, Arrived, FreshOp, FreshAt, Solo, AtHome, AtVault, HasReg, Untracked, Turn, Quiet, Calm, RoleOk, DistinctWrites, ReadyPlain]
  repeat' apply And.intro
  all_goals first | decide +kernel | exact holdsNothing_of _ _ (by decide +kernel) (by decide +kernel) | exact oldest_of_nil _ (by decide +kernel) | exact ok_of _ _ (by decide +kernel) | exact error_of _ _ (by decide +kernel) | exact forall_of_nil _ _ (by decide +kernel) | exact trivial

theorem witness_portcfg_other :
    ∃ (s : State) (t : Thread) (f : Frame) (a : Word) (g : LsF) (b : Word),
    HasTok f 0 s.cur.2.2 (.s a) ∧ t.isOldest f.seq = true ∧
    let n := s.cur.2.2
    let clu := cluOf s.cur.1
    Fires s g.p t f ∧ HasTok f 1 n (.s b) ∧ FreshAt f n (some g.lsid.toNat) ∧
    (firedFrame s f (firedOp s f (.portcfg g) g.lsid.toNat)).turn (firedOp s f (.portcfg g) g.lsid.toNat) = true ∧
    ((s.clu clu).port (a.toNat % 64)).owner ≠ t.ctx  := by
  let s := ported (mapped (at5 (.portcfg ⟨0, 31⟩) [(5, .s 62), (133, .s 0)]))
  refine ⟨s, th s, fr s, 62, ⟨0, 31⟩, 0, ?_⟩
  try dsimp only [Fires, HasTok, Arrived, FreshOp, FreshAt, Solo, AtHome, AtVault, HasReg, Untracked, Turn, Quiet, Calm, RoleOk, DistinctWrites, ReadyPlain]
  repeat' apply And.intro
  all_goals first | decide +kernel | exact holdsNothing_of _ _ (by decide +kernel) (by decide +kernel) | exact oldest_of_nil _ (by decide +kernel) | exact ok_of _ _ (by decide +kernel) | exact error_of _ _ (by decide +kernel) | exact forall_of_nil _ _ (by decide +kernel) | exact trivial

theorem witness_patclr :
    ∃ (s : State) (t : Thread) (f : Frame) (a : Word) (g : LsF) (b : Word),
    HasTok f 0 s.cur.2.2 (.s a) ∧ t.isOldest f.seq = true ∧
    let n := s.cur.2.2
    let clu := cluOf s.cur.1
    Fires s g.p t f ∧ HasTok f 1 n (.s b) ∧ FreshAt f n (some g.lsid.toNat) ∧
    (firedFrame s f (firedOp s f (.patclr g) g.lsid.toNat)).turn (firedOp s f (.patclr g) g.lsid.toNat) = true ∧
    a.toNat < 32 ∧ ((s.clu clu).pat a.toNat).owner = t.ctx  := by
  let s := ported (mapped (at5 (.patclr ⟨0, 31⟩) [(133, .s 0), (5, .s 31)]))
  refine ⟨s, th s, fr s, 31, ⟨0, 31⟩, 0, ?_⟩
  try dsimp only [Fires, HasTok, Arrived, FreshOp, FreshAt, Solo, AtHome, AtVault, HasReg, Untracked, Turn, Quiet, Calm, RoleOk, DistinctWrites, ReadyPlain]
  repeat' apply And.intro
  all_goals first | decide +kernel | exact holdsNothing_of _ _ (by decide +kernel) (by decide +kernel) | exact oldest_of_nil _ (by decide +kernel) | exact ok_of _ _ (by decide +kernel) | exact error_of _ _ (by decide +kernel) | exact forall_of_nil _ _ (by decide +kernel) | exact trivial

theorem witness_hend :
    ∃ (s : State) (t : Thread) (f : Frame) (a : Word) (g : LsF) (b : Word),
    HasTok f 0 s.cur.2.2 (.s a) ∧ t.isOldest f.seq = true ∧
    let n := s.cur.2.2
    let clu := cluOf s.cur.1
    Fires s g.p t f ∧ HasTok f 1 n (.s b) ∧ FreshAt f n (some g.lsid.toNat)  := by
  let s := ported (mapped (at5 (.hend ⟨0, 31⟩) [(5, .s 0), (133, .s 0)]))
  refine ⟨s, th s, fr s, 0, ⟨0, 31⟩, 0, ?_⟩
  try dsimp only [Fires, HasTok, Arrived, FreshOp, FreshAt, Solo, AtHome, AtVault, HasReg, Untracked, Turn, Quiet, Calm, RoleOk, DistinctWrites, ReadyPlain]
  repeat' apply And.intro
  all_goals first | decide +kernel | exact holdsNothing_of _ _ (by decide +kernel) (by decide +kernel) | exact oldest_of_nil _ (by decide +kernel) | exact ok_of _ _ (by decide +kernel) | exact error_of _ _ (by decide +kernel) | exact forall_of_nil _ _ (by decide +kernel) | exact trivial

theorem witness_patset :
    ∃ (s : State) (t : Thread) (f : Frame) (a : Word) (g : C3F) (b c : Word) (q : Nat),
    HasTok f 0 s.cur.2.2 (.s a) ∧ t.isOldest f.seq = true ∧
    let n := s.cur.2.2
    let clu := cluOf s.cur.1
    Fires s 0#2 t f ∧ HasTok f 1 n (.s b) ∧ HasTok f 2 n (.s c) ∧
      FreshAt f n (some g.lsid.toNat) ∧
    (firedFrame s f (firedOp s f (.patset g) g.lsid.toNat)).turn (firedOp s f (.patset g) g.lsid.toNat) = true ∧ a.toNat < 32 ∧ ((s.clu clu).pat a.toNat).owner = t.ctx ∧ q < 64 ∧
      b = BitVec.ofNat 64 (2 ^ q) ∧ ((s.clu clu).port q).owner = t.ctx ∧ c.toNat < 2 ^ 31 ∧ bits c 14 2 = 0#2 ∧
      bits c 16 8 ≠ 0#8 ∧ (bits c 0 10).toNat < (s.ctx t.ctx).word 7 % 2 ^ 11 ∧
      (∀ e ∈ s.net, ∀ g, e.2.src ≠ .store g s.cur.1)  := by
  let s := ported (mapped (at5 (.patset ⟨31⟩) [(5, .s 31), (133, .s 0x8000000000000000), (261, .s 0x00FF0000)]))
  refine ⟨s, th s, fr s, 31, ⟨31⟩, 0x8000000000000000, 0x00FF0000, 63, ?_⟩
  try dsimp only [Fires, HasTok, Arrived, FreshOp, FreshAt, Solo, AtHome, AtVault, HasReg, Untracked, Turn, Quiet, Calm, RoleOk, DistinctWrites, ReadyPlain]
  repeat' apply And.intro
  all_goals first | decide +kernel | exact holdsNothing_of _ _ (by decide +kernel) (by decide +kernel) | exact oldest_of_nil _ (by decide +kernel) | exact ok_of _ _ (by decide +kernel) | exact error_of _ _ (by decide +kernel) | exact forall_of_nil _ _ (by decide +kernel) | exact trivial

theorem witness_portq :
    ∃ (s : State) (t : Thread) (f : Frame) (a : Word) (g : GF),
    HasTok f 0 s.cur.2.2 (.s a) ∧ t.isOldest f.seq = true ∧
    let n := s.cur.2.2
    let clu := cluOf s.cur.1
    Fires s g.p t f ∧ FreshAt f n none ∧ a.toNat < 64 ∧
      let q := (s.clu clu).port a.toNat
      q.owner < 2 ^ 16 ∧ q.drops < 2 ^ 16 ∧ q.res.length ≤ 8 ∧ q.pol < 4 ∧ (kennelOf (s.clu clu) a.toNat).length < 2 ^ 24  := by
  let s := ported (mapped (at5 (.portq ⟨0, 0x1FF, 1⟩) [(5, .s 63)]))
  refine ⟨s, th s, fr s, 63, ⟨0, 0x1FF, 1⟩, ?_⟩
  try dsimp only [Fires, HasTok, Arrived, FreshOp, FreshAt, Solo, AtHome, AtVault, HasReg, Untracked, Turn, Quiet, Calm, RoleOk, DistinctWrites, ReadyPlain]
  repeat' apply And.intro
  all_goals first | decide +kernel | exact holdsNothing_of _ _ (by decide +kernel) (by decide +kernel) | exact oldest_of_nil _ (by decide +kernel) | exact ok_of _ _ (by decide +kernel) | exact error_of _ _ (by decide +kernel) | exact forall_of_nil _ _ (by decide +kernel) | exact trivial

theorem witness_portq_other :
    ∃ (s : State) (t : Thread) (f : Frame) (a : Word) (g : GF),
    HasTok f 0 s.cur.2.2 (.s a) ∧ t.isOldest f.seq = true ∧
    let n := s.cur.2.2
    let clu := cluOf s.cur.1
    Fires s g.p t f ∧ FreshAt f n none ∧ a.toNat < 64 ∧
      let q := (s.clu clu).port a.toNat
      q.owner < 2 ^ 16 ∧ q.drops < 2 ^ 16 ∧ q.res.length ≤ 8 ∧ q.pol < 4 ∧ (kennelOf (s.clu clu) a.toNat).length < 2 ^ 24  := by
  let s := ported (mapped (at5 (.portq ⟨0, 0x1FF, 1⟩) [(5, .s 0)]))
  refine ⟨s, th s, fr s, 0, ⟨0, 0x1FF, 1⟩, ?_⟩
  try dsimp only [Fires, HasTok, Arrived, FreshOp, FreshAt, Solo, AtHome, AtVault, HasReg, Untracked, Turn, Quiet, Calm, RoleOk, DistinctWrites, ReadyPlain]
  repeat' apply And.intro
  all_goals first | decide +kernel | exact holdsNothing_of _ _ (by decide +kernel) (by decide +kernel) | exact oldest_of_nil _ (by decide +kernel) | exact ok_of _ _ (by decide +kernel) | exact error_of _ _ (by decide +kernel) | exact forall_of_nil _ _ (by decide +kernel) | exact trivial

theorem witness_grant_refused :
    ∃ (n clu : Nat) (s : State) (m : Msg) (k q slot : Nat),
    s.msg n = some m ∧ m.kind = .grantReq ∧ m.st = 0 ∧
    m.node = 9 + clu ∧ m.src = .acc k q slot 0 ∧
    let c := s.clu clu
    let p := c.port m.port
    let accepts := p.en = true ∧ (p.open_ = true ∨ m.ctx = p.owner)
    let full := 8 ≤ p.res.length + p.granted.length ∧ p.waiting = [] ∧ p.klim = 0
    ¬accepts  := by
  let s := requesting 62 State.reset
  refine ⟨0, 0, s, reqMsg 62, 0, 0, 5, ?_⟩
  repeat' apply And.intro
  all_goals decide +kernel

theorem witness_granted :
    ∃ (n clu : Nat) (s : State) (m : Msg) (k q slot : Nat),
    s.msg n = some m ∧ m.kind = .grantReq ∧ m.st = 0 ∧
    m.node = 9 + clu ∧ m.src = .acc k q slot 0 ∧
    let c := s.clu clu
    let p := c.port m.port
    let accepts := p.en = true ∧ (p.open_ = true ∨ m.ctx = p.owner)
    let full := 8 ≤ p.res.length + p.granted.length ∧ p.waiting = [] ∧ p.klim = 0
    accepts ∧ p.waiting = [] ∧ p.res.length + p.granted.length < 8 ∧ c.kennel.ents = [] ∧ p.kgranted = []  := by
  let s := requesting 63 (ported State.reset)
  refine ⟨0, 0, s, reqMsg 63, 0, 0, 5, ?_⟩
  repeat' apply And.intro
  all_goals decide +kernel

theorem witness_grant_dropped :
    ∃ (n clu : Nat) (s : State) (m : Msg) (k q slot : Nat),
    s.msg n = some m ∧ m.kind = .grantReq ∧ m.st = 0 ∧
    m.node = 9 + clu ∧ m.src = .acc k q slot 0 ∧
    let c := s.clu clu
    let p := c.port m.port
    let accepts := p.en = true ∧ (p.open_ = true ∨ m.ctx = p.owner)
    let full := 8 ≤ p.res.length + p.granted.length ∧ p.waiting = [] ∧ p.klim = 0
    accepts ∧ full ∧ p.pol = 1  := by
  let s := requesting 63 (brimming 1 (ported State.reset))
  refine ⟨0, 0, s, reqMsg 63, 0, 0, 5, ?_⟩
  repeat' apply And.intro
  all_goals decide +kernel

theorem witness_grant_faulted :
    ∃ (n clu : Nat) (s : State) (m : Msg) (k q slot : Nat),
    s.msg n = some m ∧ m.kind = .grantReq ∧ m.st = 0 ∧
    m.node = 9 + clu ∧ m.src = .acc k q slot 0 ∧
    let c := s.clu clu
    let p := c.port m.port
    let accepts := p.en = true ∧ (p.open_ = true ∨ m.ctx = p.owner)
    let full := 8 ≤ p.res.length + p.granted.length ∧ p.waiting = [] ∧ p.klim = 0
    accepts ∧ full ∧ p.pol = 2  := by
  let s := requesting 63 (brimming 2 (ported State.reset))
  refine ⟨0, 0, s, reqMsg 63, 0, 0, 5, ?_⟩
  repeat' apply And.intro
  all_goals decide +kernel

theorem witness_grant_waits :
    ∃ (n clu : Nat) (s : State) (m : Msg) (k q slot : Nat),
    s.msg n = some m ∧ m.kind = .grantReq ∧ m.st = 0 ∧
    m.node = 9 + clu ∧ m.src = .acc k q slot 0 ∧
    let c := s.clu clu
    let p := c.port m.port
    let accepts := p.en = true ∧ (p.open_ = true ∨ m.ctx = p.owner)
    let full := 8 ≤ p.res.length + p.granted.length ∧ p.waiting = [] ∧ p.klim = 0
    accepts ∧ full ∧ p.pol = 0  := by
  let s := requesting 63 (brimming 0 (ported State.reset))
  refine ⟨0, 0, s, reqMsg 63, 0, 0, 5, ?_⟩
  repeat' apply And.intro
  all_goals decide +kernel

theorem witness_grant_status :
    ∃ (n k q slot : Nat) (s : State) (m : Msg) (f : Frame) (o : Op) (g : SendF),
    s.msg n = some m ∧ m.kind = .grantStatus ∧
    m.st = 0 ∧ m.src = .acc k q slot 0 ∧ s.frame k q = some f ∧ f.op slot = some o ∧ (o.i = .send g ∨ o.i = .sendt g)  := by
  let s := answering (reqMsg 63) .grantStatus (.send ⟨0, 0x1FF, 1, 2, 7, 1, 31⟩) (at5 (.send ⟨0, 0x1FF, 1, 2, 7, 1, 31⟩) [])
  refine ⟨0, 0, 0, 5, s, { reqMsg 63 with kind := .grantStatus, sub := 2 }, fr s, askedOp (.send ⟨0, 0x1FF, 1, 2, 7, 1, 31⟩), ⟨0, 0x1FF, 1, 2, 7, 1, 31⟩, ?_⟩
  repeat' apply And.intro
  all_goals decide +kernel

theorem witness_message_delivered : ∃ (n clu : Nat) (s : State) (m : Msg) (x : PMsg), s.net = [(n, m)] ∧ m.kind = .deliver ∧
    m.node = 9 + clu ∧ m.pm = some x ∧ m.sub = 0 ∧ ((s.clu clu).port m.port).en = true ∧ (s.clu clu).kennel.ents = [] ∧
    ((s.clu clu).port m.port).kgranted = [] ∧ (∀ p, ((s.clu clu).port p).waiting = []) ∧
    (x.tagged = true → ∀ y ∈ ((s.clu clu).port m.port).res, y.tagged = true → y.tag ≠ x.tag) := by
  let s := { ported State.reset with net := [(0, { reqMsg 63 with kind := .deliver, pm := some pmsg })] }
  have h : (s.clu 0).ports = [(63, port63)] := by decide +kernel
  refine ⟨0, 0, s, { reqMsg 63 with kind := .deliver, pm := some pmsg }, pmsg, ?_⟩
  repeat' apply And.intro
  all_goals first
    | decide +kernel
    | (intro p; simp only [Clu.port, h, tget]; split <;> decide)

theorem witness_pattern_fires : ∃ (clu e q k : Nat) (s : State) (m : PMsg), e < 32 ∧
    (∀ i, i < 32 → i ≠ e → ((s.clu clu).pat i).en = false) ∧ ((s.clu clu).pat e).en = true ∧
    runningOn s ((s.clu clu).pat e).owner clu = true ∧ ((s.clu clu).pat e).maxh = 0 ∧ ((s.clu clu).pat e).ports = [q] ∧
    ((s.clu clu).pat e).tagMode = false ∧ (s.clu clu).kennel.ents = [] ∧ ((s.clu clu).port q).res = [m] ∧
    (∀ j, ((s.clu clu).port j).waiting = []) ∧
    allocate s clu ((s.clu clu).pat e).width ((s.clu clu).pat e).pool ((s.clu clu).pat e).last = some k ∧
    ((s.clu clu).pat e).wpp = 1 ∧ m.words.length = 1 := by
  let s := (ported (mapped State.reset)).modClu 0 fun c => { c with ports := [(63, { port63 with res := [pmsg] })] }
  have h : (s.clu 0).ports = [(63, { port63 with res := [pmsg] })] := by decide +kernel
  refine ⟨0, 31, 63, 0, s, pmsg, ?_⟩
  repeat' apply And.intro
  all_goals first
    | decide +kernel
    | (intro p; simp only [Clu.port, h, tget]; split <;> decide)

theorem witness_handler_starts :
    ∃ (k : Nat) (s : State) (t : Thread) (h : Handler),
    s.thr k = some t ∧ t.frames = [] ∧
    (s.clu (cluOf k)).handlers = [h] ∧ h.thr = k  := by
  let s := handled State.reset
  refine ⟨0, s, th s, ⟨0, Sig.empty⟩, ?_⟩
  repeat' apply And.intro
  all_goals decide +kernel

/-- A SPAWN at slot 5 with operands a and c. -/
def spawnAt (a c : Word) : State := mapped (at5 (.spawn ⟨0x1FF, 1, 2, 31⟩) [(5, .s a), (133, .s 7), (261, .s c)])
/-- It fires as the oldest block's first tracked instruction, to cluster 0. -/
def SpawnFires (a c : Word) : Prop :=
  let s := spawnAt a c
  HasTok (fr s) 0 s.cur.2.2 (.s a) ∧ (th s).isOldest (fr s).seq = true ∧ Fires s 0#2 (th s) (fr s) ∧ HasTok (fr s) 1 s.cur.2.2 (.s 7) ∧
    HasTok (fr s) 2 s.cur.2.2 (.s c) ∧ FreshAt (fr s) s.cur.2.2 (some 31) ∧
    mapAt s (cluOf s.cur.1) (th s).ctx (c.toNat / 2 ^ 16 % 2 ^ 16) = .ok (s.mod.pkg, 0)

/-- The thread number, pool and width of a descriptor. -/
def thidOf (c : Word) : Nat := c.toNat / 2 ^ 32
/-- See `thidOf`. -/
def poolOf (c : Word) : Nat := c.toNat / 256 % 256
/-- See `thidOf`. -/
def gridsOf (c : Word) : List Nat := (List.range 8).filter (poolOf c).testBit
/-- See `thidOf`. -/
def widthOf (c : Word) : Nat := 2 ^ (c.toNat / 64 % 4)

/-- SPAWN of the greatest number on one grid and of width 8 on all; SPAWNP whose last number is the greatest. -/
theorem witness_spawn_asks :
    (SpawnFires 0x80 0x7FFFFFFF00000100 ∧ thidOf 0x7FFFFFFF00000100 = 2 ^ 31 - 1 ∧
      ∃ i, i < 8 / 1 ∧ ∀ j, j < 1 → (poolOf 0x7FFFFFFF00000100).testBit (1 * i + j) = true) ∧
    (SpawnFires 0x80 0x10000FFC0 ∧ thidOf 0x10000FFC0 = 1 ∧ widthOf 0x10000FFC0 = 8 ∧
      ∃ i, i < 8 / 8 ∧ ∀ j, j < 8 → (poolOf 0x10000FFC0).testBit (8 * i + j) = true) ∧
    (SpawnFires 0x80 0x7FFFFFF80000FF00 ∧ thidOf 0x7FFFFFF80000FF00 + (gridsOf 0x7FFFFFF80000FF00).length = 2 ^ 31 ∧
      widthOf 0x7FFFFFF80000FF00 = 1 ∧ 2 ≤ (gridsOf 0x7FFFFFF80000FF00).length) := by
  refine ⟨⟨?_, ?_, 0, ?_⟩, ⟨?_, ?_, ?_, 0, ?_⟩, ?_, ?_⟩
  all_goals try dsimp only [SpawnFires, Fires, HasTok, FreshAt]
  repeat' apply And.intro
  all_goals first | decide +kernel | exact holdsNothing_of _ _ (by decide +kernel) (by decide +kernel) | exact oldest_of_nil _ (by decide +kernel) | exact ok_of _ _ (by decide +kernel) | exact error_of _ _ (by decide +kernel) | exact forall_of_nil _ _ (by decide +kernel) | exact trivial

/-- Code 0x10: the numbers 0 and 2^31, and a pack whose last number is 2^31. Code 0x11: a reserved bit of c, an entry that is no multiple
of 128. Code 0x12: a pool without an aligned pair, a pack of one grid, and one of width 2. -/
theorem witness_spawn_codes :
    (SpawnFires 0x80 0x100 ∧ thidOf 0x100 = 0) ∧ (SpawnFires 0x80 0x8000000000000100 ∧ 2 ^ 31 ≤ thidOf 0x8000000000000100) ∧
    (SpawnFires 0x80 0x7FFFFFF90000FF00 ∧ thidOf 0x7FFFFFF90000FF00 < 2 ^ 31 ∧
      2 ^ 31 < thidOf 0x7FFFFFF90000FF00 + (gridsOf 0x7FFFFFF90000FF00).length) ∧
    (SpawnFires 0x80 0x100000308 ∧ thidOf 0x100000308 = 1 ∧ (0x100000308 : Word).toNat % 16 ≠ 0) ∧
    (SpawnFires 0xC0 0x100000300 ∧ thidOf 0x100000300 = 1 ∧ (0xC0 : Word).toNat % 128 ≠ 0) ∧
    (SpawnFires 0x80 0x100000640 ∧ thidOf 0x100000640 = 1 ∧ widthOf 0x100000640 = 2 ∧
      ¬∃ i, i < 8 / 2 ∧ ∀ j, j < 2 → (poolOf 0x100000640).testBit (2 * i + j) = true) ∧
    (SpawnFires 0x80 0x100008000 ∧ thidOf 0x100008000 = 1 ∧ (gridsOf 0x100008000).length = 1) ∧
    (SpawnFires 0x80 0x10000FF40 ∧ thidOf 0x10000FF40 = 1 ∧ widthOf 0x10000FF40 ≠ 1) := by
  dsimp only [SpawnFires, Fires, HasTok, FreshAt]
  repeat' apply And.intro
  all_goals first | decide +kernel | exact holdsNothing_of _ _ (by decide +kernel) (by decide +kernel) | exact oldest_of_nil _ (by decide +kernel) | exact ok_of _ _ (by decide +kernel) | exact error_of _ _ (by decide +kernel) | exact forall_of_nil _ _ (by decide +kernel) | exact trivial

/-- A grid that COMPOSE needs has another thread. -/
theorem witness_compose_taken :
    ∃ (s : State) (t : Thread) (f : Frame) (a : Word) (g : GF), HasTok f 0 s.cur.2.2 (.s a) ∧ t.isOldest f.seq = true ∧
    Fires s g.p t f ∧ FreshAt f s.cur.2.2 none ∧ (a.toNat = 1 ∨ a.toNat = 2 ∨ a.toNat = 4 ∨ a.toNat = 8) ∧
    ∃ h ∈ coreGrids (gridOfThr s.cur.1) a.toNat, ∃ i, i < 4 ∧ 4 * h + i ≠ s.cur.1 ∧ s.thr (4 * h + i) ≠ none := by
  let s := led (at5 (.compose ⟨0, 0x1FF, 1⟩) [(5, .s 2)])
  refine ⟨s, th s, fr s, 2, ⟨0, 0x1FF, 1⟩, ?_, ?_, ?_, ?_, ?_, 1, ?_, 0, ?_⟩
  all_goals try dsimp only [Fires, HasTok, FreshAt]
  repeat' apply And.intro
  all_goals first | decide +kernel | exact holdsNothing_of _ _ (by decide +kernel) (by decide +kernel) | exact oldest_of_nil _ (by decide +kernel) | exact ok_of _ _ (by decide +kernel) | exact error_of _ _ (by decide +kernel) | exact forall_of_nil _ _ (by decide +kernel) | exact trivial

theorem witness_compose_no_width :
    ∃ (s : State) (t : Thread) (f : Frame) (a : Word) (g : GF),
    HasTok f 0 s.cur.2.2 (.s a) ∧ t.isOldest f.seq = true ∧
    let n := s.cur.2.2
    let width := fun (w : Nat) => w = 1 ∨ w = 2 ∨ w = 4 ∨ w = 8
    Fires s g.p t f ∧ FreshAt f n none ∧
    ¬width a.toNat  := by
  let s := at5 (.compose ⟨0, 0x1FF, 1⟩) [(5, .s 3)]
  refine ⟨s, th s, fr s, 3, ⟨0, 0x1FF, 1⟩, ?_⟩
  try dsimp only [Fires, HasTok, Arrived, FreshOp, FreshAt, Solo, AtHome, AtVault, HasReg, Untracked, Turn, Quiet, Calm, RoleOk, DistinctWrites, ReadyPlain]
  repeat' apply And.intro
  all_goals first | decide +kernel | exact holdsNothing_of _ _ (by decide +kernel) (by decide +kernel) | exact oldest_of_nil _ (by decide +kernel) | exact ok_of _ _ (by decide +kernel) | exact error_of _ _ (by decide +kernel) | exact forall_of_nil _ _ (by decide +kernel) | exact trivial

theorem witness_compose_has_width :
    ∃ (s : State) (t : Thread) (f : Frame) (a : Word) (g : GF),
    HasTok f 0 s.cur.2.2 (.s a) ∧ t.isOldest f.seq = true ∧
    let n := s.cur.2.2
    let width := fun (w : Nat) => w = 1 ∨ w = 2 ∨ w = 4 ∨ w = 8
    Fires s g.p t f ∧ FreshAt f n none ∧
    width a.toNat ∧ (a.toNat ≤ t.width ∨ t.pack ≠ .none)  := by
  let s := at5 (.compose ⟨0, 0x1FF, 1⟩) [(5, .s 1)]
  refine ⟨s, th s, fr s, 1, ⟨0, 0x1FF, 1⟩, ?_⟩
  try dsimp only [Fires, HasTok, Arrived, FreshOp, FreshAt, Solo, AtHome, AtVault, HasReg, Untracked, Turn, Quiet, Calm, RoleOk, DistinctWrites, ReadyPlain]
  repeat' apply And.intro
  all_goals first | decide +kernel | exact holdsNothing_of _ _ (by decide +kernel) (by decide +kernel) | exact oldest_of_nil _ (by decide +kernel) | exact ok_of _ _ (by decide +kernel) | exact error_of _ _ (by decide +kernel) | exact forall_of_nil _ _ (by decide +kernel) | exact trivial

theorem witness_compose :
    ∃ (s : State) (t : Thread) (f : Frame) (a : Word) (g : GF),
    HasTok f 0 s.cur.2.2 (.s a) ∧ t.isOldest f.seq = true ∧
    let n := s.cur.2.2
    let width := fun (w : Nat) => w = 1 ∨ w = 2 ∨ w = 4 ∨ w = 8
    Fires s g.p t f ∧ FreshAt f n none ∧
    width a.toNat ∧ t.width < a.toNat ∧ t.pack = .none ∧
        (∀ h ∈ coreGrids (gridOfThr s.cur.1) a.toNat, (s.grid h).held = none ∧ (s.grid h).leaving = none ∧
          ∀ i, i < 4 → 4 * h + i ≠ s.cur.1 → s.thr (4 * h + i) = none) ∧
        (s.clu (cluOf s.cur.1)).spawns = [] ∧ (∀ d ∈ following s, d.2 ≠ s.cur.1)  := by
  let s := at5 (.compose ⟨0, 0x1FF, 1⟩) [(5, .s 8)]
  refine ⟨s, th s, fr s, 8, ⟨0, 0x1FF, 1⟩, ?_⟩
  try dsimp only [Fires, HasTok, Arrived, FreshOp, FreshAt, Solo, AtHome, AtVault, HasReg, Untracked, Turn, Quiet, Calm, RoleOk, DistinctWrites, ReadyPlain]
  repeat' apply And.intro
  all_goals first | decide +kernel | exact holdsNothing_of _ _ (by decide +kernel) (by decide +kernel) | exact oldest_of_nil _ (by decide +kernel) | exact ok_of _ _ (by decide +kernel) | exact error_of _ _ (by decide +kernel) | exact forall_of_nil _ _ (by decide +kernel) | exact trivial

theorem witness_decomp :
    ∃ (s : State) (t : Thread) (f : Frame) (a : Word) (g : GF),
    HasTok f 0 s.cur.2.2 (.s a) ∧ t.isOldest f.seq = true ∧
    let n := s.cur.2.2
    let width := fun (w : Nat) => w = 1 ∨ w = 2 ∨ w = 4 ∨ w = 8
    Fires s g.p t f ∧ FreshAt f n none ∧
    width a.toNat  := by
  let s := at5 (.decomp ⟨0, 0x1FF, 1⟩) [(5, .s 8)]
  refine ⟨s, th s, fr s, 8, ⟨0, 0x1FF, 1⟩, ?_⟩
  try dsimp only [Fires, HasTok, Arrived, FreshOp, FreshAt, Solo, AtHome, AtVault, HasReg, Untracked, Turn, Quiet, Calm, RoleOk, DistinctWrites, ReadyPlain]
  repeat' apply And.intro
  all_goals first | decide +kernel | exact holdsNothing_of _ _ (by decide +kernel) (by decide +kernel) | exact oldest_of_nil _ (by decide +kernel) | exact ok_of _ _ (by decide +kernel) | exact error_of _ _ (by decide +kernel) | exact forall_of_nil _ _ (by decide +kernel) | exact trivial

theorem witness_follow_no_leader :
    ∃ (s : State) (t : Thread) (f : Frame) (a : Word) (g : GF),
    HasTok f 0 s.cur.2.2 (.s a) ∧ t.isOldest f.seq = true ∧
    let n := s.cur.2.2
    let width := fun (w : Nat) => w = 1 ∨ w = 2 ∨ w = 4 ∨ w = 8
    Fires s g.p t f ∧ FreshAt f n none ∧
    (∀ e ∈ s.thrs, ¬(cluOf e.1 = cluOf s.cur.1 ∧ e.2.ctx = t.ctx ∧ e.2.spec.thid = a))  := by
  let s := at5 (.follow ⟨0, 0x1FF, 1⟩) [(5, .s 7)]
  refine ⟨s, th s, fr s, 7, ⟨0, 0x1FF, 1⟩, ?_⟩
  try dsimp only [Fires, HasTok, Arrived, FreshOp, FreshAt, Solo, AtHome, AtVault, HasReg, Untracked, Turn, Quiet, Calm, RoleOk, DistinctWrites, ReadyPlain]
  repeat' apply And.intro
  all_goals first | decide +kernel | exact holdsNothing_of _ _ (by decide +kernel) (by decide +kernel) | exact oldest_of_nil _ (by decide +kernel) | exact ok_of _ _ (by decide +kernel) | exact error_of _ _ (by decide +kernel) | exact forall_of_nil _ _ (by decide +kernel) | exact trivial

theorem witness_follow :
    ∃ (s : State) (t : Thread) (f : Frame) (a : Word) (g : GF) (j : Nat) (u : Thread),
    HasTok f 0 s.cur.2.2 (.s a) ∧ t.isOldest f.seq = true ∧
    let n := s.cur.2.2
    let width := fun (w : Nat) => w = 1 ∨ w = 2 ∨ w = 4 ∨ w = 8
    Fires s g.p t f ∧ FreshAt f n none ∧
    s.thrs = [(j, u), (s.cur.1, t)] ∧ cluOf j = cluOf s.cur.1 ∧ gridOfThr j ≠ gridOfThr s.cur.1 ∧
        u.ctx = t.ctx ∧ u.spec.thid = a ∧ u.pack = .none ∧ u.width = 1 ∧ t.width = 1 ∧ t.pack = .none ∧
        following s = [] ∧ (∀ i, i < 8 → (s.grid (8 * cluOf j + i)).held = none)  := by
  let s := led (at5 (.follow ⟨0, 0x1FF, 1⟩) [(5, .s 7)])
  refine ⟨s, th s, fr s, 7, ⟨0, 0x1FF, 1⟩, 4, leader7, ?_⟩
  try dsimp only [Fires, HasTok, Arrived, FreshOp, FreshAt, Solo, AtHome, AtVault, HasReg, Untracked, Turn, Quiet, Calm, RoleOk, DistinctWrites, ReadyPlain]
  repeat' apply And.intro
  all_goals first | decide +kernel | exact holdsNothing_of _ _ (by decide +kernel) (by decide +kernel) | exact oldest_of_nil _ (by decide +kernel) | exact ok_of _ _ (by decide +kernel) | exact error_of _ _ (by decide +kernel) | exact forall_of_nil _ _ (by decide +kernel) | exact trivial

theorem witness_unfollow :
    ∃ (s : State) (t : Thread) (f : Frame) (a : Word) (g : PF),
    HasTok f 0 s.cur.2.2 (.s a) ∧ t.isOldest f.seq = true ∧
    let n := s.cur.2.2
    let width := fun (w : Nat) => w = 1 ∨ w = 2 ∨ w = 4 ∨ w = 8
    Fires s g.p t f ∧ FreshAt f n none ∧
    t.pack ≠ .leader  := by
  let s := at5 (.unfollow ⟨0⟩) [(5, .s 0)]
  refine ⟨s, th s, fr s, 0, ⟨0⟩, ?_⟩
  try dsimp only [Fires, HasTok, Arrived, FreshOp, FreshAt, Solo, AtHome, AtVault, HasReg, Untracked, Turn, Quiet, Calm, RoleOk, DistinctWrites, ReadyPlain]
  repeat' apply And.intro
  all_goals first | decide +kernel | exact holdsNothing_of _ _ (by decide +kernel) (by decide +kernel) | exact oldest_of_nil _ (by decide +kernel) | exact ok_of _ _ (by decide +kernel) | exact error_of _ _ (by decide +kernel) | exact forall_of_nil _ _ (by decide +kernel) | exact trivial

theorem witness_tend_fires :
    ∃ (s : State) (t : Thread) (f : Frame) (a : Word) (g : LsF),
    HasTok f 0 s.cur.2.2 (.s a) ∧ t.isOldest f.seq = true ∧
    let n := s.cur.2.2
    let width := fun (w : Nat) => w = 1 ∨ w = 2 ∨ w = 4 ∨ w = 8
    Fires s g.p t f ∧ FreshAt f n (some g.lsid.toNat)  := by
  let s := at5 (.tend ⟨0, 31⟩) [(5, .s 0)]
  refine ⟨s, th s, fr s, 0, ⟨0, 31⟩, ?_⟩
  try dsimp only [Fires, HasTok, Arrived, FreshOp, FreshAt, Solo, AtHome, AtVault, HasReg, Untracked, Turn, Quiet, Calm, RoleOk, DistinctWrites, ReadyPlain]
  repeat' apply And.intro
  all_goals first | decide +kernel | exact holdsNothing_of _ _ (by decide +kernel) (by decide +kernel) | exact oldest_of_nil _ (by decide +kernel) | exact ok_of _ _ (by decide +kernel) | exact error_of _ _ (by decide +kernel) | exact forall_of_nil _ _ (by decide +kernel) | exact trivial

theorem witness_spawn_granted :
    ∃ (n clu k q slot : Nat) (s : State) (m : Msg) (t : Thread) (f : Frame) (o : Op) (g : SpawnF) (h : _),
    s.msg n = some m ∧
    m.kind = .spawnReq ∧ m.node = 9 + clu ∧ m.src = .acc k q slot 0 ∧ s.thr k = some t ∧ s.frame k q = some f ∧
    f.op slot = some o ∧ o.i = .spawn g ∧ arbitrate s clu = none ∧
    let d := o.c.word
    let thid := d.toNat / 2 ^ 32
    spawnGrant s clu false d = some [h]  := by
  let s := answering spawnMsg .spawnReq (.spawn ⟨0x1FF, 1, 2, 31⟩) (mapped (at5 (.spawn ⟨0x1FF, 1, 2, 31⟩) []))
  refine ⟨0, 0, 0, 0, 5, s, { spawnMsg with kind := .spawnReq, sub := 2 }, th s, fr s, askedOp (.spawn ⟨0x1FF, 1, 2, 31⟩), ⟨0x1FF, 1, 2, 31⟩, 4, ?_⟩
  repeat' apply And.intro
  all_goals decide +kernel

theorem witness_spawn_queued :
    ∃ (n clu k q slot : Nat) (s : State) (m : Msg) (t : Thread) (f : Frame) (o : Op) (g : SpawnF),
    s.msg n = some m ∧
    m.kind = .spawnReq ∧ m.node = 9 + clu ∧ m.src = .acc k q slot 0 ∧ s.thr k = some t ∧ s.frame k q = some f ∧
    f.op slot = some o ∧ o.i = .spawn g ∧ arbitrate s clu = none ∧
    let d := o.c.word
    let thid := d.toNat / 2 ^ 32
    spawnGrant s clu false d = none ∧ (spawnQueue (s.clu clu)).length < 16  := by
  let s := waiters 15 (answering spawnMsg .spawnReq (.spawn ⟨0x1FF, 1, 2, 31⟩) (mapped (at5 (.spawn ⟨0x1FF, 1, 2, 31⟩) [])))
  refine ⟨0, 0, 0, 0, 5, s, { spawnMsg with kind := .spawnReq, sub := 2 }, th s, fr s, askedOp (.spawn ⟨0x1FF, 1, 2, 31⟩), ⟨0x1FF, 1, 2, 31⟩, ?_⟩
  repeat' apply And.intro
  all_goals decide +kernel

theorem witness_spawn_refused :
    ∃ (n clu k q slot : Nat) (s : State) (m : Msg) (t : Thread) (f : Frame) (o : Op) (g : SpawnF),
    s.msg n = some m ∧
    m.kind = .spawnReq ∧ m.node = 9 + clu ∧ m.src = .acc k q slot 0 ∧ s.thr k = some t ∧ s.frame k q = some f ∧
    f.op slot = some o ∧ o.i = .spawn g ∧ arbitrate s clu = none ∧
    let d := o.c.word
    let thid := d.toNat / 2 ^ 32
    spawnGrant s clu false d = none ∧ 16 ≤ (spawnQueue (s.clu clu)).length  := by
  let s := waiters 16 (answering spawnMsg .spawnReq (.spawn ⟨0x1FF, 1, 2, 31⟩) (mapped (at5 (.spawn ⟨0x1FF, 1, 2, 31⟩) [])))
  refine ⟨0, 0, 0, 0, 5, s, { spawnMsg with kind := .spawnReq, sub := 2 }, th s, fr s, askedOp (.spawn ⟨0x1FF, 1, 2, 31⟩), ⟨0x1FF, 1, 2, 31⟩, ?_⟩
  repeat' apply And.intro
  all_goals decide +kernel

theorem witness_spawn_answer :
    ∃ (n k q slot : Nat) (s : State) (m : Msg) (f : Frame) (o : Op),
    s.msg n = some m ∧ m.kind = .spawnAns ∧
    m.src = .acc k q slot 0 ∧ s.frame k q = some f ∧ f.op slot = some o  := by
  let s := answering spawnMsg .spawnAns (.spawn ⟨0x1FF, 1, 2, 31⟩) (mapped (at5 (.spawn ⟨0x1FF, 1, 2, 31⟩) []))
  refine ⟨0, 0, 0, 5, s, { spawnMsg with kind := .spawnAns, sub := 2 }, fr s, askedOp (.spawn ⟨0x1FF, 1, 2, 31⟩), ?_⟩
  repeat' apply And.intro
  all_goals decide +kernel

theorem witness_spawn_queue :
    ∃ (clu i h : Nat) (s : State) (x : Spawn),
    arbitrate s clu = none ∧ (s.clu clu).spawns = [(i, x)] ∧ x.got = [] ∧
    x.pack = false ∧ runningOn s x.ctx clu = true ∧ spawnGrant s clu false x.desc = some [h]  := by
  let s := spawning [] (mapped State.reset)
  refine ⟨0, 0, 0, s, spawn0 [], ?_⟩
  repeat' apply And.intro
  all_goals decide +kernel

theorem witness_spawned :
    ∃ (clu i h : Nat) (s : State) (x : Spawn),
    tget (s.clu clu).spawns i = some x ∧ x.got = [h] ∧ x.firm = true ∧
    x.pack = false ∧ runningOn s x.ctx clu = true ∧ s.thr h = none ∧ x.desc.toNat / 64 % 4 = 0  := by
  let s := spawning [0] (mapped State.reset)
  refine ⟨0, 0, 0, s, spawn0 [0], ?_⟩
  repeat' apply And.intro
  all_goals decide +kernel

theorem witness_grid_return : ∃ (k g : Nat) (s : State) (t : Thread), s.thr k = some t ∧ t.frames = [] ∧
    (s.grid g).leaving = some (k, t.ser) ∧ cluOfGrid g = cluOf k ∧ (∀ h, h ≠ g → ∀ e, (s.grid h).leaving = some e → e.1 ≠ k) ∧ (s.grid g).l1 = [] ∧
    (s.grid g).wtq = [] ∧ s.net = [] ∧ g ≠ coreGrid0 (gridOfThr k) t.width := by
  let s := { State.reset with thrs := [(0, Thread.reset)], grids := [(1, { Grid.reset with leaving := some (0, 0) })] }
  refine ⟨0, 1, s, Thread.reset, ?_⟩
  repeat' apply And.intro
  all_goals first
    | decide +kernel
    | (intro h hh; simp only [s, State.grid, tget]; rw [if_neg (by simpa using Ne.symm hh)]; decide)

/-- A leader at block 0 whose REJOIN waits `l` cycles; member 1 waits there, member 2 at block 128, and member 3 is on its way, or has not
strayed. -/
def packed (l : Nat) (p : Pack) : State :=
  { State.reset with thrs := [(0, { Thread.reset with pack := .leader, rejoin := some (l, 0) }), (1, { Thread.reset with pack := .waiting 0 }),
      (2, { Thread.reset with pack := .waiting 0, pc := 128 }), (3, { Thread.reset with pack := p })] }

/-- A Stray member before the limit, at it, and none. -/
theorem witness_rejoin : ∀ x ∈ [(1, Pack.stray 0), (0, Pack.stray 0), (1, Pack.following 0)],
    ∃ (k l : Nat) (t0 : Word) (s : State) (t u1 u2 u3 : Thread), tabWf s.thrs = true ∧ s.thr k = some t ∧ t.pack = .leader ∧
    t.rejoin = some (l, t0) ∧ s.thr 1 = some u1 ∧ u1.pack = .waiting k ∧ u1.pc = t.pc ∧ s.thr 2 = some u2 ∧ u2.pack = .waiting k ∧
    u2.pc ≠ t.pc ∧ s.thr 3 = some u3 ∧ u3.pack = x.2 ∧ (s.cycThr k - t0).toNat = 0 ∧ l = x.1 := by
  intro x hx
  refine ⟨0, x.1, 0, packed x.1 x.2, { Thread.reset with pack := .leader, rejoin := some (x.1, 0) }, { Thread.reset with pack := .waiting 0 },
    { Thread.reset with pack := .waiting 0, pc := 128 }, { Thread.reset with pack := x.2 }, ?_⟩
  simp only [List.mem_cons, List.not_mem_nil, or_false] at hx
  rcases hx with rfl | rfl | rfl
  all_goals
    repeat' apply And.intro
    all_goals decide +kernel

/-! ### Blocks and translations -/

/-- A thread alone, at a block address, with no block in flight. -/
def fetching (pc : VAddr) : State := { State.reset with thrs := [(0, { Thread.reset with run := true, pc := pc })] }
/-- Page 0 is translated to 0x10000 for execution. -/
def mapped16 (s : State) : State :=
  s.modGrid 0 fun g => { g with utlb := [⟨0, 0, 5, 0x10000, true, true, false, 0, 0, false⟩] }
/-- A block at 0x300 whose fetch has begun. -/
def youngFrame0 : Frame := Frame.mk0 1 0x300 true 1 none
/-- A line that came. -/
def lineMsg : Msg := { Msg.mk0 .reply .dog with data := (List.range 64).map fun i => some (BitVec.ofNat 8 i) }
/-- A block of two chunks that is whole. -/
def wholeFrame : Frame := { youngFrame0 with chunks := [(0, List.replicate 32 0), (1, List.replicate 32 0)] }
/-- A header whose first read entry reads g4 for operand a of slot 5. -/
def readWords : List Slot32 :=
  let n := (0x8013FE05 : Slot32)
  List.replicate 32 0 |>.set 10 n
/-- A page of 64 KiB of context 0. -/
def page (w x p : Bool) (pa : Nat) : Trans := ⟨0, 0, 5, pa, w, x, p, 0, 0, true⟩
/-- The TLB of cluster 79 holds it. -/
def mapping (e : Trans) (s : State) : State := s.modClu 79 fun c => { c with tlb := [e] }
/-- Context 0's root table lies at 0x10000. -/
def rooted (s : State) : State := s.modCtx 0 fun c => { c with words := [0x10000] }
/-- Cluster 0 waits for a walk. -/
def missed (m : Miss) (s : State) : State := s.modClu 0 fun c => { c with misses := [m] }
/-- A walk for a page whose root index is 0xFFF. -/
def walk0 (lvl : Nat) : Walk := ⟨0, 0, 0xFFF0000000000000, lvl, 0x10000, true, true, false, [0], none, none, false, [0]⟩
/-- It is the only walk of die 0. -/
def walking (w : Walk) (c : List ((Nat × Nat × Nat) × Nat)) (s : State) : State :=
  { s with dies := [(0, { s.die 0 with walks := [(0, w)], wcache := c })] }
/-- The entry that came: at 0x20000, a leaf, with A, D, W and X. -/
def entryMsg (e : Nat) : Msg := { Msg.mk0 .reply .dog with data := (List.range 8).map fun i => some (BitVec.ofNat 8 (e / 256 ^ i)) }
/-- It is message 0. -/
def waiting (s : State) : State := { s with net := [(0, entryMsg 0x2081F)] }

/-! #### The codes of the block check (R203, R204) -/

/-- A header without entries. -/
def plainHead : List Slot32 := 0xA5000000#32 :: List.replicate 31 0

/-- A header with a wrong MARK, one with a set reserved bit, and a misaligned address. -/
theorem witness_header_codes :
    (∃ h : List Slot32, (wordAt h 0).toNat / 2 ^ 24 ≠ 0xA5) ∧
    (∃ h : List Slot32, (wordAt h 0).toNat / 2 ^ 24 = 0xA5 ∧ (wordAt h 0).toNat % 2 ^ 18 ≠ 0) ∧
    ∃ (h : List Slot32) (addr : VAddr), (wordAt h 0).toNat / 2 ^ 24 = 0xA5 ∧ (wordAt h 0).toNat % 2 ^ 18 = 0 ∧
      (∀ j, j < 22 → (wordAt h (10 + j)).toNat = 0) ∧ addr.toNat % 128 ≠ 0 :=
  ⟨⟨[], by decide +kernel⟩, ⟨[0xA5020000#32], by decide +kernel, by decide +kernel⟩,
    ⟨plainHead, 0x140, by decide +kernel, by decide +kernel, by decide +kernel, by decide +kernel⟩⟩

/-- A block whose first word that is not empty is `w`, at the last slot of its first row. -/
def firstWord (w : Slot32) : List Slot32 := List.replicate 15 0 ++ [w]

/-- With that header, an opcode of zero, an xop without a meaning, a wide instruction, a word that a decoder rejects, and a store with
PRED = 01, each at slot 15; and the first of these at slot 127. -/
theorem witness_slot_codes : (∀ c, checkHeader 0x100 true plainHead c = none) ∧
    (∀ w, 15 < (firstWord w).length ∧ (∀ j, j < 15 → wordAt (firstWord w) j = 0) ∧ wordAt (firstWord w) 15 = w) ∧
    (∃ w : Slot32, w ≠ 0 ∧ w.toNat / 2 ^ 25 = 0) ∧ (∃ w : Slot32, w.toNat / 2 ^ 25 ≠ 0 ∧ xopDefined w = false) ∧
    (∃ w : Slot32, w.toNat / 2 ^ 25 ≠ 0 ∧ xopDefined w = true ∧ isWide w = true ∧ 15 % 16 = 15) ∧
    (∃ w : Slot32, w.toNat / 2 ^ 25 ≠ 0 ∧ xopDefined w = true ∧ isWide w = false ∧ targetsOf w (wordAt (firstWord w) 16) = [] ∧
      w.toNat / 2 ^ 23 % 4 = 1) ∧
    (127 < (List.replicate 127 0 ++ [1#32]).length ∧ wordAt (List.replicate 127 0 ++ [1#32]) 127 = 1#32 ∧
      ∀ j, j < 127 → wordAt (List.replicate 127 0 ++ [1#32]) j = 0) := by
  refine ⟨fun c => by cases c <;> decide +kernel, fun w => ⟨by simp [firstWord], ?_, by simp [firstWord, wordAt]⟩, ⟨1#32, ?_⟩, ⟨0x027C0000#32, ?_⟩,
    ⟨0x80000000#32, ?_⟩, ⟨0x56840000#32, ?_⟩, ?_⟩
  · intro j hj
    have : j = 0 ∨ j = 1 ∨ j = 2 ∨ j = 3 ∨ j = 4 ∨ j = 5 ∨ j = 6 ∨ j = 7 ∨ j = 8 ∨ j = 9 ∨ j = 10 ∨ j = 11 ∨ j = 12 ∨ j = 13 ∨ j = 14 := by
      omega
    rcases this with rfl | rfl | rfl | rfl | rfl | rfl | rfl | rfl | rfl | rfl | rfl | rfl | rfl | rfl | rfl <;> rfl
  all_goals
    repeat' apply And.intro
    all_goals decide +kernel

theorem witness_fetch_begins :
    ∃ (k e : Nat) (s : State) (t : Thread),
    s.thrs = [(k, t)] ∧ t.frames = [] ∧ t.run = true ∧ t.stop = false ∧
    t.rejoin = none ∧ t.post = .idle ∧ t.pack = .none ∧ (t.width = 1 ∨ t.width = 2 ∨ t.width = 4 ∨ t.width = 8)  := by
  let s := fetching 0xFFF80
  refine ⟨0, 0, s, th s, ?_⟩
  repeat' apply And.intro
  all_goals decide +kernel

theorem witness_chunk_asked :
    ∃ (k e pa cls kind : Nat) (d : Bool) (s : State) (t : Thread) (f : Frame),
    s.thr k = some t ∧ t.frames = [f] ∧
    f.stage = 0 ∧ f.refused = none ∧ f.lead = none ∧ f.chunks = [] ∧ f.missing = [] ∧ f.fails = [] ∧
    let g := coreGrid0 (gridOfThr k) f.width
    translate s t.ctx f.sup (some g) (cluOf k) 2 f.addr.toNat = .ok pa cls kind d ∧ tget (s.grid g).bc (pa / 64) = none ∧
    (s.grid g).fetchReg.length < 7  := by
  let s := mapped16 { fetching 0 with thrs := [(0, { (th (fetching 0)) with frames := [youngFrame0] })] }
  refine ⟨0, 0, 0x10300, 1, 0, false, s, th s, youngFrame0, ?_⟩
  repeat' apply And.intro
  all_goals decide +kernel

theorem witness_chunk_comes :
    ∃ (k q c n n' : Nat) (s : State) (f : Frame) (m m' : Msg),
    s.frame k q = some f ∧ f.missing = [(c, [n, n'])] ∧ n ≠ n' ∧
    s.msg n = some m ∧ s.msg n' = some m' ∧ m.kind = .reply ∧ m'.kind = .reply ∧ m.poison = 0 ∧ m'.poison = 0 ∧
    m.data.length = 64 ∧ m'.data.length = 64 ∧ (s.ctx m.ctx).gen = m.gen ∧ (s.ctx m'.ctx).gen = m'.gen  := by
  let s := { fetching 0 with thrs := [(0, { (th (fetching 0)) with frames := [{ youngFrame0 with missing := [(3, [8, 9])] }] })], net := [(8, lineMsg), (9, lineMsg)] }
  refine ⟨0, 1, 3, 8, 9, s, { youngFrame0 with missing := [(3, [8, 9])] }, lineMsg, lineMsg, ?_⟩
  repeat' apply And.intro
  all_goals decide +kernel

theorem witness_block_maps :
    ∃ (k q : Nat) (s : State) (t : Thread) (f : Frame) (h : List Slot32),
    Solo s k t ∧ t.frames = [f] ∧ f.seq = q ∧ f.stage = 0 ∧
    f.refused = none ∧ f.fails = [] ∧ f.poisoned = false ∧ tget f.chunks 0 = some h ∧ h ≠ [] ∧
    (∀ c, c ≤ (bits (wordAt h 0) 22 2).toNat + 1 → tget f.chunks c ≠ none)  := by
  let s := { fetching 0 with thrs := [(0, { (th (fetching 0)) with frames := [wholeFrame] })] }
  refine ⟨0, 1, s, th s, wholeFrame, List.replicate 32 0, ?_⟩
  repeat' apply And.intro
  all_goals decide +kernel

theorem witness_token_comes :
    ∃ (k q : Nat) (s : State) (t : Thread) (f : Frame) (x : Nat × Tok) (r : List (Nat × Tok)),
    s.thr k = some t ∧
    t.frames = [f] ∧ f.seq = q ∧ f.transit = x :: r ∧
    tget f.toks x.1 = none  := by
  let s := onFr (at5 (.trap ⟨0, 7⟩) []) fun f => { f with transit := [(384, .s 1), (0, .null)] }
  refine ⟨0, 0, s, th s, fr s, (384, .s 1), [(0, .null)], ?_⟩
  repeat' apply And.intro
  all_goals decide +kernel

theorem witness_token_collides :
    ∃ (k q : Nat) (s : State) (t : Thread) (f : Frame) (x : Nat × Tok) (r : List (Nat × Tok)),
    s.thr k = some t ∧
    t.frames = [f] ∧ f.seq = q ∧ f.transit = x :: r ∧
    tget f.toks x.1 ≠ none  := by
  let s := onFr (at5 (.trap ⟨0, 7⟩) [(384, .s 2)]) fun f => { f with transit := [(384, .s 1), (0, .null)] }
  refine ⟨0, 0, s, th s, fr s, (384, .s 1), [(0, .null)], ?_⟩
  repeat' apply And.intro
  all_goals decide +kernel

theorem witness_read_entry :
    ∃ (k j r t0 t1 : Nat) (s : State) (t : Thread) (f : Frame),
    s.thr k = some t ∧ t.frames = [f] ∧ f.stage = 1 ∧
    f.refused = none ∧ f.transit = [] ∧ f.unread = [j] ∧ (j, r, t0, t1) ∈ rdEntries f.hdr  := by
  let s := onFr (at5 (.trap ⟨0, 7⟩) []) fun f => { f with unread := [0], chunks := (0, readWords) :: f.chunks.drop 1 }
  refine ⟨0, 0, 4, 5, 0x1FF, s, th s, fr s, ?_⟩
  repeat' apply And.intro
  all_goals decide +kernel

theorem witness_privileged_page :
    ∃ (s : State) (ctx clu need va : Nat) (sup : Bool) (g : Option Nat) (r : Tr) (e : _),
    r = translate s ctx sup g clu need va ∧
    let region := va / 2 ^ 72 % 256
    region < 0xF0 ∧ tlbGet s g clu ctx (pageOf va) = some e ∧
    e.p = true ∧ sup = false  := by
  let s := mapping (page true true true 0x10000) State.reset
  refine ⟨s, 0, 79, 0, 0xFFFF, false, some 632, translate s 0 false (some 632) 79 0 0xFFFF, page true true true 0x10000, ?_⟩
  repeat' apply And.intro
  all_goals decide +kernel

theorem witness_read_only_page :
    ∃ (s : State) (ctx clu need va : Nat) (sup : Bool) (g : Option Nat) (r : Tr) (e : _),
    r = translate s ctx sup g clu need va ∧
    let region := va / 2 ^ 72 % 256
    region < 0xF0 ∧ tlbGet s g clu ctx (pageOf va) = some e ∧
    ¬(e.p = true ∧ sup = false) ∧
    need = 1 ∧ e.w = false  := by
  let s := mapping (page false true true 0x10000) State.reset
  refine ⟨s, 0, 79, 1, 0xFFFF, true, some 632, translate s 0 true (some 632) 79 1 0xFFFF, page false true true 0x10000, ?_⟩
  repeat' apply And.intro
  all_goals decide +kernel

theorem witness_no_execute_page :
    ∃ (s : State) (ctx clu need va : Nat) (sup : Bool) (g : Option Nat) (r : Tr) (e : _),
    r = translate s ctx sup g clu need va ∧
    let region := va / 2 ^ 72 % 256
    region < 0xF0 ∧ tlbGet s g clu ctx (pageOf va) = some e ∧
    ¬(e.p = true ∧ sup = false) ∧
    need = 2 ∧ e.x = false  := by
  let s := mapping (page true false true 0x10000) State.reset
  refine ⟨s, 0, 79, 2, 0xFFFF, true, some 632, translate s 0 true (some 632) 79 2 0xFFFF, page true false true 0x10000, ?_⟩
  repeat' apply And.intro
  all_goals decide +kernel

theorem witness_unpopulated_page :
    ∃ (s : State) (ctx clu need va : Nat) (sup : Bool) (g : Option Nat) (r : Tr) (e : _),
    r = translate s ctx sup g clu need va ∧
    let region := va / 2 ^ 72 % 256
    region < 0xF0 ∧ tlbGet s g clu ctx (pageOf va) = some e ∧
    ¬(e.p = true ∧ sup = false) ∧ ¬(need = 1 ∧ e.w = false) ∧ ¬(need = 2 ∧ e.x = false) ∧
        let pa := e.pa + va % 2 ^ (16 + leafShift e.lvl)
    (populated s.mod.cxl (pa / 2 ^ 16 * 2 ^ 16) = false ∨ s.mod.presence.getLsbD (pa / 2 ^ 50 % 64) = false)  := by
  let s := mapping (page true true true 0x10000000000) State.reset
  refine ⟨s, 0, 79, 2, 0xFFFF, true, some 632, translate s 0 true (some 632) 79 2 0xFFFF, page true true true 0x10000000000, ?_⟩
  repeat' apply And.intro
  all_goals decide +kernel

theorem witness_translated :
    ∃ (s : State) (ctx clu need va : Nat) (sup : Bool) (g : Option Nat) (r : Tr) (e : _),
    r = translate s ctx sup g clu need va ∧
    let region := va / 2 ^ 72 % 256
    region < 0xF0 ∧ tlbGet s g clu ctx (pageOf va) = some e ∧
    ¬(e.p = true ∧ sup = false) ∧ ¬(need = 1 ∧ e.w = false) ∧ ¬(need = 2 ∧ e.x = false) ∧
        let pa := e.pa + va % 2 ^ (16 + leafShift e.lvl)
    populated s.mod.cxl (pa / 2 ^ 16 * 2 ^ 16) = true ∧ s.mod.presence.getLsbD (pa / 2 ^ 50 % 64) = true  := by
  let s := mapping (page true true false 0xFFFFFF0000) State.reset
  refine ⟨s, 0, 79, 1, 0xFFFF, false, some 632, translate s 0 false (some 632) 79 1 0xFFFF, page true true false 0xFFFFFF0000, ?_⟩
  repeat' apply And.intro
  all_goals decide +kernel

theorem witness_translation_misses :
    ∃ (s : State) (ctx clu need va : Nat) (sup : Bool) (g : Option Nat) (r : Tr),
    r = translate s ctx sup g clu need va ∧
    let region := va / 2 ^ 72 % 256
    region < 0xF0 ∧ tlbGet s g clu ctx (pageOf va) = none  := by
  let s := State.reset
  refine ⟨s, 0, 79, 0, 0xEFFFFFFFFFFFFFFFFFFF, false, some 632, translate s 0 false (some 632) 79 0 0xEFFFFFFFFFFFFFFFFFFF, ?_⟩
  repeat' apply And.intro
  all_goals decide +kernel

theorem witness_reserved_regions :
    ∃ (s : State) (ctx clu need va : Nat) (sup : Bool) (g : Option Nat) (r : Tr),
    r = translate s ctx sup g clu need va ∧
    let region := va / 2 ^ 72 % 256
    0xF3 ≤ region ∧ region ≤ 0xFE  := by
  let s := State.reset
  refine ⟨s, 0, 79, 0, 0xFE000000000000000000, true, some 632, translate s 0 true (some 632) 79 0 0xFE000000000000000000, ?_⟩
  repeat' apply And.intro
  all_goals decide +kernel

theorem witness_vault_window :
    ∃ (s : State) (ctx clu need va : Nat) (sup : Bool) (g : Option Nat) (r : Tr),
    r = translate s ctx sup g clu need va ∧
    let region := va / 2 ^ 72 % 256
    region = 0xF0 ∧ need ≠ 2 ∧ va / 2 ^ 23 % 2 ^ 49 = 0  := by
  let s := State.reset
  refine ⟨s, 0, 79, 0, 0xF00000000000007FFFFF, false, some 632, translate s 0 false (some 632) 79 0 0xF00000000000007FFFFF, ?_⟩
  repeat' apply And.intro
  all_goals decide +kernel

theorem witness_system_window :
    ∃ (s : State) (ctx clu need va : Nat) (sup : Bool) (g : Option Nat) (r : Tr),
    r = translate s ctx sup g clu need va ∧
    let region := va / 2 ^ 72 % 256
    region = 0xFF ∧ need ≠ 2  := by
  let s := State.reset
  refine ⟨s, 0, 79, 0, 0xFF0000FFFFFFFFFFFFFF, true, some 632, translate s 0 true (some 632) 79 0 0xFF0000FFFFFFFFFFFFFF, ?_⟩
  repeat' apply And.intro
  all_goals decide +kernel

theorem witness_system_window_user :
    ∃ (s : State) (ctx clu need va : Nat) (sup : Bool) (g : Option Nat) (r : Tr),
    r = translate s ctx sup g clu need va ∧
    let region := va / 2 ^ 72 % 256
    region = 0xFF ∧ need ≠ 2  := by
  let s := State.reset
  refine ⟨s, 0, 79, 0, 0xFF000000000000000000, false, some 632, translate s 0 false (some 632) 79 0 0xFF000000000000000000, ?_⟩
  repeat' apply And.intro
  all_goals decide +kernel

theorem witness_walk_starts :
    ∃ (clu st : Nat) (s : State) (m : Miss) (i : _),
    (s.clu clu).misses = [m] ∧ m.st = st ∧ m.gen = (s.ctx m.ctx).gen ∧
    (s.die (dieOf clu)).walks = [] ∧ (s.die (dieOf clu)).wcache = [] ∧ tlbGet s none clu m.ctx m.page = none ∧
    let root := (s.ctx m.ctx).word 0 / 2 ^ 16 % 2 ^ 40 * 2 ^ 16
    let pa := root + 8 * (m.page / 2 ^ 52 % 4096)
    populated s.mod.cxl pa = true ∧ s.mod.presence.getLsbD (pa / 2 ^ 50 % 64) = true ∧
    ((st = 0 ∧ i = Instr.walkStart clu 0) ∨ (st = 1 ∧ i = Instr.walkSlotGrant clu))  := by
  let s := missed ⟨0, 0, 0xFFF0000000000000, false, false, 0⟩ (rooted State.reset)
  refine ⟨0, 0, s, ⟨0, 0, 0xFFF0000000000000, false, false, 0⟩, .walkStart 0 0, ?_⟩
  repeat' apply And.intro
  all_goals first | exact .inl ⟨rfl, rfl⟩ | exact .inr ⟨rfl, rfl⟩ | exact .inl ⟨rfl, rfl, by decide, by decide⟩ | exact .inr ⟨1, rfl, rfl, .inl rfl, by decide, by decide, by decide, by decide, by decide, by decide +kernel, by decide +kernel⟩ | decide +kernel | exact holdsNothing_of _ _ (by decide +kernel) (by decide +kernel) | exact oldest_of_nil _ (by decide +kernel) | exact ok_of _ _ (by decide +kernel) | exact error_of _ _ (by decide +kernel) | exact forall_of_nil _ _ (by decide +kernel) | exact trivial

theorem witness_walk_granted :
    ∃ (clu st : Nat) (s : State) (m : Miss) (i : _),
    (s.clu clu).misses = [m] ∧ m.st = st ∧ m.gen = (s.ctx m.ctx).gen ∧
    (s.die (dieOf clu)).walks = [] ∧ (s.die (dieOf clu)).wcache = [] ∧ tlbGet s none clu m.ctx m.page = none ∧
    let root := (s.ctx m.ctx).word 0 / 2 ^ 16 % 2 ^ 40 * 2 ^ 16
    let pa := root + 8 * (m.page / 2 ^ 52 % 4096)
    populated s.mod.cxl pa = true ∧ s.mod.presence.getLsbD (pa / 2 ^ 50 % 64) = true ∧
    ((st = 0 ∧ i = Instr.walkStart clu 0) ∨ (st = 1 ∧ i = Instr.walkSlotGrant clu))  := by
  let s := missed ⟨0, 0, 0xFFF0000000000000, false, false, 1⟩ (rooted State.reset)
  refine ⟨0, 1, s, ⟨0, 0, 0xFFF0000000000000, false, false, 1⟩, .walkSlotGrant 0, ?_⟩
  repeat' apply And.intro
  all_goals first | exact .inl ⟨rfl, rfl⟩ | exact .inr ⟨rfl, rfl⟩ | exact .inl ⟨rfl, rfl, by decide, by decide⟩ | exact .inr ⟨1, rfl, rfl, .inl rfl, by decide, by decide, by decide, by decide, by decide, by decide +kernel, by decide +kernel⟩ | decide +kernel | exact holdsNothing_of _ _ (by decide +kernel) (by decide +kernel) | exact oldest_of_nil _ (by decide +kernel) | exact ok_of _ _ (by decide +kernel) | exact error_of _ _ (by decide +kernel) | exact forall_of_nil _ _ (by decide +kernel) | exact trivial

theorem witness_walk_cache :
    ∃ (die j e : Nat) (s : State) (w : Walk),
    tget (s.die die).walks j = some w ∧ w.msg = none ∧ w.leaf = none ∧ w.lvl < 5 ∧
    (s.die die).wcache = [((w.ctx, w.lvl, lvlTag w.page w.lvl), e)] ∧ e.testBit 0 = true ∧ e < 2 ^ 56 ∧
    e.testBit 11 = false ∧ tabWf (s.die die).walks = true ∧
    let pa := e / 2 ^ 16 * 2 ^ 16 + 8 * lvlIndex w.page (w.lvl + 1)
    populated s.mod.cxl pa = true ∧ s.mod.presence.getLsbD (pa / 2 ^ 50 % 64) = true  := by
  let s := walking (walk0 1) [((0, 1, lvlTag 0xFFF0000000000000 1), 0x20001)] (rooted State.reset)
  refine ⟨0, 0, 0x20001, s, walk0 1, ?_⟩
  repeat' apply And.intro
  all_goals decide +kernel

theorem witness_walk_entry :
    ∃ (die j n e clu : Nat) (s : State) (w : Walk) (m : Msg) (c : Miss) (i : Instr),
    (s.die die).walks = [(j, w)] ∧
    w.msg = some n ∧ s.msg n = some m ∧ m.kind = .reply ∧ m.data.length = 8 ∧ leNat (m.data.map (·.getD 0)) = e ∧
    w.clus = [clu] ∧ w.real = [clu] ∧ (s.clu clu).misses = [c] ∧ c.ctx = w.ctx ∧ c.page = w.page ∧ c.gen = w.gen ∧ c.st = 2 ∧
    s.thrs = [] ∧ w.lvl = 5 ∧
    let valid := e.testBit 0 = true ∧ e < 2 ^ 56 ∧ e.testBit 11 = true ∧ e / 256 % 8 < 3 ∧ paKind (e / 2 ^ 16 * 2 ^ 16) < 2 ∧
      populated s.mod.cxl (e / 2 ^ 16 * 2 ^ 16) = true ∧ s.mod.presence.getLsbD (e / 2 ^ 50) = true
    ((w.leaf = none ∧ i = .walkEntryRead die j ∧ e.testBit 1 = true ∧ (w.setD = true → w.w = true → e.testBit 2 = true)) ∨
      (∃ d, w.leaf = some (e, d) ∧ i = .accessedDirtyUpdate die j ∧ (d = 1 ∨ (d = 0 ∧ w.setD = false)) ∧ valid))  := by
  let s := waiting (missed ⟨0, 0, 0xFFF0000000000000, true, false, 2⟩ (walking { walk0 5 with msg := some 0, setD := true } [] (rooted State.reset)))
  refine ⟨0, 0, 0, 0x2081F, 0, s, { walk0 5 with msg := some 0, setD := true }, entryMsg 0x2081F, ⟨0, 0, 0xFFF0000000000000, true, false, 2⟩, .walkEntryRead 0 0, ?_⟩
  repeat' apply And.intro
  all_goals first | exact .inl ⟨rfl, rfl⟩ | exact .inr ⟨rfl, rfl⟩ | exact .inl ⟨rfl, rfl, by decide, by decide⟩ | exact .inr ⟨1, rfl, rfl, .inl rfl, by decide, by decide, by decide, by decide, by decide, by decide +kernel, by decide +kernel⟩ | decide +kernel | exact holdsNothing_of _ _ (by decide +kernel) (by decide +kernel) | exact oldest_of_nil _ (by decide +kernel) | exact ok_of _ _ (by decide +kernel) | exact error_of _ _ (by decide +kernel) | exact forall_of_nil _ _ (by decide +kernel) | exact trivial

theorem witness_walk_update :
    ∃ (die j n e clu : Nat) (s : State) (w : Walk) (m : Msg) (c : Miss) (i : Instr),
    (s.die die).walks = [(j, w)] ∧
    w.msg = some n ∧ s.msg n = some m ∧ m.kind = .reply ∧ m.data.length = 8 ∧ leNat (m.data.map (·.getD 0)) = e ∧
    w.clus = [clu] ∧ w.real = [clu] ∧ (s.clu clu).misses = [c] ∧ c.ctx = w.ctx ∧ c.page = w.page ∧ c.gen = w.gen ∧ c.st = 2 ∧
    s.thrs = [] ∧ w.lvl = 5 ∧
    let valid := e.testBit 0 = true ∧ e < 2 ^ 56 ∧ e.testBit 11 = true ∧ e / 256 % 8 < 3 ∧ paKind (e / 2 ^ 16 * 2 ^ 16) < 2 ∧
      populated s.mod.cxl (e / 2 ^ 16 * 2 ^ 16) = true ∧ s.mod.presence.getLsbD (e / 2 ^ 50) = true
    ((w.leaf = none ∧ i = .walkEntryRead die j ∧ e.testBit 1 = true ∧ (w.setD = true → w.w = true → e.testBit 2 = true)) ∨
      (∃ d, w.leaf = some (e, d) ∧ i = .accessedDirtyUpdate die j ∧ (d = 1 ∨ (d = 0 ∧ w.setD = false)) ∧ valid))  := by
  let s := waiting (missed ⟨0, 0, 0xFFF0000000000000, true, false, 2⟩ (walking { walk0 5 with msg := some 0, setD := true, leaf := some (0x2081F, 1) } [] (rooted State.reset)))
  refine ⟨0, 0, 0, 0x2081F, 0, s, { walk0 5 with msg := some 0, setD := true, leaf := some (0x2081F, 1) }, entryMsg 0x2081F, ⟨0, 0, 0xFFF0000000000000, true, false, 2⟩, .accessedDirtyUpdate 0 0, ?_⟩
  repeat' apply And.intro
  all_goals first | exact .inl ⟨rfl, rfl⟩ | exact .inr ⟨rfl, rfl⟩ | exact .inl ⟨rfl, rfl, by decide, by decide⟩ | exact .inr ⟨1, rfl, rfl, .inl rfl, by decide, by decide, by decide, by decide, by decide, by decide +kernel, by decide +kernel⟩ | decide +kernel | exact holdsNothing_of _ _ (by decide +kernel) (by decide +kernel) | exact oldest_of_nil _ (by decide +kernel) | exact ok_of _ _ (by decide +kernel) | exact error_of _ _ (by decide +kernel) | exact forall_of_nil _ _ (by decide +kernel) | exact trivial

/-! ### Homes, copies and vaults -/

/-- The line of address 0x1000 is in its home's L2, and grid 639 waits for message 0. -/
def homeS : State := { State.reset with l2 := [0x40], grids := [(639, { Grid.reset with mshr := [0] })], fresh := 1 }
/-- A request of grid 639 for address 0x1000. -/
def homeMsg (k : MKind) : Msg := { Msg.mk0 k (.acc 2556 0 5 0) with pa := 0x1000, len := 8, agent := 640 }
/-- A committed store of that grid. -/
def storeMsg : Msg := { homeMsg .wtUcStore with src := .store 639 2559 }
/-- It is the only message. -/
def arrive (m : Msg) (s : State) : State := { s with net := [(0, m)] }
/-- The line of address 0x1000 is owned. -/
def ownedBy (g : Nat) (s : State) : State := { s with dirs := [(0x40, { Dir.none with st := .e, owner := g })] }
/-- A recall of the line of address 0x1000 from grid 639. -/
def recallMsg (inv : Bool) : Msg :=
  { Msg.mk0 .recall .dog with pa := 0x1000, agent := 639, takes := 1, wr := inv }
/-- An own exclusive copy of that line, with dirty granules. -/
def copy64 (d : BitVec 4) : L1Line := ⟨0x40, 1, true, d, (List.range 64).map (BitVec.ofNat 8), 0⟩
/-- The recall has reached grid 639, which holds some lines. -/
def recalled (m : Msg) (l : List L1Line) : State :=
  { State.reset with net := [(0, m)], grids := [(639, { Grid.reset with l1 := l })] }
/-- The acknowledgement of a downgraded owner. -/
def ackMsg : Msg :=
  { Msg.mk0 .recallAck .dog with pa := 0x1000, agent := 7, takes := 1, par := 0, data := List.replicate 64 (some 8) }
/-- A load of eight bytes. -/
def loadI : Instr := .ldd ⟨0, 0, 0x38, 1⟩
/-- See `loadI`. -/
def loadAcc : Acc := (accOf loadI).getD ⟨0, 0, 0, 0, 0, 0, false⟩
/-- Its part, asked for, of which an older store of its thread has forwarded one byte. -/
def sentPart : Machine.Part :=
  ⟨0x38, 0, 8, some 0xEE :: List.replicate 7 none, some 0x1038, 1, 0, .sent 0, Sig.empty⟩
/-- See `sentPart`. -/
def sentOp : Op := { Op.mk0 loadI 5 (some 0) (.s 0) .null .null with parts := [sentPart] }
/-- The reply that brings the line. -/
def replyMsg : Msg :=
  { lineMsg with src := .acc 0 0 5 0, pa := 0x1000, agent := 1, sub := 2, cls := 1 }
/-- The load waits for it. -/
def replied (s : State) : State :=
  { onFr s fun f => { f with fired := [5], ops := [sentOp] } with
    net := [(0, replyMsg)], grids := [(0, { Grid.reset with mshr := [0] })] }
/-- A compare and swap of eight bytes. -/
def atomI : Instr := .acas ⟨0, 0x1FF, 1, 8, 0, 0, 0, 4, 0, 3, 0⟩
/-- See `atomI`. -/
def atomAcc : Acc := (accOf atomI).getD ⟨0, 0, 0, 0, 0, 0, false⟩
/-- Its part. -/
def atomPart : Machine.Part := ⟨0x38, 0, 8, [], some 0x1038, 1, 0, .want, Sig.empty⟩
/-- See `atomPart`. -/
def atomOp : Op := { Op.mk0 atomI 5 (some 0) (.s 0) (.s 1) (.s 2) with parts := [atomPart] }
/-- It has fired. -/
def atomicFired (s : State) : State := onFr s fun f => { f with fired := [5], ops := [atomOp] }
/-- A vault of cluster 79 that a request of grid 639 reaches. -/
def vaultS : State := { State.reset with grids := [(639, { Grid.reset with mshr := [0] })], fresh := 1 }
/-- A load at offset 0x100 of that vault. -/
def vaultMsg : Msg :=
  { Msg.mk0 .vault (.acc 2556 0 5 0) with pa := 2 ^ 49 + 79 * 2 ^ 23 + 0x100, len := 8, agent := 640, node := 88 }
/-- A store that a reservation holds up. -/
def lateMsg : Msg :=
  { Msg.mk0 .wtUcStore (.store 0 0) with pa := 0x103C, len := 8, data := List.replicate 8 (some 9), wr := true, st := 1 }
/-- The reservation was placed 512 cycles ago. -/
def brokenS (s : State) : State :=
  { s with net := [(0, lateMsg)], cyc := [(0, 512)], l2 := [0x40], queues := [(0x40, [0])],
           resvs := [⟨0, 0, 5, 0x1038, List.replicate 8 1⟩] }
/-- The signature that matches every line. -/
def fullSig : Sig := ⟨BitVec.allOnes 1024, 1025, true⟩
/-- A purge of unit 3 runs and message 0, its write-back, is gone. -/
def purging (s : State) : State := { s with mod := { s.mod with purge := some ([3], [0]) } }
/-- An engine's request for a line. -/
def engM (pa : Nat) : Msg := { Msg.mk0 .engOwn (.eng 0 0 0) with pa := pa, len := 64, wr := true }

theorem witness_own_load_served :
    ∃ (n : Nat) (s : State) (m : Msg),
    AtHome s n m ∧
    let line := lineOf m.pa
    let g := (m.agent - 1) % 640
    let d := s.dir 0 line
    HasReg s n m ∧ m.kind = .ownLoad ∧ m.wr = false ∧ d.st ≠ .e  := by
  let s := arrive (homeMsg .ownLoad) (homeS)
  refine ⟨0, s, homeMsg .ownLoad, ?_⟩
  try dsimp only [Fires, HasTok, Arrived, FreshOp, FreshAt, Solo, AtHome, AtVault, HasReg, Untracked, Turn, Quiet, Calm, RoleOk, DistinctWrites, ReadyPlain]
  repeat' apply And.intro
  all_goals first | decide +kernel | exact holdsNothing_of _ _ (by decide +kernel) (by decide +kernel) | exact oldest_of_nil _ (by decide +kernel) | exact ok_of _ _ (by decide +kernel) | exact error_of _ _ (by decide +kernel) | exact forall_of_nil _ _ (by decide +kernel) | exact trivial

theorem witness_ownership_served :
    ∃ (n : Nat) (s : State) (m : Msg),
    AtHome s n m ∧
    let line := lineOf m.pa
    let g := (m.agent - 1) % 640
    let d := s.dir 0 line
    HasReg s n m ∧ m.kind = .ownership ∧ Untracked d  := by
  let s := arrive (homeMsg .ownership) (homeS)
  refine ⟨0, s, homeMsg .ownership, ?_⟩
  try dsimp only [Fires, HasTok, Arrived, FreshOp, FreshAt, Solo, AtHome, AtVault, HasReg, Untracked, Turn, Quiet, Calm, RoleOk, DistinctWrites, ReadyPlain]
  repeat' apply And.intro
  all_goals first | decide +kernel | exact holdsNothing_of _ _ (by decide +kernel) (by decide +kernel) | exact oldest_of_nil _ (by decide +kernel) | exact ok_of _ _ (by decide +kernel) | exact error_of _ _ (by decide +kernel) | exact forall_of_nil _ _ (by decide +kernel) | exact trivial

theorem witness_wt_load_served :
    ∃ (n : Nat) (s : State) (m : Msg),
    AtHome s n m ∧
    let line := lineOf m.pa
    let g := (m.agent - 1) % 640
    let d := s.dir 0 line
    HasReg s n m ∧ m.kind = .wtSiLoad ∧ m.wr = false ∧ d.st ≠ .e  := by
  let s := arrive (homeMsg .wtSiLoad) (homeS)
  refine ⟨0, s, homeMsg .wtSiLoad, ?_⟩
  try dsimp only [Fires, HasTok, Arrived, FreshOp, FreshAt, Solo, AtHome, AtVault, HasReg, Untracked, Turn, Quiet, Calm, RoleOk, DistinctWrites, ReadyPlain]
  repeat' apply And.intro
  all_goals first | decide +kernel | exact holdsNothing_of _ _ (by decide +kernel) (by decide +kernel) | exact oldest_of_nil _ (by decide +kernel) | exact ok_of _ _ (by decide +kernel) | exact error_of _ _ (by decide +kernel) | exact forall_of_nil _ _ (by decide +kernel) | exact trivial

theorem witness_uc_load_served :
    ∃ (n : Nat) (s : State) (m : Msg),
    AtHome s n m ∧
    let line := lineOf m.pa
    let g := (m.agent - 1) % 640
    let d := s.dir 0 line
    HasReg s n m ∧ m.kind = .ucLoad ∧ m.wr = false ∧ d.st ≠ .e  := by
  let s := arrive (homeMsg .ucLoad) (homeS)
  refine ⟨0, s, homeMsg .ucLoad, ?_⟩
  try dsimp only [Fires, HasTok, Arrived, FreshOp, FreshAt, Solo, AtHome, AtVault, HasReg, Untracked, Turn, Quiet, Calm, RoleOk, DistinctWrites, ReadyPlain]
  repeat' apply And.intro
  all_goals first | decide +kernel | exact holdsNothing_of _ _ (by decide +kernel) (by decide +kernel) | exact oldest_of_nil _ (by decide +kernel) | exact ok_of _ _ (by decide +kernel) | exact error_of _ _ (by decide +kernel) | exact forall_of_nil _ _ (by decide +kernel) | exact trivial

theorem witness_store_served :
    ∃ (n : Nat) (s : State) (m : Msg),
    AtHome s n m ∧
    let line := lineOf m.pa
    let g := (m.agent - 1) % 640
    let d := s.dir 0 line
    HasReg s n m ∧ m.kind = .wtUcStore ∧ Untracked d ∧ 0 < m.len ∧ Memory.wf s.mem = true  := by
  let s := arrive ({ homeMsg .wtUcStore with data := [some 5], len := 1 }) (homeS)
  refine ⟨0, s, { homeMsg .wtUcStore with data := [some 5], len := 1 }, ?_⟩
  try dsimp only [Fires, HasTok, Arrived, FreshOp, FreshAt, Solo, AtHome, AtVault, HasReg, Untracked, Turn, Quiet, Calm, RoleOk, DistinctWrites, ReadyPlain]
  repeat' apply And.intro
  all_goals first | decide +kernel | exact holdsNothing_of _ _ (by decide +kernel) (by decide +kernel) | exact oldest_of_nil _ (by decide +kernel) | exact ok_of _ _ (by decide +kernel) | exact error_of _ _ (by decide +kernel) | exact forall_of_nil _ _ (by decide +kernel) | exact trivial

theorem witness_si_write_back_served :
    ∃ (n : Nat) (s : State) (m : Msg),
    AtHome s n m ∧
    let line := lineOf m.pa
    let g := (m.agent - 1) % 640
    let d := s.dir 0 line
    m.kind = .siWb ∧ (HasReg s n m ∨ m.isStore = false) ∧ Untracked d ∧ Memory.wf s.mem = true  := by
  let s := arrive ({ homeMsg .siWb with data := [some 5], len := 1 }) (homeS)
  refine ⟨0, s, { homeMsg .siWb with data := [some 5], len := 1 }, ?_⟩
  dsimp only [AtHome, HasReg, Untracked, NoneGranted]
  repeat' apply And.intro
  all_goals decide +kernel

theorem witness_own_write_back_served :
    ∃ (n : Nat) (s : State) (m : Msg),
    AtHome s n m ∧
    let line := lineOf m.pa
    let g := (m.agent - 1) % 640
    let d := s.dir 0 line
    m.kind = .ownWb ∧ m.sub = 1 ∧ d.st = .e ∧ d.owner = g ∧ Memory.wf s.mem = true  := by
  let s := arrive ({ homeMsg .ownWb with data := [some 5], len := 1, sub := 1 }) (ownedBy 639 homeS)
  refine ⟨0, s, { homeMsg .ownWb with data := [some 5], len := 1, sub := 1 }, ?_⟩
  dsimp only [AtHome, NoneGranted]
  repeat' apply And.intro
  all_goals decide +kernel

theorem witness_own_load_recalls :
    ∃ (n : Nat) (s : State) (m : Msg) (i : _),
    AtHome s n m ∧
    let line := lineOf m.pa
    let g := (m.agent - 1) % 640
    let d := s.dir 0 line
    HasReg s n m ∧ d.st = .e ∧ d.own.members = [] ∧ s.fresh ≠ n ∧
      ((m.kind = .ownLoad ∧ m.wr = false ∧ i = Instr.ownLoadMiss n) ∨ (m.kind = .ownership ∧ i = Instr.ownershipRequest n))  := by
  let s := arrive (homeMsg .ownLoad) (ownedBy 7 homeS)
  refine ⟨0, s, homeMsg .ownLoad, .ownLoadMiss 0, ?_⟩
  try dsimp only [Fires, HasTok, Arrived, FreshOp, FreshAt, Solo, AtHome, AtVault, HasReg, Untracked, Turn, Quiet, Calm, RoleOk, DistinctWrites, ReadyPlain]
  repeat' apply And.intro
  all_goals first | decide +kernel | exact .inl ⟨rfl, rfl, rfl⟩ | exact holdsNothing_of _ _ (by decide +kernel) (by decide +kernel) | exact oldest_of_nil _ (by decide +kernel) | exact ok_of _ _ (by decide +kernel) | exact error_of _ _ (by decide +kernel) | exact forall_of_nil _ _ (by decide +kernel) | exact trivial

theorem witness_ownership_recalls :
    ∃ (n : Nat) (s : State) (m : Msg) (i : _),
    AtHome s n m ∧
    let line := lineOf m.pa
    let g := (m.agent - 1) % 640
    let d := s.dir 0 line
    HasReg s n m ∧ d.st = .e ∧ d.own.members = [] ∧ s.fresh ≠ n ∧
      ((m.kind = .ownLoad ∧ m.wr = false ∧ i = Instr.ownLoadMiss n) ∨ (m.kind = .ownership ∧ i = Instr.ownershipRequest n))  := by
  let s := arrive (homeMsg .ownership) (ownedBy 7 homeS)
  refine ⟨0, s, homeMsg .ownership, .ownershipRequest 0, ?_⟩
  try dsimp only [Fires, HasTok, Arrived, FreshOp, FreshAt, Solo, AtHome, AtVault, HasReg, Untracked, Turn, Quiet, Calm, RoleOk, DistinctWrites, ReadyPlain]
  repeat' apply And.intro
  all_goals first | decide +kernel | exact .inr ⟨rfl, rfl⟩ | exact holdsNothing_of _ _ (by decide +kernel) (by decide +kernel) | exact oldest_of_nil _ (by decide +kernel) | exact ok_of _ _ (by decide +kernel) | exact error_of _ _ (by decide +kernel) | exact forall_of_nil _ _ (by decide +kernel) | exact trivial

theorem witness_recall_absent :
    ∃ (n : Nat) (s : State) (m : Msg),
    s.net = [(n, m)] ∧ m.kind = .recall ∧ m.st = 0 ∧ m.agent < 640 ∧
    let line := lineOf m.pa
    let g := agentGrid m.node line m.agent
    (∀ e ∈ s.thrs, cluOf e.1 ≠ cluOfGrid g) ∧ (s.grid g).wb.length < 8 ∧
    (s.grid g).line line = none  := by
  let s := recalled (recallMsg true) ([])
  refine ⟨0, s, recallMsg true, ?_⟩
  repeat' apply And.intro
  all_goals decide +kernel

theorem witness_recall_dirty :
    ∃ (n : Nat) (s : State) (m : Msg) (y : _),
    s.net = [(n, m)] ∧ m.kind = .recall ∧ m.st = 0 ∧ m.agent < 640 ∧
    let line := lineOf m.pa
    let g := agentGrid m.node line m.agent
    (∀ e ∈ s.thrs, cluOf e.1 ≠ cluOfGrid g) ∧ (s.grid g).wb.length < 8 ∧
    (s.grid g).line line = some y ∧ y.cls = 1 ∧ m.takes % 2 = 1 ∧ m.wr = true  := by
  let s := recalled (recallMsg true) ([copy64 9])
  refine ⟨0, s, recallMsg true, copy64 9, ?_⟩
  repeat' apply And.intro
  all_goals decide +kernel

theorem witness_recall_clean :
    ∃ (n : Nat) (s : State) (m : Msg) (y : _),
    s.net = [(n, m)] ∧ m.kind = .recall ∧ m.st = 0 ∧ m.agent < 640 ∧
    let line := lineOf m.pa
    let g := agentGrid m.node line m.agent
    (∀ e ∈ s.thrs, cluOf e.1 ≠ cluOfGrid g) ∧ (s.grid g).wb.length < 8 ∧
    (s.grid g).line line = some y ∧ y.cls = 1 ∧ m.takes % 2 = 1 ∧ m.wr = true  := by
  let s := recalled (recallMsg true) ([copy64 0])
  refine ⟨0, s, recallMsg true, copy64 0, ?_⟩
  repeat' apply And.intro
  all_goals decide +kernel

theorem witness_recall_downgrades :
    ∃ (n : Nat) (s : State) (m : Msg) (y : _),
    s.net = [(n, m)] ∧ m.kind = .recall ∧ m.st = 0 ∧ m.agent < 640 ∧
    let line := lineOf m.pa
    let g := agentGrid m.node line m.agent
    (∀ e ∈ s.thrs, cluOf e.1 ≠ cluOfGrid g) ∧ (s.grid g).wb.length < 8 ∧
    (s.grid g).line line = some y ∧ y.excl = true ∧ m.wr = false  := by
  let s := recalled (recallMsg false) ([copy64 9])
  refine ⟨0, s, recallMsg false, copy64 9, ?_⟩
  repeat' apply And.intro
  all_goals decide +kernel

theorem witness_recall_answered :
    ∃ (n p : Nat) (s : State) (m q : Msg),
    n ≠ p ∧ s.net = [(p, q), (n, m)] ∧ m.kind = .recallAck ∧ m.st = 0 ∧ m.par = p ∧
    m.agent < 640 ∧ m.takes = 1 ∧ m.wr = false ∧ lineOf m.pa = lineOf q.pa ∧ q.kind = .ownLoad ∧ q.st = 2 ∧ q.node = 0 ∧
    q.wr = false ∧ 1 ≤ q.agent ∧ (q.agent - 1) / 640 = homeDie q.pa ∧ q.src.outside = false ∧ paPkg q.pa = s.mod.pkg ∧
    s.queue (lineOf q.pa) = [p] ∧ lineOf q.pa ∈ s.l2 ∧ s.resvs = [] ∧ (s.dir 0 (lineOf q.pa)).st = .e ∧
    (s.dir 0 (lineOf q.pa)).owner = m.agent ∧ Memory.wf s.mem = true  := by
  let s := ownedBy 7 { homeS with net := [(0, { homeMsg .ownLoad with st := 2 }), (1, ackMsg)], queues := [(0x40, [0])] }
  refine ⟨1, 0, s, ackMsg, { homeMsg .ownLoad with st := 2 }, ?_⟩
  repeat' apply And.intro
  all_goals decide +kernel

theorem witness_fill :
    ∃ (n : Nat) (s : State) (m : Msg),
    s.net = [(n, m)] ∧ m.kind = .ownLoad ∧ m.st = 1 ∧ m.node = 0 ∧ m.wr = false ∧
    1 ≤ m.agent ∧ (m.agent - 1) / 640 = homeDie m.pa ∧ m.src.outside = false ∧ s.queue (lineOf m.pa) = [n] ∧
    lineOf m.pa ∉ s.l2 ∧ s.resvs = [] ∧ (s.dir 0 (lineOf m.pa)).st ≠ .e ∧ (s.dir 0 (lineOf m.pa)).st ≠ .eo ∧
    paPkg m.pa = s.mod.pkg ∧ (l2Set s 0 (lineOf m.pa)).length < 16  := by
  let s := { homeS with l2 := [], net := [(0, { homeMsg .ownLoad with st := 1 })], queues := [(0x40, [0])] }
  refine ⟨0, s, { homeMsg .ownLoad with st := 1 }, ?_⟩
  repeat' apply And.intro
  all_goals decide +kernel

theorem witness_reply_comes :
    ∃ (n v k : Nat) (s : State) (m : Msg) (t : Thread) (f : Frame) (o : Op) (p : Part) (x : Acc) (l pa : Nat),
    s.msg n = some m ∧ m.kind = .reply ∧ m.sub = 2 ∧ m.takes = 0 ∧ 1 ≤ m.agent ∧ m.src = .acc k f.seq o.slot 0 ∧
    (s.ctx m.ctx).gen = m.gen ∧ m.data.length = 64 ∧ m.poison = 0 ∧ m.pa = 64 * lineOf pa ∧
    ((s.grid (m.agent - 1)).setOf (lineOf pa)).length < 8 ∧ (s.grid (m.agent - 1)).line (lineOf pa) = none ∧
    s.thrs = [(k, t)] ∧ t.frames = [f] ∧ f.ops = [o] ∧ o.parts = [p] ∧ p.st = .sent n ∧ p.pa = some pa ∧ p.kind = 0 ∧ p.off = 0 ∧
    p.len = x.size ∧ pa % 64 + p.len ≤ 64 ∧ o.ans = none ∧ o.lsid = some l ∧ memForm o.i = some (false, false, l) ∧
    accOf o.i = some x ∧ x.kind = 0 ∧ x.fe = 0 ∧ x.ord = 0 ∧ o.i.wellFormed = true  := by
  let s := replied (at5 loadI [])
  refine ⟨0, 0, 0, s, replyMsg, th s, fr s, sentOp, sentPart, loadAcc, 0, 0x1038, ?_⟩
  repeat' apply And.intro
  all_goals decide +kernel

theorem witness_ack_comes :
    ∃ (n : Nat) (s : State) (m : Msg),
    s.net = [(n, m)] ∧ m.kind = .ack ∧ m.st = 0 ∧ 1 ≤ m.agent ∧ (∀ c u d, m.src ≠ .eng c u d)  := by
  let s := arrive (homeMsg .ack) homeS
  refine ⟨0, s, homeMsg .ack, ?_⟩
  try dsimp only [Fires, HasTok, Arrived, FreshOp, FreshAt, Solo, AtHome, AtVault, HasReg, Untracked, Turn, Quiet, Calm, RoleOk, DistinctWrites, ReadyPlain]
  repeat' apply And.intro
  all_goals first | decide +kernel | exact fun _ _ _ h => by simp [homeMsg, Msg.mk0] at h | exact holdsNothing_of _ _ (by decide +kernel) (by decide +kernel) | exact oldest_of_nil _ (by decide +kernel) | exact ok_of _ _ (by decide +kernel) | exact error_of _ _ (by decide +kernel) | exact forall_of_nil _ _ (by decide +kernel) | exact trivial

theorem witness_store_register :
    ∃ (n k q i : Nat) (s : State) (m : Msg),
    s.net = [(n, m)] ∧ m.st = 0 ∧ m.isStore = true ∧ m.kind ≠ .siWb ∧ m.kind ≠ .ownWb ∧
    m.agent = gridOfThr k + 1 ∧ m.grp = none ∧ s.thr k = none ∧ n ∉ (s.grid (gridOfThr k)).mshr ∧ n ∉ (s.grid (gridOfThr k)).fetchReg ∧
    (s.grid (gridOfThr k)).mshr.length < 32  := by
  let s := { State.reset with net := [(0, storeMsg)], grids := [(639, { Grid.reset with mshr := List.range' 1 31 })] }
  refine ⟨0, 2559, 0, 0, s, storeMsg, ?_⟩
  repeat' apply And.intro
  all_goals decide +kernel

theorem witness_atomic_issues :
    ∃ (k l pa : Nat) (s : State) (t : Thread) (f : Frame) (o : Op) (p : Part) (x : Acc),
    s.thr k = some t ∧ t.frames = [f] ∧
    f.ops = [o] ∧ o.parts = [p] ∧ accOf o.i = some x ∧ x.kind = 2 ∧ o.lsid = some l ∧ p.st = .want ∧ p.pa = some pa ∧
    acquireOk t f l = true ∧ olderAcquire t f l = false ∧ fencesDue f l = [] ∧ f.below l (fun w _ => atomicWord w) = [] ∧
    lineHeld s k t f.seq (lineOf pa) true = false ∧
    (∀ g ∈ coreGrids (gridOfThr k) f.width, (s.grid g).line (lineOf pa) = none) ∧
    let g := slotGrid (gridOfThr k) f.width o.slot
    (s.grid g).mshr.length < 32 ∧ regOf s g (lineOf pa) = none  := by
  let s := atomicFired (at5 atomI [])
  refine ⟨0, 0, 0x1038, s, th s, fr s, atomOp, atomPart, atomAcc, ?_⟩
  repeat' apply And.intro
  all_goals decide +kernel

theorem witness_atomic_at_home :
    ∃ (n k q i j : Nat) (s : State) (m : Msg),
    ((AtHome s n m ∧ HasReg s n m ∧ Untracked (s.dir 0 (lineOf m.pa))) ∨
      (AtVault s n m ∧ m.st = 0)) ∧
    m.kind = .atomic ∧ m.src = .acc k q i j ∧ (m.len = 4 ∨ m.len = 8) ∧ m.data.length = m.len ∧ (∀ b ∈ m.data, b ≠ none) ∧
    m.arg < 2 ^ (8 * m.len) ∧ m.sub < 12 ∧ (∀ bs, ownBytes s k q i bs = bs)  := by
  let s := arrive ({ homeMsg .atomic with src := .acc 0 0 0 0, len := 8, data := List.replicate 8 (some 1), sub := 9, arg := 2 ^ 64 - 1 }) homeS
  have hf : s.frame 0 0 = none := by decide +kernel
  refine ⟨0, 0, 0, 0, 0, s, { homeMsg .atomic with src := .acc 0 0 0 0, len := 8, data := List.replicate 8 (some 1), sub := 9, arg := 2 ^ 64 - 1 }, ?_⟩
  dsimp only [AtHome, AtVault, HasReg, Untracked, NoneGranted]
  refine ⟨?_, ?_⟩
  · apply Or.inl
    repeat' apply And.intro
    all_goals decide +kernel
  · repeat' apply And.intro
    all_goals first | decide +kernel | (intro bs; simp [ownBytes, hf])

theorem witness_atomic_at_vault :
    ∃ (n k q i j : Nat) (s : State) (m : Msg),
    ((AtHome s n m ∧ HasReg s n m ∧ Untracked (s.dir 0 (lineOf m.pa))) ∨
      (AtVault s n m ∧ m.st = 0)) ∧
    m.kind = .atomic ∧ m.src = .acc k q i j ∧ (m.len = 4 ∨ m.len = 8) ∧ m.data.length = m.len ∧ (∀ b ∈ m.data, b ≠ none) ∧
    m.arg < 2 ^ (8 * m.len) ∧ m.sub < 12 ∧ (∀ bs, ownBytes s k q i bs = bs)  := by
  let s := arrive ({ vaultMsg with kind := .atomic, src := .acc 0 0 0 0, len := 4, data := List.replicate 4 (some 1), sub := 11 }) vaultS
  have hf : s.frame 0 0 = none := by decide +kernel
  refine ⟨0, 0, 0, 0, 0, s, { vaultMsg with kind := .atomic, src := .acc 0 0 0 0, len := 4, data := List.replicate 4 (some 1), sub := 11 }, ?_⟩
  dsimp only [AtHome, AtVault, HasReg, Untracked, NoneGranted]
  refine ⟨?_, ?_⟩
  · apply Or.inr
    repeat' apply And.intro
    all_goals decide +kernel
  · repeat' apply And.intro
    all_goals first | decide +kernel | (intro bs; simp [ownBytes, hf])

theorem witness_reservation_breaks :
    ∃ (n gran g u : Nat) (s : State) (m : Msg) (t : Thread) (f : Frame) (r : Resv),
    s.net = [(n, m)] ∧ m.kind = .wtUcStore ∧
    m.st = 1 ∧ m.wr = true ∧ m.node = 0 ∧ m.src = .store g u ∧ s.queue (lineOf m.pa) = [n] ∧ lineOf m.pa ∈ s.l2 ∧
    (s.dir 0 (lineOf m.pa)).st ≠ .eo ∧ Untracked (s.dir 0 (lineOf m.pa)) ∧ paPkg m.pa = s.mod.pkg ∧ paKind r.pa ≠ 2 ∧
    s.resvs = [r] ∧ s.holds = [] ∧ gran ∈ gransOf r.pa r.data.length ∧ lineOf r.pa = lineOf m.pa ∧
    (gransOf m.pa m.len).any (gransOf r.pa r.data.length).contains = true ∧ f.stage ≠ 2 ∧ 512 ≤ (nowAt s m - m.t0).toNat ∧ Solo s r.thr t ∧ t.frames = [f] ∧
    f.seq = r.seq ∧ f.ops = [] ∧ Memory.wf s.mem = true  := by
  let s := brokenS (at5 (.trap ⟨0, 7⟩) [])
  refine ⟨0, 0x103, 0, 0, s, lateMsg, th s, fr s, ⟨0, 0, 5, 0x1038, List.replicate 8 1⟩, ?_⟩
  repeat' apply And.intro
  all_goals decide +kernel

theorem witness_vault_load :
    ∃ (n : Nat) (s : State) (m : Msg) (i : Instr),
    AtVault s n m ∧ m.kind = .vault ∧
    ((m.st = 0 ∧ i = .vaultAccess n) ∨ (m.st = 3 ∧ i = .vaultRetry n)) ∧
    let gs := gransOf m.pa m.len
    m.wr = false ∧ (m.sub = 0 ∨ m.sub = 1 ∧ ∀ g ∈ gs, g ∈ s.full)  := by
  let s := { arrive ({ vaultMsg with len := 8 }) vaultS with full := [] }
  refine ⟨0, s, { vaultMsg with len := 8 }, .vaultAccess 0, ?_⟩
  try dsimp only [Fires, HasTok, Arrived, FreshOp, FreshAt, Solo, AtHome, AtVault, HasReg, Untracked, Turn, Quiet, Calm, RoleOk, DistinctWrites, ReadyPlain]
  repeat' apply And.intro
  all_goals first | decide +kernel | exact Or.inl ⟨by decide +kernel, rfl⟩ | exact .inl (by decide +kernel) | exact .inr (by decide +kernel) | exact .inr ⟨by decide +kernel, by decide +kernel⟩ | exact holdsNothing_of _ _ (by decide +kernel) (by decide +kernel) | exact oldest_of_nil _ (by decide +kernel) | exact ok_of _ _ (by decide +kernel) | exact error_of _ _ (by decide +kernel) | exact forall_of_nil _ _ (by decide +kernel) | exact trivial

theorem witness_vault_fe_load :
    ∃ (n : Nat) (s : State) (m : Msg) (i : Instr),
    AtVault s n m ∧ m.kind = .vault ∧
    ((m.st = 0 ∧ i = .vaultAccess n) ∨ (m.st = 3 ∧ i = .vaultRetry n)) ∧
    let gs := gransOf m.pa m.len
    m.wr = false ∧ (m.sub = 0 ∨ m.sub = 1 ∧ ∀ g ∈ gs, g ∈ s.full)  := by
  let s := { arrive ({ vaultMsg with len := 32, sub := 1 }) vaultS with full := [2 ^ 45 + 79 * 2 ^ 19 + 16, 2 ^ 45 + 79 * 2 ^ 19 + 17] }
  refine ⟨0, s, { vaultMsg with len := 32, sub := 1 }, .vaultAccess 0, ?_⟩
  try dsimp only [Fires, HasTok, Arrived, FreshOp, FreshAt, Solo, AtHome, AtVault, HasReg, Untracked, Turn, Quiet, Calm, RoleOk, DistinctWrites, ReadyPlain]
  repeat' apply And.intro
  all_goals first | decide +kernel | exact Or.inl ⟨by decide +kernel, rfl⟩ | exact .inl (by decide +kernel) | exact .inr (by decide +kernel) | exact .inr ⟨by decide +kernel, by decide +kernel⟩ | exact holdsNothing_of _ _ (by decide +kernel) (by decide +kernel) | exact oldest_of_nil _ (by decide +kernel) | exact ok_of _ _ (by decide +kernel) | exact error_of _ _ (by decide +kernel) | exact forall_of_nil _ _ (by decide +kernel) | exact trivial

theorem witness_vault_fec_load :
    ∃ (n : Nat) (s : State) (m : Msg) (i : Instr) (k : _) (q : _) (u : _) (v : _),
    AtVault s n m ∧ m.kind = .vault ∧
    ((m.st = 0 ∧ i = .vaultAccess n) ∨ (m.st = 3 ∧ i = .vaultRetry n)) ∧
    let gs := gransOf m.pa m.len
    m.wr = false ∧ m.sub = 2 ∧ (∀ g ∈ gs, g ∈ s.full) ∧ m.src = .acc k q u v  := by
  let s := { arrive ({ vaultMsg with len := 32, sub := 2, src := .acc 1 2 3 4 }) vaultS with full := [2 ^ 45 + 79 * 2 ^ 19 + 16, 2 ^ 45 + 79 * 2 ^ 19 + 17] }
  refine ⟨0, s, { vaultMsg with len := 32, sub := 2, src := .acc 1 2 3 4 }, .vaultAccess 0, 1, 2, 3, 4, ?_⟩
  try dsimp only [Fires, HasTok, Arrived, FreshOp, FreshAt, Solo, AtHome, AtVault, HasReg, Untracked, Turn, Quiet, Calm, RoleOk, DistinctWrites, ReadyPlain]
  repeat' apply And.intro
  all_goals first | decide +kernel | exact Or.inl ⟨by decide +kernel, rfl⟩ | exact .inl (by decide +kernel) | exact .inr (by decide +kernel) | exact .inr ⟨by decide +kernel, by decide +kernel⟩ | exact holdsNothing_of _ _ (by decide +kernel) (by decide +kernel) | exact oldest_of_nil _ (by decide +kernel) | exact ok_of _ _ (by decide +kernel) | exact error_of _ _ (by decide +kernel) | exact forall_of_nil _ _ (by decide +kernel) | exact trivial

theorem witness_vault_waits :
    ∃ (n : Nat) (s : State) (m : Msg) (i : Instr),
    AtVault s n m ∧ m.kind = .vault ∧
    ((m.st = 0 ∧ i = .vaultAccess n) ∨ (m.st = 3 ∧ i = .vaultRetry n)) ∧
    let gs := gransOf m.pa m.len
    m.wr = false ∧ (m.sub = 1 ∨ m.sub = 2) ∧ (∃ g ∈ gs, g ∉ s.full)  := by
  let s := { arrive ({ vaultMsg with st := 3, len := 32, sub := 2 }) vaultS with full := [2 ^ 45 + 79 * 2 ^ 19 + 16] }
  refine ⟨0, s, { vaultMsg with st := 3, len := 32, sub := 2 }, .vaultRetry 0, ?_⟩
  try dsimp only [Fires, HasTok, Arrived, FreshOp, FreshAt, Solo, AtHome, AtVault, HasReg, Untracked, Turn, Quiet, Calm, RoleOk, DistinctWrites, ReadyPlain]
  repeat' apply And.intro
  all_goals first | decide +kernel | exact Or.inr ⟨by decide +kernel, rfl⟩ | exact .inl (by decide +kernel) | exact .inr (by decide +kernel) | exact .inr ⟨by decide +kernel, by decide +kernel⟩ | exact holdsNothing_of _ _ (by decide +kernel) (by decide +kernel) | exact oldest_of_nil _ (by decide +kernel) | exact ok_of _ _ (by decide +kernel) | exact error_of _ _ (by decide +kernel) | exact forall_of_nil _ _ (by decide +kernel) | exact trivial

theorem witness_vault_fe_store :
    ∃ (n : Nat) (s : State) (m : Msg) (i : Instr) (k : _) (q : _) (u : _) (v : _),
    AtVault s n m ∧ m.kind = .vault ∧
    ((m.st = 0 ∧ i = .vaultAccess n) ∨ (m.st = 3 ∧ i = .vaultRetry n)) ∧
    let gs := gransOf m.pa m.len
    m.wr = true ∧ m.sub = 1 ∧ (∀ g ∈ gs, g ∉ s.full) ∧ m.src = .acc k q u v  := by
  let s := { arrive ({ vaultMsg with wr := true, len := 32, sub := 1, data := List.replicate 32 (some 5), src := .acc 1 2 3 4 }) vaultS with full := [] }
  refine ⟨0, s, { vaultMsg with wr := true, len := 32, sub := 1, data := List.replicate 32 (some 5), src := .acc 1 2 3 4 }, .vaultAccess 0, 1, 2, 3, 4, ?_⟩
  try dsimp only [Fires, HasTok, Arrived, FreshOp, FreshAt, Solo, AtHome, AtVault, HasReg, Untracked, Turn, Quiet, Calm, RoleOk, DistinctWrites, ReadyPlain]
  repeat' apply And.intro
  all_goals first | decide +kernel | exact Or.inl ⟨by decide +kernel, rfl⟩ | exact .inl (by decide +kernel) | exact .inr (by decide +kernel) | exact .inr ⟨by decide +kernel, by decide +kernel⟩ | exact holdsNothing_of _ _ (by decide +kernel) (by decide +kernel) | exact oldest_of_nil _ (by decide +kernel) | exact ok_of _ _ (by decide +kernel) | exact error_of _ _ (by decide +kernel) | exact forall_of_nil _ _ (by decide +kernel) | exact trivial

theorem witness_vault_fs_store :
    ∃ (n : Nat) (s : State) (m : Msg) (i : Instr),
    AtVault s n m ∧ m.kind = .vault ∧
    ((m.st = 0 ∧ i = .vaultAccess n) ∨ (m.st = 3 ∧ i = .vaultRetry n)) ∧
    let gs := gransOf m.pa m.len
    m.wr = true ∧ (m.sub = 0 ∨ m.sub = 2) ∧ Memory.wf s.mem = true  := by
  let s := { arrive ({ vaultMsg with wr := true, len := 32, sub := 2, data := List.replicate 32 (some 5) }) vaultS with full := [] }
  refine ⟨0, s, { vaultMsg with wr := true, len := 32, sub := 2, data := List.replicate 32 (some 5) }, .vaultAccess 0, ?_⟩
  try dsimp only [Fires, HasTok, Arrived, FreshOp, FreshAt, Solo, AtHome, AtVault, HasReg, Untracked, Turn, Quiet, Calm, RoleOk, DistinctWrites, ReadyPlain]
  repeat' apply And.intro
  all_goals first | decide +kernel | exact Or.inl ⟨by decide +kernel, rfl⟩ | exact .inl (by decide +kernel) | exact .inr (by decide +kernel) | exact .inr ⟨by decide +kernel, by decide +kernel⟩ | exact holdsNothing_of _ _ (by decide +kernel) (by decide +kernel) | exact oldest_of_nil _ (by decide +kernel) | exact ok_of _ _ (by decide +kernel) | exact error_of _ _ (by decide +kernel) | exact forall_of_nil _ _ (by decide +kernel) | exact trivial

theorem witness_purge_starts :
    ∃ (u : Nat) (s : State) (b : SigBuf),
    tget s.sigbufs u = some b ∧ b.ovf.all = true ∧ s.mod.purge = none ∧ s.thrs = []  := by
  let s := { State.reset with sigbufs := [(3, ⟨[], fullSig, 0⟩)], grids := [(5, { Grid.reset with l1 := [{ copy64 9 with cls := 3, excl := false }, copy64 9] })] }
  refine ⟨3, s, ⟨[], fullSig, 0⟩, ?_⟩
  repeat' apply And.intro
  all_goals decide +kernel

theorem witness_purge_ends :
    ∃ (s : State) (us ms : List Nat),
    s.mod.purge = some (us, ms) ∧
    (∀ n ∈ ms, ∀ m, s.msg n = some m → m.kind ≠ .siWb)  := by
  let s := purging State.reset
  refine ⟨s, [3], [0], ?_⟩
  refine ⟨by decide +kernel, ?_⟩
  intro n hn m hm
  rw [List.mem_singleton] at hn
  subst hn
  rw [show s.msg 0 = none by decide +kernel] at hm
  cases hm

theorem witness_engine_owns :
    ∃ (n c u j : Nat) (s : State) (m : Msg),
    s.net = [(n, m)] ∧ m.kind = .engOwn ∧ m.st = 0 ∧ m.node = 0 ∧ m.wr = true ∧
    m.agent = 0 ∧ m.src = .eng c u j ∧ dieOf c = homeDie m.pa ∧ (s.ctx m.ctx).gen = m.gen ∧ s.queue (lineOf m.pa) = [] ∧
    lineOf m.pa ∈ s.l2 ∧ s.resvs = [] ∧ s.dir 0 (lineOf m.pa) = Dir.none ∧ paPkg m.pa = s.mod.pkg ∧ NoneGranted s  := by
  let s := arrive (engM 0x1000) { homeS with grids := [] }
  refine ⟨0, 0, 0, 0, s, engM 0x1000, ?_⟩
  dsimp only [NoneGranted]
  repeat' apply And.intro
  all_goals decide +kernel

theorem witness_engine_owns_vault :
    ∃ (n c u j : Nat) (s : State) (m : Msg),
    s.net = [(n, m)] ∧ m.kind = .engOwn ∧ m.st = 0 ∧ 9 ≤ m.node ∧ m.wr = true ∧
    m.agent = 0 ∧ m.src = .eng c u j ∧ s.queue (nodeKey m.node 0) = [] ∧ s.resvs = [] ∧ s.holds = []  := by
  let s := arrive { engM 0x1000 with node := 88, pa := vaultMsg.pa, len := 512 } vaultS
  refine ⟨0, 0, 0, 0, s, { engM 0x1000 with node := 88, pa := vaultMsg.pa, len := 512 }, ?_⟩
  repeat' apply And.intro
  all_goals decide +kernel

theorem witness_engine_writes :
    ∃ (n c u j : Nat) (s : State) (m : Msg),
    s.msg n = some m ∧ m.kind = .engWrite ∧ m.node < 9 ∧ m.src = .eng c u j ∧
    (∀ e ∈ s.net, e.1 ≠ n → e.2.kind = .engWrite → e.2.src = m.src → lineOf e.2.pa ≠ lineOf m.pa) ∧ tabWf s.net = true ∧
    s.queues = [] ∧ paPkg m.pa = s.mod.pkg ∧ Memory.wf s.mem = true ∧ tabWf s.dirs = true ∧
    (s.dir 0 (lineOf m.pa)).st = .eo ∧ (s.dir 0 (lineOf m.pa)).up = .i  := by
  let s := arrive { engM 0x1000 with kind := .engWrite, data := none :: List.replicate 63 (some 3), len := 64 } { homeS with dirs := [(0x40, { Dir.none with st := .eo })] }
  refine ⟨0, 0, 0, 0, s, { engM 0x1000 with kind := .engWrite, data := none :: List.replicate 63 (some 3), len := 64 }, ?_⟩
  repeat' apply And.intro
  all_goals decide +kernel

theorem witness_refill :
    ∃ (i : Nat) (s : State),
    (tget s.mod.refills i).getD 0 < ((tget s.cyc i).getD 0).toNat / 256  := by
  let s := { State.reset with cyc := [(0, 256)] }
  refine ⟨0, s, ?_⟩
  repeat' apply And.intro
  all_goals decide +kernel

/-! ### Hosts, peers, bring-up and the mailbox -/

/-- A READY module whose L2 holds the line of address 0x1000. -/
def readyS : State := { State.reset with mod := { Module.reset with st := .ready, lock := 1 }, l2 := [0x40] }
/-- A back-invalidation of that line. -/
def bisnpMsg : Msg := { Msg.mk0 .bisnp .dog with pa := 0x1000 }
/-- The magic number of a firmware image. -/
def imageHead : List Host.Cell := [(0, 0x57), (1, 0x46), (2, 0x47), (3, 0x5A)]

theorem witness_host_read :
    ∃ (ag off len : Nat) (s : State) (bytes : List Byte),
    s.mod.st = .ready ∧ s.mod.pkg < 64 ∧ (ag = 64 ∨ ag = 65) ∧ off < 2 ^ 40 ∧
    s.net = [] ∧ s.resvs = [] ∧ Memory.wf s.mem = true ∧
    let a := s.mod.pkg * 2 ^ 50 + off
    let line := lineOf a
    s.queue line = [] ∧ line ∈ s.l2 ∧ filterRoom s line = true ∧
    0 < len ∧ (s.dir 0 line).st ≠ .e ∧ (s.dir 0 line).st ≠ .eo ∧ off % 64 + len ≤ 64  := by
  let s := { readyS with l2 := [0x41] }
  refine ⟨65, 0x1040, 64, s, [], ?_⟩
  repeat' apply And.intro
  all_goals decide +kernel

theorem witness_host_write :
    ∃ (ag off len : Nat) (s : State) (bytes : List Byte) (pz : BitVec 4),
    s.mod.st = .ready ∧ s.mod.pkg < 64 ∧ (ag = 64 ∨ ag = 65) ∧ off < 2 ^ 40 ∧
    s.net = [] ∧ s.resvs = [] ∧ Memory.wf s.mem = true ∧
    let a := s.mod.pkg * 2 ^ 50 + off
    let line := lineOf a
    s.queue line = [] ∧ line ∈ s.l2 ∧ filterRoom s line = true ∧
    s.dir 0 line = Dir.none ∧ off % 64 + bytes.length ≤ 64  := by
  let s := readyS
  refine ⟨64, 0x103F, 1, s, [7], 1, ?_⟩
  repeat' apply And.intro
  all_goals decide +kernel

theorem witness_peer_load :
    ∃ (pkg kind pa cls sc len : Nat) (bytes : List Byte) (sig : Option (BitVec 1024 × Nat × Bool)) (pz : BitVec 4) (s : State),
    s.mod.st = .ready ∧ (kind = 0 ∨ kind = 1 ∨ (16 ≤ kind ∧ kind < 28)) ∧
    paPkg pa = s.mod.pkg ∧ paKind pa < 2 ∧ populated s.mod.cxl pa = true ∧ s.net = [] ∧ s.resvs = [] ∧ Memory.wf s.mem = true ∧
    s.queue (lineOf pa) = [] ∧ lineOf pa ∈ s.l2 ∧ (s.dir 0 (lineOf pa)).st ≠ .eo ∧ Untracked (s.dir 0 (lineOf pa)) ∧
    pa % 64 + len ≤ 64 ∧ len ≤ bytes.length ∧
    kind = 0 ∧ cls = 4  := by
  let s := readyS
  refine ⟨1, 0, 0x1000, 4, 0, 64, List.replicate 64 0, none, 0, s, ?_⟩
  repeat' apply And.intro
  all_goals decide +kernel

theorem witness_peer_store :
    ∃ (pkg kind pa cls sc len : Nat) (bytes : List Byte) (sig : Option (BitVec 1024 × Nat × Bool)) (pz : BitVec 4) (s : State),
    s.mod.st = .ready ∧ (kind = 0 ∨ kind = 1 ∨ (16 ≤ kind ∧ kind < 28)) ∧
    paPkg pa = s.mod.pkg ∧ paKind pa < 2 ∧ populated s.mod.cxl pa = true ∧ s.net = [] ∧ s.resvs = [] ∧ Memory.wf s.mem = true ∧
    s.queue (lineOf pa) = [] ∧ lineOf pa ∈ s.l2 ∧ (s.dir 0 (lineOf pa)).st ≠ .eo ∧ Untracked (s.dir 0 (lineOf pa)) ∧
    pa % 64 + len ≤ 64 ∧ len ≤ bytes.length ∧
    kind = 1 ∧ (cls = 2 ∨ cls = 4)  := by
  let s := readyS
  refine ⟨1, 1, 0x1000, 2, 0, 64, List.replicate 64 7, none, 0, s, ?_⟩
  repeat' apply And.intro
  all_goals decide +kernel

theorem witness_peer_atomic :
    ∃ (pkg kind pa cls sc len : Nat) (bytes : List Byte) (sig : Option (BitVec 1024 × Nat × Bool)) (pz : BitVec 4) (s : State) (op : _),
    s.mod.st = .ready ∧ (kind = 0 ∨ kind = 1 ∨ (16 ≤ kind ∧ kind < 28)) ∧
    paPkg pa = s.mod.pkg ∧ paKind pa < 2 ∧ populated s.mod.cxl pa = true ∧ s.net = [] ∧ s.resvs = [] ∧ Memory.wf s.mem = true ∧
    s.queue (lineOf pa) = [] ∧ lineOf pa ∈ s.l2 ∧ (s.dir 0 (lineOf pa)).st ≠ .eo ∧ Untracked (s.dir 0 (lineOf pa)) ∧
    pa % 64 + len ≤ 64 ∧ len ≤ bytes.length ∧
    kind = 16 + op ∧ op < 12 ∧ (len = 4 ∨ len = 8) ∧ leNat (bytes.drop len) < 2 ^ (8 * len)  := by
  let s := readyS
  refine ⟨1, 25, 0x1000, 4, 0, 8, List.replicate 16 0, none, 0, s, 9, ?_⟩
  repeat' apply And.intro
  all_goals decide +kernel

theorem witness_back_invalidation :
    ∃ (n h : Nat) (bytes : List Byte) (pz : BitVec 4) (s : State) (m : Msg),
    s.net = [(n, m)] ∧ m.kind = .bisnp ∧ paPkg m.pa = s.mod.pkg ∧
    Memory.wf s.mem = true ∧ h < 128 ∧ s.resvs = [] ∧ (s.dir 0 (lineOf m.pa)).st ≠ .eo ∧
    m.par = n  := by
  let s := arrive bisnpMsg readyS
  refine ⟨0, 127, List.replicate 64 7, 0, s, bisnpMsg, ?_⟩
  repeat' apply And.intro
  all_goals decide +kernel

theorem witness_conflict :
    ∃ (n h : Nat) (bytes : List Byte) (pz : BitVec 4) (s : State) (m : Msg),
    s.net = [(n, m)] ∧ m.kind = .bisnp ∧ paPkg m.pa = s.mod.pkg ∧
    Memory.wf s.mem = true ∧ h < 128 ∧ s.resvs = [] ∧ (s.dir 0 (lineOf m.pa)).st ≠ .eo ∧ s.grids = [] ∧ bytes ≠ [] ∧
    ((tget (s.die (homeDie m.pa)).filter (lineOf m.pa)).any (·.2) = true ∧ 64 ≤ bytes.length)  := by
  let s := arrive bisnpMsg { readyS with dies := [(homeDie 0x1000, { readyS.die 0 with filter := [(0x40, ([64], true))] })] }
  refine ⟨0, 127, List.replicate 64 7, 0, s, bisnpMsg, ?_⟩
  all_goals decide +kernel

theorem witness_conflict_empty :
    ∃ (n h : Nat) (pz : BitVec 4) (s : State) (m : Msg),
    s.net = [(n, m)] ∧ m.kind = .bisnp ∧ paPkg m.pa = s.mod.pkg ∧
    Memory.wf s.mem = true ∧ h < 128 ∧ s.resvs = [] ∧ (s.dir 0 (lineOf m.pa)).st ≠ .eo ∧ s.grids = [] ∧ tabWf s.dirs = true  := by
  let s := arrive bisnpMsg readyS
  refine ⟨0, 65, 0, s, bisnpMsg, ?_⟩
  all_goals decide +kernel

theorem witness_window_post :
    ∃ (ag addr : Nat) (words : List Word) (rest : List Byte) (s : State),
    let good := s.mod.st = .ready ∧ addr % 64 = 0 ∧ addr < 2 ^ 39 ∧ addr / 2 ^ 29 % 128 ≤ 79 ∧
      (addr / 2 ^ 22 % 2 = 0 → addr / 2 ^ 6 % 2 ^ 16 = 0) ∧ 1 ≤ words.length ∧ words.length ≤ 8 ∧ rest = []
    rest.length < 8 ∧ (ag = 64 ∨ ag = 65) ∧
    good ∧ s.mod.postq.length < 64  := by
  let s := readyS
  refine ⟨65, 7 * 2 ^ 36 + 79 * 2 ^ 29 + 63 * 2 ^ 23 + 2 ^ 22 + 0xFFFF * 2 ^ 6, List.replicate 8 1, [], s, ?_⟩
  repeat' apply And.intro
  all_goals decide +kernel

theorem witness_window_post_bad :
    ∃ (ag addr : Nat) (words : List Word) (rest : List Byte) (s : State),
    let good := s.mod.st = .ready ∧ addr % 64 = 0 ∧ addr < 2 ^ 39 ∧ addr / 2 ^ 29 % 128 ≤ 79 ∧
      (addr / 2 ^ 22 % 2 = 0 → addr / 2 ^ 6 % 2 ^ 16 = 0) ∧ 1 ≤ words.length ∧ words.length ≤ 8 ∧ rest = []
    rest.length < 8 ∧ (ag = 64 ∨ ag = 65) ∧
    ¬good  := by
  let s := readyS
  refine ⟨64, 80 * 2 ^ 29, [1], [], s, ?_⟩
  repeat' apply And.intro
  all_goals decide +kernel

theorem witness_window_post_odd :
    ∃ (ag addr : Nat) (words : List Word) (rest : List Byte) (s : State),
    let good := s.mod.st = .ready ∧ addr % 64 = 0 ∧ addr < 2 ^ 39 ∧ addr / 2 ^ 29 % 128 ≤ 79 ∧
      (addr / 2 ^ 22 % 2 = 0 → addr / 2 ^ 6 % 2 ^ 16 = 0) ∧ 1 ≤ words.length ∧ words.length ≤ 8 ∧ rest = []
    rest.length < 8 ∧ (ag = 64 ∨ ag = 65) ∧
    ¬good  := by
  let s := readyS
  refine ⟨64, 0, [1], [7], s, ?_⟩
  repeat' apply And.intro
  all_goals decide +kernel

theorem witness_host_before_ready :
    ∃ (ag off len : Nat) (bytes : List Byte) (pz : BitVec 4) (s : State) (i : Instr),
    (i = .hostHdmRead ag off len ∨ i = .hostWrite ag off ⟨bytes, pz⟩) ∧
    (s.mod.st ≠ .ready ∨ (64 ≤ ag ∧ 2 ^ 40 ≤ off))  := by
  let s := State.reset
  refine ⟨0, 0, 8, [], 0, s, .hostHdmRead 0 0 8, ?_⟩
  repeat' apply And.intro
  all_goals decide +kernel

theorem witness_host_beyond :
    ∃ (ag off len : Nat) (bytes : List Byte) (pz : BitVec 4) (s : State) (i : Instr),
    (i = .hostHdmRead ag off len ∨ i = .hostWrite ag off ⟨bytes, pz⟩) ∧
    (s.mod.st ≠ .ready ∨ (64 ≤ ag ∧ 2 ^ 40 ≤ off))  := by
  let s := readyS
  refine ⟨65, 2 ^ 40, 8, [7], 3, s, (.hostWrite 65 (2 ^ 40) ⟨[7], 3⟩), ?_⟩
  repeat' apply And.intro
  all_goals decide +kernel

theorem witness_lock_free : ∃ (s : State) (p : Nat), s.mod.postq = [] ∧ (p = 1 ∨ p = 2) ∧ s.mod.lock = 0 := by
  refine ⟨{ State.reset with mod := { Module.reset with lock := 0 } }, 1, ?_⟩
  decide +kernel

theorem witness_lock_other : ∃ (s : State) (p : Nat), s.mod.postq = [] ∧ (p = 1 ∨ p = 2) ∧ s.mod.lock ≠ 0 ∧ s.mod.lock ≠ p := by
  refine ⟨{ State.reset with mod := { Module.reset with lock := 2 } }, 1, ?_⟩
  decide +kernel

theorem witness_lock_dropped_in_load : ∃ (s : State) (p : Nat), s.mod.postq = [] ∧ (p = 1 ∨ p = 2) ∧ s.mod.lock = p ∧ s.mod.st = .loading ∧ s.mod.vbusy = false ∧ Memory.wf s.mod.win = true := by
  refine ⟨{ State.reset with mod := { Module.reset with lock := 1, st := .loading, len := 0x2000 } }, 1, ?_⟩
  decide +kernel

theorem witness_lock_dropped : ∃ (s : State) (p : Nat), s.mod.postq = [] ∧ (p = 1 ∨ p = 2) ∧ s.mod.lock = p ∧ ¬(s.mod.st = .loading ∧ s.mod.vbusy = false) := by
  refine ⟨{ State.reset with mod := { Module.reset with lock := 1 } }, 1, ?_⟩
  decide +kernel

theorem witness_start_least : ∃ (s : State) (p : Nat) (n : BitVec 25), s.mod.postq = [] ∧ (p = 1 ∨ p = 2) ∧ s.mod.lock = p ∧ s.mod.st = .powered ∧ 0x2000 ≤ n.toNat ∧ n.toNat ≤ 0x1000000 := by
  refine ⟨{ State.reset with mod := { Module.reset with lock := 1 } }, 1, 0x2000, ?_⟩
  decide +kernel

theorem witness_start_greatest : ∃ (s : State) (p : Nat) (n : BitVec 25), s.mod.postq = [] ∧ (p = 1 ∨ p = 2) ∧ s.mod.lock = p ∧ s.mod.st = .failed ∧ 0x2000 ≤ n.toNat ∧ n.toNat ≤ 0x1000000 := by
  refine ⟨{ State.reset with mod := { Module.reset with lock := 1, st := .failed } }, 1, 0x1000000, ?_⟩
  decide +kernel

theorem witness_start_short : ∃ (s : State) (p : Nat) (n : BitVec 25), s.mod.postq = [] ∧ (p = 1 ∨ p = 2) ∧ s.mod.lock = p ∧ s.mod.st = .powered ∧ n.toNat < 0x2000 := by
  refine ⟨{ State.reset with mod := { Module.reset with lock := 1 } }, 1, 0x1FFF, ?_⟩
  decide +kernel

theorem witness_start_long : ∃ (s : State) (p : Nat) (n : BitVec 25), s.mod.postq = [] ∧ (p = 1 ∨ p = 2) ∧ s.mod.lock = p ∧ s.mod.st = .powered ∧ 0x1000000 < n.toNat := by
  refine ⟨{ State.reset with mod := { Module.reset with lock := 1 } }, 1, 0x1000001, ?_⟩
  decide +kernel

theorem witness_start_late : ∃ (s : State) (p : Nat), s.mod.postq = [] ∧ (p = 1 ∨ p = 2) ∧ s.mod.lock = p ∧ s.mod.st ≠ .powered ∧ s.mod.st ≠ .failed := by
  refine ⟨{ State.reset with mod := { Module.reset with lock := 1, st := .verified } }, 1, ?_⟩
  decide +kernel

theorem witness_bad_image : ∃ (s : State) (p : Nat), s.mod.postq = [] ∧ (p = 1 ∨ p = 2) ∧ s.mod.st = .loading ∧ s.mod.vbusy = true ∧ s.mod.winBad = false ∧ ¬leNat (((mread s.mod.win 0 s.mod.len).drop 0).take 4) = 0x5A474657 := by
  refine ⟨{ State.reset with mod := { Module.reset with st := .loading, vbusy := true } }, 1, ?_⟩
  decide +kernel

theorem witness_image_form : ∃ s : State, s.mod.postq = [] ∧ s.mod.st = .loading ∧ s.mod.vbusy = true ∧ s.mod.winBad = false ∧
    let img := mread s.mod.win 0 s.mod.len
    let w := fun (o n : Nat) => leNat ((img.drop o).take n)
    w 0 4 = 0x5A474657 ∧ w 6 2 = 0 ∧ w 8 4 + 0x2000 = s.mod.len ∧ w 0xC 4 = 0 ∧ w 0x1EE0 288 = 0 := by
  refine ⟨{ State.reset with mod := { Module.reset with st := .loading, vbusy := true, len := 0x2000, win := imageHead } }, ?_⟩
  decide +kernel

theorem witness_window_poisoned : ∃ (s : State) (p : Nat), s.mod.postq = [] ∧ (p = 1 ∨ p = 2) ∧ s.mod.st = .loading ∧ s.mod.vbusy = true ∧ s.mod.winBad = true := by
  refine ⟨{ State.reset with mod := { Module.reset with st := .loading, vbusy := true, winBad := true } }, 1, ?_⟩
  decide +kernel

theorem witness_verified : ∃ (s : State) (p : Nat), s.mod.postq = [] ∧ (p = 1 ∨ p = 2) ∧ s.mod.st = .verified := by
  refine ⟨{ State.reset with mod := { Module.reset with st := .verified } }, 1, ?_⟩
  decide +kernel

theorem witness_write_lock :
    ∃ (s : State) (p : Nat) (v : Word),
    s.mod.postq = [] ∧ (p = 1 ∨ p = 2) ∧
    v.getLsbD 8 = true ∧ s.mod.lock = 0  := by
  let s := State.reset
  refine ⟨s, 1, 0x100, ?_⟩
  repeat' apply And.intro
  all_goals decide +kernel

theorem witness_write_start :
    ∃ (s : State) (p : Nat) (v : Word),
    s.mod.postq = [] ∧ (p = 1 ∨ p = 2) ∧
    s.mod.lock = p ∧ s.mod.st = .powered ∧ bits v 0 3 = 1#3 ∧ 0x2000 ≤ v.toNat / 2 ^ 32 % 2 ^ 25 ∧
      v.toNat / 2 ^ 32 % 2 ^ 25 ≤ 0x1000000  := by
  let s := { State.reset with mod := { Module.reset with lock := 1 } }
  refine ⟨s, 1, 0x200000000001, ?_⟩
  repeat' apply And.intro
  all_goals decide +kernel

theorem witness_write_argument :
    ∃ (s : State) (p : Nat) (v : Word) (i : _),
    s.mod.postq = [] ∧ (p = 1 ∨ p = 2) ∧
    s.mod.st = .ready ∧
    i < 7  := by
  let s := readyS
  refine ⟨s, 1, 0xFFFFFFFFFFFFFFFF, 6, ?_⟩
  repeat' apply And.intro
  all_goals decide +kernel

theorem witness_write_command :
    ∃ (s : State) (p : Nat) (v : Word),
    s.mod.postq = [] ∧ (p = 1 ∨ p = 2) ∧
    s.mod.st = .ready ∧ (s.mod.mbox p).busy = false  := by
  let s := readyS
  refine ⟨s, 1, 0x12, ?_⟩
  repeat' apply And.intro
  all_goals decide +kernel

/-! ### Commands of the management controller -/

theorem args_of (s : State) (p : Nat) (args : List Nat)
    (h : (args.zipIdx.all fun a => argOf s p a.2 == a.1) = true) : ∀ i x, args[i]? = some x → argOf s p i = x := by
  intro i x hx
  have hm : (x, i) ∈ args.zipIdx := by
    rw [List.mem_zipIdx_iff_getElem?]
    exact hx
  simpa using List.all_eq_true.mp h _ hm

/-- Mailbox 1 holds a command with its arguments, and its turn has come. -/
def asked (code : Nat) (args : List Nat) (s : State) : State :=
  let m := { Mbox.reset with cmd := code, busy := true, args := args.zipIdx.map fun a => (a.2, BitVec.ofNat 64 a.1) }
  { s with mod := { s.mod with mboxes := [(1, m)], queue := [1] } }
/-- The command has begun. -/
def began (s : State) : State :=
  { s with mod := { s.mod with mboxes := s.mod.mboxes.map fun e => (e.1, { e.2 with began := true }) } }
/-- Context 0 with one logical cluster, mapped to cluster 0, and one save record. -/
def alive (s : State) : State :=
  { s.modCtx 0 fun c => { c with alive := true, words := [0, 0, 0, 0, 1, 0, 0, 0, 0, 0, 0, 0x8000, 1] } with
    mem := [(3, 0x80)] }
/-- Its cluster is stopped. -/
def stoppedS (s : State) : State := (alive s).modCtx 0 fun c => { c with stopped := [0] }
/-- A thread that has drained. -/
def drained : Thread := { Thread.reset with run := true, stop := true, post := .preempt }
/-- Record 0 holds a saved thread. -/
def savedS : State := (stoppedS readyS).modCtx 0 fun c => { c with saved := [(0, ⟨0, none, 0⟩)] }

theorem witness_ctx_create :
    ∃ (s : State) (p : Nat) (off l id : Nat) (allot : List (Nat × Nat × Nat)),
    Turn s p 0x01 [off, l] ∧ Calm s ∧ s.mod.pkg < 64 ∧
      off + 104 ≤ 2 ^ 40 ∧ 1 ≤ id ∧ (∀ i, 1 ≤ i → i < id → (s.ctx i).alive = true) ∧ id < 0xFFF ∧ (s.ctx id).alive = false ∧
      (∀ a ∈ allot, a.2.1 ≤ 1 ∨ (s.clu a.1).fab.owner = 0xFFF) ∧
    let w := fun (i : Nat) => mword s.mem (s.mod.pkg * 2 ^ 50 + off + 8 * i)
      let clu := 80 * (l % 8) + l / 8 % 128
      let port := l / 1024 % 64
    l / 8 % 128 ≤ 79 ∧ ((s.clu clu).port port).owner = 0xFFF ∧ w 0 / 256 % 256 ≤ 0xEF ∧ 1 ≤ w 4 % 2 ^ 16 ∧
      w 4 % 2 ^ 16 ≤ 40960 ∧ w 7 % 2 ^ 11 ≤ 1024  := by
  let s := asked 0x01 [0x4000, 0xFE78] ({ readyS with mem := [(0x4020, 1)] })
  refine ⟨s, 1, 0x4000, 0xFE78, 1, [(0, 2, 8)], ?_⟩
  try dsimp only [Fires, HasTok, Arrived, FreshOp, FreshAt, Solo, AtHome, AtVault, HasReg, Untracked, Quiet, RoleOk, DistinctWrites, ReadyPlain, NothingHeld, NoneCommits]
  repeat' apply And.intro
  all_goals first | (exact (fun i h1 h2 => absurd h1 (by omega))) | decide +kernel | exact args_of _ _ _ (by decide +kernel) | exact .inl (by decide +kernel) | (intro j hj; omega) | (intro l h1 h2; obtain rfl : l = 0 := (by omega); decide +kernel) | exact ok_of _ _ (by decide +kernel) | exact error_of _ _ (by decide +kernel) | exact forall_of_nil _ _ (by decide +kernel) | exact trivial

theorem witness_ctx_kill :
    ∃ (s : State) (p : Nat) (c : _),
    Turn s p 0x02 [c] ∧ tabWf s.thrs = true ∧
    (s.mod.mbox p).began = false ∧ (s.ctx c).alive = true ∧ NoneCommits s c  := by
  let s := asked 0x02 [0] (alive readyS)
  refine ⟨s, 1, 0, ?_⟩
  try dsimp only [Fires, HasTok, Arrived, FreshOp, FreshAt, Solo, AtHome, AtVault, HasReg, Untracked, Quiet, RoleOk, DistinctWrites, ReadyPlain, NothingHeld, NoneCommits]
  repeat' apply And.intro
  all_goals first | (exact (fun i h1 h2 => absurd h1 (by omega))) | decide +kernel | exact args_of _ _ _ (by decide +kernel) | exact .inl (by decide +kernel) | (intro j hj; omega) | (intro l h1 h2; obtain rfl : l = 0 := (by omega); decide +kernel) | exact ok_of _ _ (by decide +kernel) | exact error_of _ _ (by decide +kernel) | exact forall_of_nil _ _ (by decide +kernel) | exact trivial

theorem witness_ctx_kill_absent :
    ∃ (s : State) (p : Nat) (c : _),
    Turn s p 0x02 [c] ∧ tabWf s.thrs = true ∧
    (s.mod.mbox p).began = false ∧ (s.ctx c).alive = false  := by
  let s := asked 0x02 [0] (readyS)
  refine ⟨s, 1, 0, ?_⟩
  try dsimp only [Fires, HasTok, Arrived, FreshOp, FreshAt, Solo, AtHome, AtVault, HasReg, Untracked, Quiet, RoleOk, DistinctWrites, ReadyPlain, NothingHeld, NoneCommits]
  repeat' apply And.intro
  all_goals first | (exact (fun i h1 h2 => absurd h1 (by omega))) | decide +kernel | exact args_of _ _ _ (by decide +kernel) | exact .inl (by decide +kernel) | (intro j hj; omega) | (intro l h1 h2; obtain rfl : l = 0 := (by omega); decide +kernel) | exact ok_of _ _ (by decide +kernel) | exact error_of _ _ (by decide +kernel) | exact forall_of_nil _ _ (by decide +kernel) | exact trivial

theorem witness_ctx_kill_done :
    ∃ (s : State) (p : Nat) (c : _),
    Turn s p 0x02 [c] ∧ tabWf s.thrs = true ∧
    (s.mod.mbox p).began = true ∧ (s.ctx c).alive = false  := by
  let s := began (asked 0x02 [0] (readyS))
  refine ⟨s, 1, 0, ?_⟩
  try dsimp only [Fires, HasTok, Arrived, FreshOp, FreshAt, Solo, AtHome, AtVault, HasReg, Untracked, Quiet, RoleOk, DistinctWrites, ReadyPlain, NothingHeld, NoneCommits]
  repeat' apply And.intro
  all_goals first | (exact (fun i h1 h2 => absurd h1 (by omega))) | decide +kernel | exact args_of _ _ _ (by decide +kernel) | exact .inl (by decide +kernel) | (intro j hj; omega) | (intro l h1 h2; obtain rfl : l = 0 := (by omega); decide +kernel) | exact ok_of _ _ (by decide +kernel) | exact error_of _ _ (by decide +kernel) | exact forall_of_nil _ _ (by decide +kernel) | exact trivial

theorem witness_kill_query :
    ∃ (s : State) (p : Nat) (c : _),
    Turn s p 0x06 [c] ∧
    tget s.ctxs c ≠ none  := by
  let s := asked 0x06 [0] (alive readyS)
  refine ⟨s, 1, 0, ?_⟩
  try dsimp only [Fires, HasTok, Arrived, FreshOp, FreshAt, Solo, AtHome, AtVault, HasReg, Untracked, Quiet, RoleOk, DistinctWrites, ReadyPlain, NothingHeld, NoneCommits]
  repeat' apply And.intro
  all_goals first | (exact (fun i h1 h2 => absurd h1 (by omega))) | decide +kernel | exact args_of _ _ _ (by decide +kernel) | exact .inl (by decide +kernel) | (intro j hj; omega) | (intro l h1 h2; obtain rfl : l = 0 := (by omega); decide +kernel) | exact ok_of _ _ (by decide +kernel) | exact error_of _ _ (by decide +kernel) | exact forall_of_nil _ _ (by decide +kernel) | exact trivial

theorem witness_kill_query_absent :
    ∃ (s : State) (p : Nat) (c : _),
    Turn s p 0x06 [c] ∧
    tget s.ctxs c = none  := by
  let s := asked 0x06 [0] (readyS)
  refine ⟨s, 1, 0, ?_⟩
  try dsimp only [Fires, HasTok, Arrived, FreshOp, FreshAt, Solo, AtHome, AtVault, HasReg, Untracked, Quiet, RoleOk, DistinctWrites, ReadyPlain, NothingHeld, NoneCommits]
  repeat' apply And.intro
  all_goals first | (exact (fun i h1 h2 => absurd h1 (by omega))) | decide +kernel | exact args_of _ _ _ (by decide +kernel) | exact .inl (by decide +kernel) | (intro j hj; omega) | (intro l h1 h2; obtain rfl : l = 0 := (by omega); decide +kernel) | exact ok_of _ _ (by decide +kernel) | exact error_of _ _ (by decide +kernel) | exact forall_of_nil _ _ (by decide +kernel) | exact trivial

theorem witness_ctx_map_beyond :
    ∃ (s : State) (p : Nat) (c : _) (l : _) (e : _),
    Turn s p 0x05 [c, l, e] ∧ (s.ctx c).alive = true ∧ (s.ctx c).dying = none ∧
    (s.ctx c).word 4 % 2 ^ 16 ≤ l  := by
  let s := asked 0x05 [0, 1, 0] (alive readyS)
  refine ⟨s, 1, 0, 1, 0, ?_⟩
  try dsimp only [Fires, HasTok, Arrived, FreshOp, FreshAt, Solo, AtHome, AtVault, HasReg, Untracked, Quiet, RoleOk, DistinctWrites, ReadyPlain, NothingHeld, NoneCommits]
  repeat' apply And.intro
  all_goals first | (exact (fun i h1 h2 => absurd h1 (by omega))) | decide +kernel | exact args_of _ _ _ (by decide +kernel) | exact .inl (by decide +kernel) | (intro j hj; omega) | (intro l h1 h2; obtain rfl : l = 0 := (by omega); decide +kernel) | exact ok_of _ _ (by decide +kernel) | exact error_of _ _ (by decide +kernel) | exact forall_of_nil _ _ (by decide +kernel) | exact trivial

theorem witness_ctx_map_threads :
    ∃ (s : State) (p : Nat) (c : _) (l : _) (e : _),
    Turn s p 0x05 [c, l, e] ∧ (s.ctx c).alive = true ∧ (s.ctx c).dying = none ∧
    mapArg s c l e = true ∧ (∃ x ∈ s.thrs, x.2.ctx = c)  := by
  let s := { asked 0x05 [0, 0, 0x80000001] (alive readyS) with thrs := [(0, Thread.reset)] }
  refine ⟨s, 1, 0, 0, 0x80000001, ?_⟩
  try dsimp only [Fires, HasTok, Arrived, FreshOp, FreshAt, Solo, AtHome, AtVault, HasReg, Untracked, Quiet, RoleOk, DistinctWrites, ReadyPlain, NothingHeld, NoneCommits]
  repeat' apply And.intro
  all_goals first | (exact (fun i h1 h2 => absurd h1 (by omega))) | decide +kernel | exact args_of _ _ _ (by decide +kernel) | exact .inl (by decide +kernel) | (intro j hj; omega) | (intro l h1 h2; obtain rfl : l = 0 := (by omega); decide +kernel) | exact ok_of _ _ (by decide +kernel) | exact error_of _ _ (by decide +kernel) | exact forall_of_nil _ _ (by decide +kernel) | exact trivial

theorem witness_ctx_map :
    ∃ (s : State) (p : Nat) (c : _) (l : _) (e : _),
    Turn s p 0x05 [c, l, e] ∧ (s.ctx c).alive = true ∧ (s.ctx c).dying = none ∧
    let at_ := (s.ctx c).word 3 / 256 % 2 ^ 48 * 256 + 4 * l
    mapArg s c l e = true ∧ (∀ x ∈ s.thrs, x.2.ctx ≠ c) ∧ Calm s ∧ paPkg at_ = s.mod.pkg ∧ Memory.wf s.mem = true ∧
    ((tget (s.ctx c).parked l = none ∧ mapCluster s (s.ctx c) l = .error 0x19) ∨
      mapCluster s (s.ctx c) l = .ok (1, 0))  := by
  let s := { asked 0x05 [0, 0, 0xFFFF] (alive readyS) with mem := [] }
  refine ⟨s, 1, 0, 0, 0xFFFF, ?_⟩
  try dsimp only [Fires, HasTok, Arrived, FreshOp, FreshAt, Solo, AtHome, AtVault, HasReg, Untracked, Quiet, RoleOk, DistinctWrites, ReadyPlain, NothingHeld, NoneCommits]
  repeat' apply And.intro
  all_goals first | (exact (fun i h1 h2 => absurd h1 (by omega))) | decide +kernel | exact args_of _ _ _ (by decide +kernel) | exact .inl ⟨by decide +kernel, error_of _ _ (by decide +kernel)⟩ | (intro j hj; omega) | (intro l h1 h2; obtain rfl : l = 0 := (by omega); decide +kernel) | exact ok_of _ _ (by decide +kernel) | exact error_of _ _ (by decide +kernel) | exact forall_of_nil _ _ (by decide +kernel) | exact trivial

theorem witness_ctx_map_moved :
    ∃ (s : State) (p : Nat) (c : _) (l : _) (e : _),
    Turn s p 0x05 [c, l, e] ∧ (s.ctx c).alive = true ∧ (s.ctx c).dying = none ∧
    let at_ := (s.ctx c).word 3 / 256 % 2 ^ 48 * 256 + 4 * l
    mapArg s c l e = true ∧ (∀ x ∈ s.thrs, x.2.ctx ≠ c) ∧ Calm s ∧ paPkg at_ = s.mod.pkg ∧ Memory.wf s.mem = true ∧
    mapCluster s (s.ctx c) l = .ok (1, 0) ∧ 1 ≠ s.mod.pkg  := by
  let s := { asked 0x05 [0, 0, 0xFFFF] (alive readyS) with mem := [(1, 4), (3, 0x80)] }
  refine ⟨s, 1, 0, 0, 0xFFFF, ?_⟩
  try dsimp only [Fires, HasTok, Arrived, FreshOp, FreshAt, Solo, AtHome, AtVault, HasReg, Untracked, Quiet, RoleOk, DistinctWrites, ReadyPlain, NothingHeld, NoneCommits]
  repeat' apply And.intro
  all_goals first | (exact (fun i h1 h2 => absurd h1 (by omega))) | decide +kernel | exact args_of _ _ _ (by decide +kernel) | exact .inl (by decide +kernel) | (intro j hj; omega) | (intro l h1 h2; obtain rfl : l = 0 := (by omega); decide +kernel) | exact ok_of _ _ (by decide +kernel) | exact error_of _ _ (by decide +kernel) | exact forall_of_nil _ _ (by decide +kernel) | exact trivial

theorem witness_ctx_map_saves :
    ∃ (s : State) (p : Nat) (c : _) (l : _) (e : _),
    Turn s p 0x05 [c, l, e] ∧ (s.ctx c).alive = true ∧ (s.ctx c).dying = none ∧
    let at_ := (s.ctx c).word 3 / 256 % 2 ^ 48 * 256 + 4 * l
    mapArg s c l e = true ∧ (∀ x ∈ s.thrs, x.2.ctx ≠ c) ∧ Calm s ∧ paPkg at_ = s.mod.pkg ∧ Memory.wf s.mem = true ∧
    e < 2 ^ 31 ∧ mapCluster s (s.ctx c) l = .ok (s.mod.pkg, 0) ∧ (s.clu 0).jobs = [] ∧ (s.clu 0).moves = [] ∧
    (s.clu 0).fab.q = [] ∧ (s.clu 0).copyQ = [] ∧ (s.clu 0).saving = [] ∧ (∀ x ∈ s.clus, x.2.streams = []) ∧
    (∀ y ∈ (s.clu 0).phys, ∀ w, y.2.owner = some w → w.1 = c → w.2.1 = l ∧ w.2.2 < 64)  := by
  let s := asked 0x05 [0, 0, 0xFFFF] (alive readyS)
  refine ⟨s, 1, 0, 0, 0xFFFF, ?_⟩
  try dsimp only [Fires, HasTok, Arrived, FreshOp, FreshAt, Solo, AtHome, AtVault, HasReg, Untracked, Quiet, RoleOk, DistinctWrites, ReadyPlain, NothingHeld, NoneCommits]
  repeat' apply And.intro
  all_goals first | (exact (fun i h1 h2 => absurd h1 (by omega))) | decide +kernel | exact args_of _ _ _ (by decide +kernel) | exact .inl (by decide +kernel) | (intro j hj; omega) | (intro l h1 h2; obtain rfl : l = 0 := (by omega); decide +kernel) | exact ok_of _ _ (by decide +kernel) | exact error_of _ _ (by decide +kernel) | exact forall_of_nil _ _ (by decide +kernel) | exact trivial

theorem witness_pod_set_locked :
    ∃ (s : State) (p : Nat) (a : _) (b : _),
    Turn s p 0x10 [a, b] ∧
    s.mod.lock ≠ p  := by
  let s := asked 0x10 [3, 9] ({ readyS with mod := { readyS.mod with lock := 2 } })
  refine ⟨s, 1, 3, 9, ?_⟩
  try dsimp only [Fires, HasTok, Arrived, FreshOp, FreshAt, Solo, AtHome, AtVault, HasReg, Untracked, Quiet, RoleOk, DistinctWrites, ReadyPlain, NothingHeld, NoneCommits]
  repeat' apply And.intro
  all_goals first | (exact (fun i h1 h2 => absurd h1 (by omega))) | decide +kernel | exact args_of _ _ _ (by decide +kernel) | exact .inl (by decide +kernel) | (intro j hj; omega) | (intro l h1 h2; obtain rfl : l = 0 := (by omega); decide +kernel) | exact ok_of _ _ (by decide +kernel) | exact error_of _ _ (by decide +kernel) | exact forall_of_nil _ _ (by decide +kernel) | exact trivial

theorem witness_pod_set :
    ∃ (s : State) (p : Nat) (a : _) (b : _),
    Turn s p 0x10 [a, b] ∧
    s.mod.lock = p ∧ s.mod.pkg < 64 ∧ Memory.wf s.mem = true ∧ (∀ c ∈ s.mem, paPkg c.1 = s.mod.pkg)  := by
  let s := asked 0x10 [63, 9] ({ readyS with mem := [(5, 6)] })
  refine ⟨s, 1, 63, 9, ?_⟩
  try dsimp only [Fires, HasTok, Arrived, FreshOp, FreshAt, Solo, AtHome, AtVault, HasReg, Untracked, Quiet, RoleOk, DistinctWrites, ReadyPlain, NothingHeld, NoneCommits]
  repeat' apply And.intro
  all_goals first | (exact (fun i h1 h2 => absurd h1 (by omega))) | decide +kernel | exact args_of _ _ _ (by decide +kernel) | exact .inl (by decide +kernel) | (intro j hj; omega) | (intro l h1 h2; obtain rfl : l = 0 := (by omega); decide +kernel) | exact ok_of _ _ (by decide +kernel) | exact error_of _ _ (by decide +kernel) | exact forall_of_nil _ _ (by decide +kernel) | exact trivial

theorem witness_power_set_locked :
    ∃ (s : State) (p : Nat) (w : _),
    Turn s p 0x11 [w] ∧ s.mod.lock ≠ p  := by
  let s := asked 0x11 [1000] ({ readyS with mod := { readyS.mod with lock := 2 } })
  refine ⟨s, 1, 1000, ?_⟩
  try dsimp only [Fires, HasTok, Arrived, FreshOp, FreshAt, Solo, AtHome, AtVault, HasReg, Untracked, Quiet, RoleOk, DistinctWrites, ReadyPlain, NothingHeld, NoneCommits]
  repeat' apply And.intro
  all_goals first | (exact (fun i h1 h2 => absurd h1 (by omega))) | decide +kernel | exact args_of _ _ _ (by decide +kernel) | exact .inl (by decide +kernel) | (intro j hj; omega) | (intro l h1 h2; obtain rfl : l = 0 := (by omega); decide +kernel) | exact ok_of _ _ (by decide +kernel) | exact error_of _ _ (by decide +kernel) | exact forall_of_nil _ _ (by decide +kernel) | exact trivial

theorem witness_power_set_low :
    ∃ (s : State) (p : Nat) (w : _),
    Turn s p 0x11 [w] ∧ s.mod.lock = p ∧
    (w < 1000 ∨ 5200 < w)  := by
  let s := asked 0x11 [999] (readyS)
  refine ⟨s, 1, 999, ?_⟩
  try dsimp only [Fires, HasTok, Arrived, FreshOp, FreshAt, Solo, AtHome, AtVault, HasReg, Untracked, Quiet, RoleOk, DistinctWrites, ReadyPlain, NothingHeld, NoneCommits]
  repeat' apply And.intro
  all_goals first | (exact (fun i h1 h2 => absurd h1 (by omega))) | decide +kernel | exact args_of _ _ _ (by decide +kernel) | exact .inl (by decide +kernel) | (intro j hj; omega) | (intro l h1 h2; obtain rfl : l = 0 := (by omega); decide +kernel) | exact ok_of _ _ (by decide +kernel) | exact error_of _ _ (by decide +kernel) | exact forall_of_nil _ _ (by decide +kernel) | exact trivial

theorem witness_power_set_high :
    ∃ (s : State) (p : Nat) (w : _),
    Turn s p 0x11 [w] ∧ s.mod.lock = p ∧
    (w < 1000 ∨ 5200 < w)  := by
  let s := asked 0x11 [5201] (readyS)
  refine ⟨s, 1, 5201, ?_⟩
  try dsimp only [Fires, HasTok, Arrived, FreshOp, FreshAt, Solo, AtHome, AtVault, HasReg, Untracked, Quiet, RoleOk, DistinctWrites, ReadyPlain, NothingHeld, NoneCommits]
  repeat' apply And.intro
  all_goals first | (exact (fun i h1 h2 => absurd h1 (by omega))) | decide +kernel | exact args_of _ _ _ (by decide +kernel) | exact .inl (by decide +kernel) | (intro j hj; omega) | (intro l h1 h2; obtain rfl : l = 0 := (by omega); decide +kernel) | exact ok_of _ _ (by decide +kernel) | exact error_of _ _ (by decide +kernel) | exact forall_of_nil _ _ (by decide +kernel) | exact trivial

theorem witness_power_set_least :
    ∃ (s : State) (p : Nat) (w : _),
    Turn s p 0x11 [w] ∧ s.mod.lock = p ∧
    1000 ≤ w ∧ w ≤ 5200  := by
  let s := asked 0x11 [1000] (readyS)
  refine ⟨s, 1, 1000, ?_⟩
  try dsimp only [Fires, HasTok, Arrived, FreshOp, FreshAt, Solo, AtHome, AtVault, HasReg, Untracked, Quiet, RoleOk, DistinctWrites, ReadyPlain, NothingHeld, NoneCommits]
  repeat' apply And.intro
  all_goals first | (exact (fun i h1 h2 => absurd h1 (by omega))) | decide +kernel | exact args_of _ _ _ (by decide +kernel) | exact .inl (by decide +kernel) | (intro j hj; omega) | (intro l h1 h2; obtain rfl : l = 0 := (by omega); decide +kernel) | exact ok_of _ _ (by decide +kernel) | exact error_of _ _ (by decide +kernel) | exact forall_of_nil _ _ (by decide +kernel) | exact trivial

theorem witness_power_set_greatest :
    ∃ (s : State) (p : Nat) (w : _),
    Turn s p 0x11 [w] ∧ s.mod.lock = p ∧
    1000 ≤ w ∧ w ≤ 5200  := by
  let s := asked 0x11 [5200] (readyS)
  refine ⟨s, 1, 5200, ?_⟩
  try dsimp only [Fires, HasTok, Arrived, FreshOp, FreshAt, Solo, AtHome, AtVault, HasReg, Untracked, Quiet, RoleOk, DistinctWrites, ReadyPlain, NothingHeld, NoneCommits]
  repeat' apply And.intro
  all_goals first | (exact (fun i h1 h2 => absurd h1 (by omega))) | decide +kernel | exact args_of _ _ _ (by decide +kernel) | exact .inl (by decide +kernel) | (intro j hj; omega) | (intro l h1 h2; obtain rfl : l = 0 := (by omega); decide +kernel) | exact ok_of _ _ (by decide +kernel) | exact error_of _ _ (by decide +kernel) | exact forall_of_nil _ _ (by decide +kernel) | exact trivial

theorem witness_err_clear_locked :
    ∃ (s : State) (p : Nat),
    Turn s p 0x12 [] ∧ s.mod.lock ≠ p  := by
  let s := asked 0x12 [] ({ readyS with mod := { readyS.mod with lock := 2 } })
  refine ⟨s, 1, ?_⟩
  try dsimp only [Fires, HasTok, Arrived, FreshOp, FreshAt, Solo, AtHome, AtVault, HasReg, Untracked, Quiet, RoleOk, DistinctWrites, ReadyPlain, NothingHeld, NoneCommits]
  repeat' apply And.intro
  all_goals first | (exact (fun i h1 h2 => absurd h1 (by omega))) | decide +kernel | exact args_of _ _ _ (by decide +kernel) | exact .inl (by decide +kernel) | (intro j hj; omega) | (intro l h1 h2; obtain rfl : l = 0 := (by omega); decide +kernel) | exact ok_of _ _ (by decide +kernel) | exact error_of _ _ (by decide +kernel) | exact forall_of_nil _ _ (by decide +kernel) | exact trivial

theorem witness_err_clear :
    ∃ (s : State) (p : Nat),
    Turn s p 0x12 [] ∧ s.mod.lock = p  := by
  let s := asked 0x12 [] (readyS)
  refine ⟨s, 1, ?_⟩
  try dsimp only [Fires, HasTok, Arrived, FreshOp, FreshAt, Solo, AtHome, AtVault, HasReg, Untracked, Quiet, RoleOk, DistinctWrites, ReadyPlain, NothingHeld, NoneCommits]
  repeat' apply And.intro
  all_goals first | (exact (fun i h1 h2 => absurd h1 (by omega))) | decide +kernel | exact args_of _ _ _ (by decide +kernel) | exact .inl (by decide +kernel) | (intro j hj; omega) | (intro l h1 h2; obtain rfl : l = 0 := (by omega); decide +kernel) | exact ok_of _ _ (by decide +kernel) | exact error_of _ _ (by decide +kernel) | exact forall_of_nil _ _ (by decide +kernel) | exact trivial

theorem witness_preempt_idle :
    ∃ (s : State) (p c first n : Nat),
    (s.ctx c).alive = true ∧ (s.ctx c).dying = none ∧ first + n ≤ (s.ctx c).word 4 % 2 ^ 16 ∧
    let x := s.ctx c
    Turn s p 0x03 [c, first, n] ∧ (s.mod.mbox p).began = false ∧
      (∀ l, first ≤ l → l < first + n → l ∉ x.stopped) ∧
      (∀ e ∈ s.thrs, e.2.ctx = c → e.2.lclu < first ∨ first + n ≤ e.2.lclu) ∧ x.saved.length ≤ x.word 12 % 2 ^ 16  := by
  let s := asked 0x03 [0, 0, 1] (alive readyS)
  refine ⟨s, 1, 0, 0, 1, ?_⟩
  try dsimp only [Fires, HasTok, Arrived, FreshOp, FreshAt, Solo, AtHome, AtVault, HasReg, Untracked, Quiet, RoleOk, DistinctWrites, ReadyPlain, NothingHeld, NoneCommits]
  repeat' apply And.intro
  all_goals first | (exact (fun i h1 h2 => absurd h1 (by omega))) | decide +kernel | exact args_of _ _ _ (by decide +kernel) | exact .inl (by decide +kernel) | (intro j hj; omega) | (intro l h1 h2; obtain rfl : l = 0 := (by omega); decide +kernel) | exact ok_of _ _ (by decide +kernel) | exact error_of _ _ (by decide +kernel) | exact forall_of_nil _ _ (by decide +kernel) | exact trivial

theorem witness_resume_idle :
    ∃ (s : State) (p c first n : Nat),
    (s.ctx c).alive = true ∧ (s.ctx c).dying = none ∧ first + n ≤ (s.ctx c).word 4 % 2 ^ 16 ∧
    let x := s.ctx c
    Turn s p 0x04 [c, first, n] ∧ (s.mod.mbox p).began = false ∧
      (∀ l, first ≤ l → l < first + n → l ∈ x.stopped) ∧ x.saved = [] ∧ x.fabs = []  := by
  let s := asked 0x04 [0, 0, 1] (stoppedS readyS)
  refine ⟨s, 1, 0, 0, 1, ?_⟩
  try dsimp only [Fires, HasTok, Arrived, FreshOp, FreshAt, Solo, AtHome, AtVault, HasReg, Untracked, Quiet, RoleOk, DistinctWrites, ReadyPlain, NothingHeld, NoneCommits]
  repeat' apply And.intro
  all_goals first | (exact (fun i h1 h2 => absurd h1 (by omega))) | decide +kernel | exact args_of _ _ _ (by decide +kernel) | exact .inl (by decide +kernel) | (intro j hj; omega) | (intro l h1 h2; obtain rfl : l = 0 := (by omega); decide +kernel) | exact ok_of _ _ (by decide +kernel) | exact error_of _ _ (by decide +kernel) | exact forall_of_nil _ _ (by decide +kernel) | exact trivial

theorem witness_preempt_saves :
    ∃ (s : State) (p c first n k r : Nat) (t : Thread),
    Turn s p 0x03 [c, first, n] ∧ (s.mod.mbox p).began = true ∧
    (s.ctx c).alive = true ∧ (s.ctx c).dying = none ∧ first + n ≤ (s.ctx c).word 4 % 2 ^ 16 ∧ Calm s ∧ s.thrs = [(k, t)] ∧ t.ctx = c ∧
    first ≤ t.lclu ∧ t.lclu < first + n ∧ t.frames = [] ∧ t.post = .preempt ∧ t.pack = .none ∧
    (∀ j, j < r → tget (s.ctx c).saved j ≠ none) ∧ tget (s.ctx c).saved r = none ∧ r < (s.ctx c).word 12 % 2 ^ 16 ∧
    let rec_ := (s.ctx c).word 11 / 2 ^ 14 % 2 ^ 42 * 2 ^ 14 + 2 ^ 14 * r
    paPkg rec_ = s.mod.pkg ∧ Memory.wf s.mem = true  := by
  let s := began ({ asked 0x03 [0, 0, 1] (stoppedS readyS) with thrs := [(0, drained)] })
  refine ⟨s, 1, 0, 0, 1, 0, 0, drained, ?_⟩
  try dsimp only [Fires, HasTok, Arrived, FreshOp, FreshAt, Solo, AtHome, AtVault, HasReg, Untracked, Quiet, RoleOk, DistinctWrites, ReadyPlain, NothingHeld, NoneCommits]
  repeat' apply And.intro
  all_goals first | (exact (fun i h1 h2 => absurd h1 (by omega))) | decide +kernel | exact args_of _ _ _ (by decide +kernel) | exact .inl (by decide +kernel) | (intro j hj; omega) | (intro l h1 h2; obtain rfl : l = 0 := (by omega); decide +kernel) | exact ok_of _ _ (by decide +kernel) | exact error_of _ _ (by decide +kernel) | exact forall_of_nil _ _ (by decide +kernel) | exact trivial

theorem witness_resume_restores :
    ∃ (s : State) (p c first n r clu : Nat) (x : Saved),
    Turn s p 0x04 [c, first, n] ∧
    (s.mod.mbox p).began = true ∧ (s.ctx c).alive = true ∧ (s.ctx c).dying = none ∧ first + n ≤ (s.ctx c).word 4 % 2 ^ 16 ∧ Calm s ∧ s.thrs = [] ∧ (s.ctx c).fabs = [] ∧
    (s.ctx c).saved = [(r, x)] ∧ first ≤ x.lclu ∧ x.lclu < first + n ∧
    mapCluster s (s.ctx c) x.lclu = .ok (s.mod.pkg, clu) ∧ (s.clu clu).spawns = [] ∧
    let rec_ := (s.ctx c).word 11 / 2 ^ 14 % 2 ^ 42 * 2 ^ 14 + 2 ^ 14 * r
    let w := fun (o : Nat) => mword s.mem (rec_ + o)
    paPkg rec_ = s.mod.pkg ∧ w 0x10 % 4 = 0 ∧ w 0x10 / 32 % 4 = 0  := by
  let s := began (asked 0x04 [0, 0, 1] (savedS))
  refine ⟨s, 1, 0, 0, 1, 0, 0, ⟨0, none, 0⟩, ?_⟩
  try dsimp only [Fires, HasTok, Arrived, FreshOp, FreshAt, Solo, AtHome, AtVault, HasReg, Untracked, Quiet, RoleOk, DistinctWrites, ReadyPlain, NothingHeld, NoneCommits]
  repeat' apply And.intro
  all_goals first | (exact (fun i h1 h2 => absurd h1 (by omega))) | decide +kernel | exact args_of _ _ _ (by decide +kernel) | exact .inl (by decide +kernel) | (intro j hj; omega) | (intro l h1 h2; obtain rfl : l = 0 := (by omega); decide +kernel) | exact ok_of _ _ (by decide +kernel) | exact error_of _ _ (by decide +kernel) | exact forall_of_nil _ _ (by decide +kernel) | exact trivial


/-! ### Results worked out by hand from the manual -/

/-- What a scalar instruction on a and b sends to operand a of slot 1. -/
noncomputable def sends (i : Instr) (a b : Word) (r : Tok) : Bool :=
  gives i [(5, .s a), (133, .s b)] id fun s => (fr s).transit == [(1, r)]

/-- R237: -1 times -1, high halves. -/
theorem test_mulh : (sends (.mulh ⟨0, 0x1FF, 1⟩) (-1) (-1) (.s 0) && sends (.mulhz ⟨0, 0x1FF, 1⟩) (-1) (-1) (.s (-2))) = true := by
  decide +kernel
/-- R238: a divisor of 0, and the least value divided by -1. -/
theorem test_div : (sends (.div ⟨0, 0x1FF, 1⟩) 7 0 (.s (-1)) && sends (.div ⟨0, 0x1FF, 1⟩) (BitVec.intMin 64) (-1) (.s (BitVec.intMin 64))) = true := by
  decide +kernel
/-- R238: the sign of a remainder is the dividend's. -/
theorem test_rem : (sends (.rem ⟨0, 0x1FF, 1⟩) (-7) 2 (.s (-1)) && sends (.rem ⟨0, 0x1FF, 1⟩) 7 0 (.s 7)) = true := by decide +kernel
/-- R237: a 32-bit sum is sign-extended. -/
theorem test_add32 : sends (.addW ⟨0, 0x1FF, 1⟩) 0x7FFFFFFF 1 (.s 0xFFFFFFFF80000000) = true := by decide +kernel
/-- R239: shift counts are taken modulo 64. -/
theorem test_shift : (sends (.sar ⟨0, 0x1FF, 1⟩) (BitVec.intMin 64) 127 (.s (-1)) && sends (.rol ⟨0, 0x1FF, 1⟩) 0x8000000000000001 65 (.s 3)) = true := by
  decide +kernel
/-- R240: the field of 8 bits at 4, signed, and a field inserted. -/
theorem test_field : (sends (.exts ⟨0, 0x1FF, 1⟩) 0xF80 0x704 (.s (-8)) &&
    sends (.ins ⟨0, 0x1FF, 1⟩) 0xFFFF (0x704 + 0x12 * 2 ^ 14) (.s 0xF12F)) = true := by decide +kernel
/-- R241: signed and unsigned order. -/
theorem test_order : (sends (.tlt ⟨0, 0x1FF, 1⟩) (-1) 0 (.s 1) && sends (.tltz ⟨0, 0x1FF, 1⟩) (-1) 0 (.s 0)) = true := by decide +kernel
/-- R191: IMM14 is sign-extended for ADDI and zero-extended for ANDI. -/
theorem test_immediate : (sends (.addi ⟨0, 0x3FFF, 1⟩) 5 0 (.s 4) && sends (.andi ⟨0, 0x3FFF, 1⟩) (-1) 0 (.s 0x3FFF)) = true := by
  decide +kernel
/-- R246, R217: 1 / 3 in FP32, to nearest. -/
theorem test_fdiv32 : sends (.fdivF32 ⟨0, 0x1FF, 1⟩) 0x3F800000 0x40400000 (.s 0x3EAAAAAB) = true := by decide +kernel
/-- R217: the greatest FP64 doubled overflows to infinity. -/
theorem test_fadd64 : sends (.faddF64 ⟨0, 0x1FF, 1⟩) 0x7FEFFFFFFFFFFFFF 0x7FEFFFFFFFFFFFFF (.s 0x7FF0000000000000) = true := by
  decide +kernel
/-- R220: 2.5 to an integer, to nearest even and toward zero. -/
theorem test_fcvt : (sends (.fcvtI64F64 ⟨0, 0x1FF, 1⟩) 0x400C000000000000 0 (.s 4) &&
    sends (.fcvtI64F64Rtz ⟨0, 0x1FF, 1⟩) 0xC00C000000000000 0 (.s (-3))) = true := by decide +kernel
/-- R286: a saturating sum of signed bytes, and a wrapping one. -/
theorem test_vadd : (gives (.vaddInt ⟨0, 0x1FF, 1, 0, 0, 0, 1, 0, 0⟩) [(5, .v 0x807F), (133, .v 0xFF01)] id (fun s => (fr s).transit == [(1, .v 0x807F)]) &&
    gives (.vaddInt ⟨0, 0x1FF, 1, 0, 0, 0, 0, 0, 0⟩) [(5, .v 0x807F), (133, .v 0xFF01)] id (fun s => (fr s).transit == [(1, .v 0x7F80)])) = true := by
  decide +kernel
/-- R256: BR leaves by its exit to the block 2 x 128 bytes on. -/
theorem test_system_call_in_handler :
    (let s := handling (onFr (committing ⟨0, 0x100, 3, 77⟩ (at5 (.br ⟨0, 0, 2⟩) [])) fun f => { f with chunks := [(0, List.replicate 32 0)] })
    nextHas (exec (.commitRequest 0) s) fun s' =>
      !(s'.ctx (th s).ctx).alive && (s'.ctx (th s).ctx).killReason == some (0xFE, (s.ctx (th s).ctx).gen) && s'.thrs.isEmpty) = true := by
  decide +kernel

theorem test_branch : gives (.br ⟨0, 1, 2⟩) [] id (fun s => (fr s).exit == some ⟨1, 256, 0, 0⟩) = true := by decide +kernel
/-- R430: TRAP holds class 0x11 with its code. -/
theorem test_trap : gives (.trap ⟨0, 7⟩) [] id (fun s => (fr s).faults == [⟨0x11, 7 + 65536 * 5, none, 5⟩]) = true := by decide +kernel
/-- R307: the lowest free name with serial 1, and 0 when no name is free. -/
theorem test_mclaim : (gives (.mclaim ⟨0, 0x1FF, 1, 0, 0⟩) [] slotted (fun s => (fr s).transit == [(1, .s 0x103)]) &&
    gives (.mclaim ⟨0, 0x1FF, 1, 0, 0⟩) [] crowded (fun s => (fr s).transit == [(1, .s 0)])) = true := by decide +kernel
/-- R316: a segment of row 1 lies 256 + 64 bytes into its slot. -/
theorem test_mrow : nextHas (exec (.movePerform 0) (moving (.mrow ⟨0, 0x1FF, 0x1FF, 1, 1, 0⟩) (.v 7) (slotted State.reset)))
    (fun s => s.opmem == [(320, 7)]) = true := by decide +kernel
/-- R320: row 0 of A is (2, 0, …); rows 0 and 1 of B begin with 3 and -1. -/
theorem test_mma : nextHas (exec (.matrixJobComplete 0 0) (running (.mma ⟨0, 0x1FF, 1, 0, 0⟩)
      { slotted (at5 (.mma ⟨0, 0x1FF, 1, 0, 0⟩) []) with opmem := [(32768, 2), (65536, 3), (65792, 0xFF)] }))
    (fun s => s.opmem.take 5 == [(0, 6), (4, 0xFE), (5, 0xFF), (6, 0xFF), (7, 0xFF)]) = true := by decide +kernel
/-- R372: LAYERS 0xFFFF, NCSEL 1, SEL 5, LOADED bit 5. -/
theorem test_lcstat : gives (.lcstat ⟨0, 0x1FF, 1⟩) [] fabricked (fun s => (fr s).transit == [(1, .s 0xFFFF0001A020)]) = true := by
  decide +kernel
/-- R390: STQ of W and C. -/
theorem test_stq : gives (.stq ⟨0, 0x1FF, 1, 0⟩) [(5, .s 15)] (streaming ∘ mapped) (fun s => (fr s).transit == [(1, .s 0x100000002)]) = true := by
  decide +kernel
/-- R392: DONE, OF, the fault flag with cause 15, and poison. -/
theorem test_copy_status : nextHas (exec (.copyCompletion 0 0) (copying failedCpy (at5 (.cpy cpyForm) [])))
    (fun s => tget (th s).status 0 == some (1 + 8 + 128 + 256 + 15 * 4096)) = true := by decide +kernel
/-- R379: a count of zero is code 0x70. -/
theorem test_copy_check : gives (.cpy cpyForm) [(5, .s 0x4000), (133, .s 0x5000), (261, .v 0)] id
    (fun s => (fr s).faults == [⟨0x0C, 5 + 512 * 0x70 + 65536 * 31, some 31, 5⟩]) = true := by decide +kernel
/-- R333: a full port under DROP answers 1. -/
theorem test_port_full : nextHas (exec (.grantRequest 0) (requesting 63 (brimming 1 (ported State.reset))))
    (fun s => (s.msg 0).map (·.sub) == some 1) = true := by decide +kernel
/-- R342: the descriptor of a handler: tag, sender, one word, tagged, port 63. -/
theorem test_handler : nextHas (exec (.firing 0) ((ported (mapped State.reset)).modClu 0 fun c => { c with ports := [(63, { port63 with res := [pmsg] })] }))
    (fun s => (s.thr 0).map (regCommitted · 0 96) == some (.s (0xFFFF + 0x7FF * 2 ^ 16 + 2 ^ 28 + 2 ^ 32 + 63 * 2 ^ 33))) = true := by
  decide +kernel
/-- R404, R167: COMPOSE of width 8 on an idle cluster produces 8. -/
theorem test_compose : gives (.compose ⟨0, 0x1FF, 1⟩) [(5, .s 8)] id (fun s => (fr s).transit == [(1, .s 8)]) = true := by decide +kernel
/-- R93: a write-through store of one byte at its home. -/
theorem test_home_store : nextHas (exec (.wtUcStore 0) (arrive { homeMsg .wtUcStore with data := [some 5], len := 1 } homeS))
    (fun s => s.mem == [(0x1000, 5)]) = true := by decide +kernel
/-- R279: a reply's bytes, the first forwarded from an older store. -/
theorem test_load_reply : nextHas (exec (.loadReply 0 0) (replied (at5 loadI [])))
    (fun s => (fr s).transit == [(1, .s 0x3F3E3D3C3B3A39EE)]) = true := by decide +kernel
/-- R271: ACAS of an equal value reserves its new value and writes nothing. -/
theorem test_acas : nextHas (exec (.atomicAtHome 0) (arrive { homeMsg .atomic with src := .acc 0 0 0 0, data := List.replicate 8 (some 0), sub := 9, arg := 5 } homeS))
    (fun s => s.resvs == [⟨0, 0, 0, 0x1000, 5 :: List.replicate 7 0⟩] && s.mem == []) = true := by decide +kernel
/-- R68: a `.fec` load of full granules holds them. -/
theorem test_fec : nextHas (exec (.vaultAccess 0) { arrive { vaultMsg with sub := 2, src := .acc 1 2 3 4 } vaultS with full := [2 ^ 45 + 79 * 2 ^ 19 + 16] })
    (fun s => s.holds == [(2 ^ 45 + 79 * 2 ^ 19 + 16, .block 1 2 false)]) = true := by decide +kernel
/-- R24: a page without W refuses a store with cause 1 at level 5. -/
theorem test_read_only : translate (mapping (page false true true 0x10000) State.reset) 0 true none 79 1 0xFFFF = .fail 1 5 := by
  decide +kernel
/-- R445: START with a length below 8 KiB fails with code 3. -/
theorem test_start_short : nextHas (exec (.start 1 0x1FFF) { State.reset with mod := { Module.reset with lock := 1 } })
    (fun s => s.mod.st == .failed && s.mod.failc == 3) = true := by decide +kernel
/-- R449: CTX_KILL of a context that is not alive answers 3. -/
theorem test_ctx_kill : nextHas (exec (.ctxKill 1) (asked 2 [0] readyS)) (fun s => (s.mod.mbox 1).result == 3) = true := by decide +kernel

/-- The linked-list walk of chapter 21 as twivar reads it: two blocks. -/
noncomputable def walkSource : List TwItem :=
  [.block ⟨"walk", false, [(4, 0, 1), (5, 3, 0x1FF), (6, 4, 0x1FF), (7, 5, 0x1FF)], [(0, 4), (1, 5), (2, 6)],
    (([0x46000002, 0x44041083, 0x0C000D80, 0x0E27FF81, 0x10000209, 0x56080000, 0x0A021107].zipIdx.filterMap fun x =>
      (decodeTableWord 32 x.1).map fun i => (x.2, TwOp.instr i)) ++
     [(7, .branch (.br ⟨2, 1, 0⟩) "done"), (8, .branch (.br ⟨3, 0, 0⟩) "walk")] ++
     ([0x0C010B82, 0x30000086].zipIdx.filterMap fun x => (decodeTableWord 32 x.1).map fun i => (x.2 + 9, TwOp.instr i)))⟩,
   .block ⟨"done", false, [(7, 0, 0x1FF), (5, 0x80, 0x1FF)], [],
    ([(0, 0x0040A1408007FFFF), (2, 0x000000019C1BFFFF)].filterMap fun x =>
      (decodeTableWord 64 x.2).map fun i => (x.1, TwOp.instr i)) ++ [(4, .branch (.br ⟨0, 0, 0⟩) "done")]⟩]

/-- The little-endian word at a place of some bytes. -/
def byteWord (bs : List Byte) (i : Nat) : Nat := ((bs.drop (4 * i)).take 4).foldr (fun b n => b.toNat + 256 * n) 0

/-- The words of chapter 21 for both blocks: header, slots, and the branch from `walk` to `done`. -/
theorem test_twivar_walk : ((twSection [] 0x1000 walkSource).map fun bs =>
    bs.length == 512 &&
    ([0, 1, 2, 3, 10, 11, 12, 13, 14, 32, 38, 39, 40, 41, 42, 43].map (byteWord bs) == [0xA5080000, 4, 0x60504, 0, 0x80100200,
      0x8017FE03, 0x801BFE04, 0x801FFE05, 0, 0x46000002, 0x0A021107, 0x61100002, 0x61800000, 0x0C010B82, 0x30000086, 0]) &&
    ([64, 65, 74, 75, 96, 97, 98, 99, 100].map (byteWord bs) == [0xA5000000, 3, 0x801FFE00, 0x8017FE80, 0x8007FFFF, 0x0040A140,
      0x9C1BFFFF, 1, 0x60000000])) = some true := by decide +kernel

/-- The pattern and handler entries of R458. -/
theorem test_twivar_pattern : twSection [("walk", 0x40)] 0 [.pattern "plist" 8 2 0 3 0 1 4 1, .ftab "walk" (.num 0)] =
    some ([8, 0, 0, 0, 0, 0, 0, 0, 0x02, 0x18, 0x01, 0x0B, 0, 0, 0, 0] ++ (0x40 :: List.replicate 15 0)) := by decide +kernel

/-- Expressions of R209: exact arithmetic, and bits of a negative value. -/
theorem test_twivar_expr : (TwExpr.bits (.sub (.num 0) (.num 1)) (.num 11) (.num 4)).value [] = some 255 := by decide +kernel

end Sys2Proof.Tests
end

section
/-! PROOFS. Writes of the Sheepdog in a calm state, what the save of a logical cluster leaves alone, and the refutation of
`Obligations.MailboxCommands`. -/

namespace Sys2Proof.Machine

/-! ### Tables and byte memory -/

theorem mem_of_tget {α : Type} {t : Tab α} {k : Nat} {v : α} (h : tget t k = some v) : (k, v) ∈ t := by
  induction t with
  | nil => cases h
  | cons e r ih =>
    obtain ⟨k', v'⟩ := e
    simp only [tget] at h
    split at h
    · next hk => simp_all
    · exact List.mem_cons_of_mem _ (ih h)

@[simp] theorem length_mread (m : List Host.Cell) (a n : Nat) : (mread m a n).length = n := by
  induction n generalizing a with
  | zero => rfl
  | succ n ih => simp [mread, ih]

@[simp] theorem length_leBytes (n x : Nat) : (leBytes n x).length = n := by
  induction n generalizing x with
  | zero => rfl
  | succ n ih => simp [leBytes, ih]

theorem getElem_mread (m : List Host.Cell) (a n i : Nat) (h : i < (mread m a n).length) :
    (mread m a n)[i] = mget m (a + i) := by
  induction n generalizing a i with
  | zero => simp at h
  | succ n ih =>
    cases i with
    | zero => rfl
    | succ i =>
      simp only [length_mread] at h
      simp only [mread, List.getElem_cons_succ]
      rw [ih (a + 1) i (by simpa using h), Nat.add_right_comm, Nat.add_assoc]

theorem mwriteOpt_map_some (m : List Host.Cell) (a : Nat) (l : List Byte) :
    mwriteOpt m a (l.map some) = mwrite m a l := by
  induction l generalizing m a with
  | nil => rfl
  | cons b r ih => exact ih _ _

theorem mget_mwriteOpt_other (l : List (Option Byte)) (m : List Host.Cell) (a a' : Nat)
    (h : a' < a ∨ a + l.length ≤ a') : mget (mwriteOpt m a l) a' = mget m a' := by
  induction l generalizing m a with
  | nil => rfl
  | cons b r ih =>
    simp only [List.length_cons] at h
    cases b with
    | none => exact ih _ _ (by omega)
    | some b => rw [mwriteOpt, ih _ _ (by omega), mget_mput_other _ _ _ _ (by omega)]

/-- Byte `i` of a write reads back. -/
theorem mget_mwrite_getElem (l : List Byte) (m : List Host.Cell) (a i : Nat) (hm : Memory.wf m = true)
    (hi : i < l.length) : mget (mwrite m a l) (a + i) = l[i] := by
  have hread := mread_mwrite l m a hm
  have hi' : i < (mread (mwrite m a l) a l.length).length := by simpa using hi
  rw [← getElem_mread _ _ _ _ hi']
  simp only [hread]

/-! ### The Sheepdog's accesses in a calm state (R91, R113) -/

/-- From `s` to `s'` nothing changes but directory entries that are gone. -/
def FewerDirs (s s' : State) : Prop := ∃ D, D ⊆ s.dirs ∧ s' = { s with dirs := D }

theorem FewerDirs.refl (s : State) : FewerDirs s s := ⟨s.dirs, fun _ h => h, rfl⟩

theorem FewerDirs.trans {s s' s'' : State} (h : FewerDirs s s') (h' : FewerDirs s' s'') : FewerDirs s s'' := by
  obtain ⟨D, hD, rfl⟩ := h
  obtain ⟨D', hD', rfl⟩ := h'
  exact ⟨D', fun _ he => hD (hD' he), rfl⟩

/-- `Calm` speaks of these fields only. -/
theorem Calm.of_fields {s s' : State} (h : Calm s) (hg : s'.grids = s.grids) (hn : s'.net = s.net)
    (hq : s'.mod.postq = s.mod.postq) (hr : s'.resvs = s.resvs) (hd : s'.dirs ⊆ s.dirs) (hi : s'.dies = s.dies) :
    Calm s' := by
  obtain ⟨⟨grids, net, postq, resvs, dirs⟩, dies⟩ := h
  exact ⟨⟨hg.trans grids, hn.trans net, hq.trans postq, hr.trans resvs, fun e he => dirs e (hd he)⟩, hi ▸ dies⟩

theorem Calm.grids {s : State} (h : Calm s) : s.grids = [] := h.1.1

theorem Calm.net {s : State} (h : Calm s) : s.net = [] := h.1.2.1

theorem FewerDirs.calm {s s' : State} (h : FewerDirs s s') (hc : Calm s) : Calm s' := by
  obtain ⟨D, hD, rfl⟩ := h
  exact hc.of_fields rfl rfl rfl rfl hD rfl

/-- In a calm state no line is an engine's (R84). -/
theorem Calm.dir_ne_eo {s : State} (h : Calm s) (node line : Nat) : (s.dir node line).st ≠ .eo := by
  obtain ⟨⟨-, -, -, -, hdirs⟩, -⟩ := h
  unfold State.dir
  cases he : tget s.dirs (nodeKey node line) with
  | none => decide
  | some d => exact hdirs _ (mem_of_tget he)

/-- In a calm state no line has a holder beyond the package (R112). -/
theorem Calm.die_filter {s : State} (h : Calm s) (d : Nat) : (s.die d).filter = [] := by
  unfold State.die
  cases he : tget s.dies d with
  | none => rfl
  | some x => exact (h.2 _ (mem_of_tget he)).1

theorem filterBack_calm {s : State} (h : Calm s) (line : Nat) : filterBack s line = s := by
  simp [filterBack, h.die_filter]

theorem noInstall_calm {s : State} (h : Calm s) (gs : List Nat) (hit : Msg → Bool) : noInstall s gs hit = s := by
  simp only [noInstall, h.net, List.map_nil]
  rw [← h.net]

theorem setDir_none_fewer (s : State) (node line : Nat) : FewerDirs s (s.setDir node line Dir.none) :=
  ⟨tdel s.dirs (nodeKey node line), fun e he => mem_of_mem_tdel _ _ e he, by simp [State.setDir]⟩

/-- With nothing cached and nothing on its way, the recall of a line only forgets its directory entries. -/
theorem hwRecall_calm {s : State} (h : Calm s) (line : Nat) : FewerDirs s (hwRecall s line true) := by
  have hclear : ∀ (ns : List Nat) (s : State), Calm s → FewerDirs s (ns.foldl (fun s n =>
      if (s.dir n line).st = .eo then s else s.setDir n line Dir.none) s) := by
    intro ns
    induction ns with
    | nil => exact fun s _ => .refl s
    | cons n ns ih =>
      intro s hs
      rw [List.foldl_cons, if_neg (hs.dir_ne_eo n line)]
      have hstep := setDir_none_fewer s n line
      exact hstep.trans (ih _ (hstep.calm hs))
  simp only [hwRecall, h.grids, h.net, List.map_nil, List.foldl_nil, if_true, filterBack_calm h, noInstall_calm h]
  exact hclear _ s h

theorem hwRecalls_calm (f : Nat → Nat) (ls : List Nat) {s : State} (h : Calm s) :
    FewerDirs s (ls.foldl (fun s i => hwRecall s (f i) true) s) := by
  induction ls generalizing s with
  | nil => exact .refl s
  | cons i ls ih =>
    have hstep := hwRecall_calm h (f i)
    rw [List.foldl_cons]
    exact hstep.trans (ih (hstep.calm h))

/-- A write of the Sheepdog in a calm state: directory entries may go, poison may change, and memory holds the bytes, if this
package is their home. -/
theorem hwPut_calm {s : State} (h : Calm s) (pa : Nat) (data : List (Option Byte)) :
    ∃ D P m, D ⊆ s.dirs ∧ hwPut s pa data = { s with dirs := D, poison := P, mem := m } ∧
      (m = s.mem ∨ m = mwriteOpt s.mem pa data) ∧
      (paPkg (64 * lineOf pa) = s.mod.pkg → m = mwriteOpt s.mem pa data) := by
  obtain ⟨D, hD, hs⟩ := hwRecalls_calm (pa / 64 + ·) (List.range ((pa + data.length + 63) / 64 - pa / 64)) h
  simp only [hwPut, hs]
  split
  · next hl => exact ⟨D, s.poison, s.mem, hD, rfl, .inl rfl, fun hp => by simp [State.holdsLine, hp] at hl⟩
  · exact ⟨D, _, _, hD, rfl, .inr rfl, fun _ => rfl⟩

/-! ### What saving a logical cluster leaves alone (R426, R427) -/

/-- A step from a calm state ends in one, with every fabric and the byte of memory at `a` as they were. -/
def KeepsByte (a : Nat) (s s' : State) : Prop :=
  Calm s → Calm s' ∧ (∀ q, (s'.clu q).fab = (s.clu q).fab) ∧ mget s'.mem a = mget s.mem a

theorem KeepsByte.refl (a : Nat) (s : State) : KeepsByte a s s := fun h => ⟨h, fun _ => rfl, rfl⟩

theorem KeepsByte.trans {a : Nat} {s s' s'' : State} (h : KeepsByte a s s') (h' : KeepsByte a s' s'') :
    KeepsByte a s s'' := fun hc => by
  obtain ⟨hc', hfab, hmem⟩ := h hc
  obtain ⟨hc'', hfab', hmem'⟩ := h' hc'
  exact ⟨hc'', fun q => (hfab' q).trans (hfab q), hmem'.trans hmem⟩

theorem KeepsByte.foldl {α : Type} {a : Nat} (f : State → α → State) (xs : List α)
    (h : ∀ s, ∀ x ∈ xs, KeepsByte a s (f s x)) (s : State) : KeepsByte a s (xs.foldl f s) := by
  induction xs generalizing s with
  | nil => exact .refl a s
  | cons x xs ih =>
    exact (h s x List.mem_cons_self).trans (ih (fun s y hy => h s y (List.mem_cons_of_mem _ hy)) _)

theorem hwStore_keepsByte (s : State) (pa a : Nat) (bs : List Byte) (h : a < pa ∨ pa + bs.length ≤ a) :
    KeepsByte a s (hwStore s pa bs) := fun hc => by
  obtain ⟨D, P, m, hD, hs, hm, -⟩ := hwPut_calm hc pa (bs.map some)
  rw [hwStore, hs]
  refine ⟨hc.of_fields rfl rfl rfl rfl hD rfl, fun _ => rfl, ?_⟩
  rcases hm with rfl | rfl
  · rfl
  · exact mget_mwriteOpt_other _ _ _ _ (by simpa using h)

/-- An update of a cluster that keeps its fabric. -/
theorem modClu_keepsByte (a : Nat) (s : State) (c : Nat) (f : Clu → Clu) (hf : (f (s.clu c)).fab = (s.clu c).fab) :
    KeepsByte a s (s.modClu c f) := fun hc => by
  refine ⟨hc.of_fields rfl rfl rfl rfl (fun _ h => h) rfl, fun q => ?_, rfl⟩
  by_cases hq : q = c
  · subst hq
    simpa [State.modClu, State.clu] using hf
  · simp [State.modClu, State.clu, tget_tset_other _ _ _ _ hq]

theorem modCtx_keepsByte (a : Nat) (s : State) (c : Nat) (f : Ctx → Ctx) : KeepsByte a s (s.modCtx c f) := fun hc =>
  ⟨hc.of_fields rfl rfl rfl rfl (fun _ h => h) rfl, fun _ => rfl, rfl⟩

theorem evictSlot_keepsByte (a : Nat) (s : State) (clu : Nat) (w : Nat × Nat × Nat) (ps : List Nat) :
    KeepsByte a s (evictSlot s clu w ps) :=
  (modClu_keepsByte a s clu _ rfl).trans (modCtx_keepsByte a _ _ _)

theorem length_entWords (e : SEnt) : (entWords e).length = 4 := rfl

theorem length_flatMap_const {α β : Type} (f : α → List β) (n : Nat) (hf : ∀ x, (f x).length = n) (l : List α) :
    (l.flatMap f).length = n * l.length := by
  induction l with
  | nil => rfl
  | cons x xs ih => rw [List.flatMap_cons, List.length_append, hf, ih, List.length_cons, Nat.mul_succ, Nat.add_comm]

theorem length_barBytes (b : Bar) : (barBytes b).length = 152 := by simp [barBytes, Sig.image]

/-- The tables of a record are written inside its 4 MiB. -/
theorem saveTables_keepsByte (s : State) (ctx n clu base a : Nat) (h : a < base ∨ base + 2 ^ 22 ≤ a) :
    KeepsByte a s (saveTables s ctx n clu base) := by
  have hnames := hwStore_keepsByte s (base + 0x3B0000) a
    ((List.range 64).flatMap fun i => leBytes 8 (nameWord (slotAt (s.ctx ctx).names n i)))
    (by rw [length_flatMap_const _ 8 (by simp)]; simp; omega)
  refine hnames.trans (.trans (hwStore_keepsByte _ _ a _ ?_) (.foldl _ _ (fun s j hj => hwStore_keepsByte _ _ a _ ?_) _))
  · rw [length_flatMap_const _ 32]
    · simp
      omega
    · intro e
      rw [length_flatMap_const _ 8 (by simp)]
      split <;> simp [length_entWords, freeEntWords]
  · have hj := List.mem_range.mp hj
    rw [length_barBytes]
    omega

/-- A saved physical slot stands in its owner's image (R427). -/
theorem mget_savePhys {s : State} (h : Calm s) (hm : Memory.wf s.mem = true) {clu p : Nat} {w : Nat × Nat × Nat}
    (hw : ((s.clu clu).slot p).owner = some w) {a : Nat} (ha : slotImage s w.1 w.2.1 (imageName s w p) = a)
    (hp : paPkg (64 * lineOf a) = s.mod.pkg) {i : Nat} (hi : i < 32768) :
    mget (savePhys s clu p).mem (a + i) = mget s.opmem (physBase clu p + i) := by
  obtain ⟨D, P, m, -, hs, -, hput⟩ := hwPut_calm h a ((mread s.opmem (physBase clu p) 32768).map some)
  have hmem : (savePhys s clu p).mem = m := by simp [savePhys, hw, ha, hwStore, hs]
  rw [hmem, hput hp, mwriteOpt_map_some, mget_mwrite_getElem _ _ _ _ hm (by simpa using hi), getElem_mread]

/-- Saving a physical slot leaves a calm state calm, and every fabric as it was. -/
theorem savePhys_calm {s : State} (h : Calm s) (clu p : Nat) :
    Calm (savePhys s clu p) ∧ ∀ q, ((savePhys s clu p).clu q).fab = (s.clu q).fab := by
  unfold savePhys
  split
  · exact ⟨h, fun _ => rfl⟩
  · next w hw =>
    obtain ⟨D, P, m, hD, hs, -⟩ := hwPut_calm h (slotImage s w.1 w.2.1 (imageName s w p))
      ((mread s.opmem (physBase clu p) 32768).map some)
    simp only [hwStore, hs]
    obtain ⟨hcalm, hfab, -⟩ := modClu_keepsByte 0 _ clu
      (fun c => { c with phys := tset c.phys p { c.slot p with dirty := false } }) rfl
      (h.of_fields (s' := { s with dirs := D, mem := m, poison := _ }) rfl rfl rfl rfl hD rfl)
    exact ⟨hcalm, hfab⟩

/-- Once its slots are saved, parking a cluster whose fabric another context owns changes memory in its record only. -/
theorem mget_parkCluster {s : State} {ctx n p a : Nat} (hc : Calm (saveSlots s ctx p))
    (hfab : ((saveSlots s ctx p).clu p).fab.owner ≠ ctx)
    (ha : a < cluRecord (s.ctx ctx) n ∨ cluRecord (s.ctx ctx) n + 2 ^ 22 ≤ a) :
    Calm (parkCluster s ctx n p) ∧ mget (parkCluster s ctx n p).mem a = mget (saveSlots s ctx p).mem a := by
  have htabs := saveTables_keepsByte (saveSlots s ctx p) ctx n p (cluRecord (s.ctx ctx) n) a ha
  obtain ⟨-, hfab', -⟩ := htabs hc
  have hsave : saveCluster s ctx n p = saveTables (saveSlots s ctx p) ctx n p (cluRecord (s.ctx ctx) n) := by
    simp only [saveCluster, hfab' p, if_neg hfab]
  obtain ⟨hcalm, -, hmem⟩ := (htabs.trans (modCtx_keepsByte a _ ctx fun c => { c with parked := tset c.parked n p })) hc
  rw [parkCluster, hsave]
  exact ⟨hcalm, hmem⟩

@[simp] theorem flushMaps_mem (s : State) : (flushMaps s).mem = s.mem := rfl

@[simp] theorem finish_mem (s : State) (port result : Nat) (res : List Word) : (finish s port result res).mem = s.mem := rfl

/-! ### A physical slot with two owners

The clause of R179 for a map entry made invalid bounds the owners of every entry of the cluster's table of physical slots, but does
not ask that the keys of the table rise, so that a slot may be listed twice. The save (R427) picks the slots of its context entry by
entry, but finds the owner whose image it writes by the key, and so in the first of two entries with one key. -/

/-- A context whose descriptor has the words listed, the others zero. -/
def descCtx (ws : Tab Word) : Ctx :=
  { alive := true, words := (List.range 13).map fun i => (tget ws i).getD 0, gen := 0, stopped := [], dying := none,
    killReason := none, names := [], saved := [], fabs := [], parked := [] }

/-- Port 1's CTX_MAP of context 1 makes entry 0 of its map at 0x100 invalid, by which its logical cluster 0 stands on cluster 0. Physical
slot 0 of the cluster is listed for context 2, whose images begin at 0x800000, and again, DIRTY, for context 1, whose record stands at
0x400000; its first byte is 1. -/
def twoOwners : State :=
  { State.reset with
    mod := { Module.reset with
      st := .ready, queue := [1], mboxes := [(1, { Mbox.reset with cmd := 0x05, busy := true, args := [(0, 1)] })] }
    ctxs := [(1, descCtx [(3, 0x100#64), (4, 1#64), (12, 0x400000#64)]), (2, descCtx [(12, 0x800000#64)])]
    mem := [(0x103, 0x80#8)]
    opmem := [(0, 1#8)]
    clus := [(0, { Clu.reset with phys := [(0, ⟨some (2, 0, 0), false, 0⟩), (0, ⟨some (1, 0, 0), true, 0⟩)] })] }

theorem twoOwners_calm : Calm twoOwners :=
  ⟨⟨rfl, rfl, rfl, rfl, fun _ h => nomatch h⟩, fun _ h => nomatch h⟩

theorem twoOwners_turn : Turn twoOwners 1 0x05 [1, 0, 0] := by
  refine ⟨by decide, fun i x hx => ?_⟩
  match i with
  | 0 | 1 | 2 => exact Option.some.inj hx

theorem mapArg_twoOwners : mapArg twoOwners 1 0 0 = true := by decide +kernel

theorem mapCluster_twoOwners : mapCluster twoOwners (twoOwners.ctx 1) 0 = .ok (0, 0) := by
  have hword : mapWord twoOwners (twoOwners.ctx 1) 0 = 0x80000000 := by decide +kernel
  rw [mapCluster, hword]
  rfl

/-- The command parks the cluster, and then writes the entry. -/
theorem exec_ctxMap_twoOwners : exec (.ctxMap 1) twoOwners = .next (finish (flushMaps
    (hwStore (parkCluster twoOwners 1 0 0) 0x100 (leBytes 4 0))) 1 0 []) := by
  have hremap : remap twoOwners 1 1 0 0 = finish (flushMaps
      (hwStore (parkCluster twoOwners 1 0 0) 0x100 (leBytes 4 0))) 1 0 [] := by
    have hblocked : ∀ pa n, hwBlocked twoOwners pa n = false := fun _ _ => rfl
    have hstands : standsAt twoOwners 1 0 = some 0 := by decide +kernel
    have hbusy : cluBusy twoOwners 1 0 = false := by decide +kernel
    have hmap : field ((twoOwners.ctx 1).word 3) 55 8 * 256 = 0x100 := by decide +kernel
    simp [remap, hblocked, hstands, hbusy, hmap]
  show execCtxMap 1 twoOwners = _
  have hturn : turn twoOwners 1 0x05 = true := by decide
  have hknown : known twoOwners 1 = true := by decide
  have hc : argOf twoOwners 1 0 = 1 := by decide
  have hl : argOf twoOwners 1 1 = 0 := by decide
  have he : argOf twoOwners 1 2 = 0 := by decide
  have hthrs : twoOwners.thrs = [] := rfl
  simp [execCtxMap, command, hturn, hknown, hc, hl, he, hthrs, mapArg_twoOwners, hremap]

/-- The first byte of physical slot 0 is written to the image of context 2. -/
theorem mget_parkCluster_twoOwners : Calm (parkCluster twoOwners 1 0 0) ∧
    mget (parkCluster twoOwners 1 0 0).mem 0x800000 = 1 := by
  have hslots : saveSlots twoOwners 1 0 = evictSlot (savePhys twoOwners 0 0) 0 (1, 0, 0) [0] := rfl
  obtain ⟨hsaved, hfab⟩ := savePhys_calm twoOwners_calm 0 0
  obtain ⟨hcalm, hfab', hevict⟩ := evictSlot_keepsByte 0x800000 (savePhys twoOwners 0 0) 0 (1, 0, 0) [0] hsaved
  have hbyte : mget (savePhys twoOwners 0 0).mem (0x800000 + 0) = mget twoOwners.opmem (physBase 0 0 + 0) :=
    mget_savePhys twoOwners_calm (by decide +kernel) (w := (2, 0, 0)) rfl (by decide +kernel) (by decide +kernel) (by decide)
  rw [← hslots] at hcalm hfab' hevict
  have howner : ((saveSlots twoOwners 1 0).clu 0).fab.owner ≠ 1 := by
    rw [hfab' 0, hfab 0]
    decide
  have hrec : cluRecord (twoOwners.ctx 1) 0 + 2 ^ 22 ≤ 0x800000 := by decide +kernel
  obtain ⟨hpark, hmem⟩ := mget_parkCluster (n := 0) hcalm howner (.inr hrec)
  refine ⟨hpark, ?_⟩
  calc mget (parkCluster twoOwners 1 0 0).mem 0x800000
      = mget (saveSlots twoOwners 1 0).mem 0x800000 := hmem
    _ = mget (savePhys twoOwners 0 0).mem 0x800000 := hevict
    _ = mget twoOwners.opmem (physBase 0 0 + 0) := hbyte
    _ = 1 := by decide +kernel

/-- Refutes O59: of CTX_MAP's clause for an entry made invalid. In `twoOwners`, which meets its premises, the command writes a slot of the
cluster to the image of another context, outside the map entry and the record that the clause names. -/
theorem not_mailboxCommands : ¬ Obligations.MailboxCommands := by
  intro h
  obtain ⟨-, -, -, hmap, -⟩ := h twoOwners 1
  obtain ⟨-, -, hstopped⟩ := hmap 1 0 0 twoOwners_turn rfl rfl
  obtain ⟨-, hinvalid⟩ := hstopped mapArg_twoOwners (fun _ hx => nomatch hx) twoOwners_calm (by decide +kernel) (by decide +kernel)
  obtain ⟨s', hexec, -, -, -, hframe⟩ := hinvalid 0 (by decide) mapCluster_twoOwners rfl rfl rfl rfl rfl
    (by decide) (by decide)
  have hs : s' = finish (flushMaps (hwStore (parkCluster twoOwners 1 0 0) 0x100 (leBytes 4 0))) 1 0 [] := by
    rw [exec_ctxMap_twoOwners] at hexec
    exact (Host.Outcome.next.inj hexec).symm
  have hkept : mget s'.mem 0x800000 = mget twoOwners.mem 0x800000 :=
    hframe 0x800000 (.inr (by decide +kernel)) (.inr (by decide +kernel))
  obtain ⟨hpark, hbyte⟩ := mget_parkCluster_twoOwners
  obtain ⟨-, -, hstore⟩ := hwStore_keepsByte _ 0x100 0x800000 (leBytes 4 0) (.inr (by simp)) hpark
  have hnow : mget s'.mem 0x800000 = 1 := by rw [hs, finish_mem, flushMaps_mem, hstore, hbyte]
  have hwas : mget twoOwners.mem 0x800000 = 0 := by decide +kernel
  exact absurd (hnow.symm.trans (hkept.trans hwas)) (by decide)

end Sys2Proof.Machine
end

section
/-! PROOFS. The parts of an access (R44, R258, R8, R16) and `Obligations.AccessPartsCoverItsBytes`; the reply to a nullified load
and the refutation of `Obligations.CopiesAreRecalledAndFilled`. -/

namespace Sys2Proof.Machine

/-! ### The parts of an access -/

/-- An address below 0xF << 60 is prefixed (R8). -/
theorem expand_of_lt (pre : Nat) (e : Word) (h : e.toNat < 0xF * 2 ^ 60) : expand pre e = pre * 2 ^ 64 + e.toNat := by
  have hregion : field e.toNat 63 60 ≠ 0xF := by
    simp only [field, Nat.shiftRight_eq_div_pow]
    omega
  simp [expand, hregion]

/-- An address from 0xF << 60 names its region in its top byte (R8). -/
theorem expand_of_le (pre : Nat) (e : Word) (h : 0xF * 2 ^ 60 ≤ e.toNat) :
    expand pre e = e.toNat / 2 ^ 56 * 2 ^ 72 + e.toNat % 2 ^ 56 := by
  have hlt := e.isLt
  have hregion : field e.toNat 63 60 = 0xF := by
    simp only [field, Nat.shiftRight_eq_div_pow]
    omega
  have htop : field e.toNat 63 56 = e.toNat / 2 ^ 56 := by
    simp only [field, Nat.shiftRight_eq_div_pow]
    omega
  have hlow : field e.toNat 55 0 = e.toNat % 2 ^ 56 := by simp [field]
  simp only [expand, hregion, htop, hlow, if_true]

theorem partsAt_of_leaves {pre : Nat} {e : Word} {off n : Nat} {d : List (Option Byte)} (h : oneRegion e n = false) :
    partsAt pre e off n d = [Part.mk0 (expand pre e) off n d (.fail 7 0)] := by
  simp [partsAt, h]

theorem partsAt_of_oneLine {pre : Nat} {e : Word} {off n : Nat} {d : List (Option Byte)} (h : oneRegion e n = true)
    (hd : d.length = n) (hline : expand pre e % 64 + n ≤ 64) :
    partsAt pre e off n d = [Part.mk0 (expand pre e) off n d .want] := by
  have hmin : Nat.min n (64 - expand pre e % 64) = n := Nat.min_eq_left (by omega)
  simp [partsAt, h, hmin, List.take_of_length_le (Nat.le_of_eq hd)]

theorem partsAt_of_twoLines {pre : Nat} {e : Word} {off n n1 : Nat} {d : List (Option Byte)} (h : oneRegion e n = true)
    (hn1 : n1 = 64 - expand pre e % 64) (hlines : n1 < n) :
    partsAt pre e off n d = [Part.mk0 (expand pre e) off n1 (d.take n1) .want,
      Part.mk0 (expand pre e + n1) (off + n1) (n - n1) (d.drop n1) .want] := by
  have hmin : Nat.min n (64 - expand pre e % 64) = n1 := hn1 ▸ Nat.min_eq_right (by omega)
  simp [partsAt, h, hmin, Nat.ne_of_lt hlines]

/-- The addresses of a range are those of its first `a` bytes and then those of the rest. -/
theorem range_map_append (va a b : Nat) :
    (List.range a).map (va + ·) ++ (List.range b).map (va + a + ·) = (List.range (a + b)).map (va + ·) := by
  simp [List.range_add, Nat.add_assoc, Function.comp_def]

/-- What the statement says of each part: it is not empty, lies inside one line at its place in the access, waits to be
performed and has a place for each of its bytes. -/
def Part.InLine (base : Nat) (p : Part) : Prop :=
  0 < p.len ∧ p.va / 64 = (p.va + p.len - 1) / 64 ∧ p.va = base + p.off ∧ p.st = .want ∧ p.data.length = p.len

theorem Part.mk0_inLine {base va off n : Nat} {d : List (Option Byte)} (hva : va = base + off) (hn : 0 < n)
    (hline : va % 64 + n ≤ 64) (hd : d.length = n) : (Part.mk0 va off n d .want).InLine base := by
  refine ⟨hn, ?_, hva, rfl, hd⟩
  show va / 64 = (va + n - 1) / 64
  omega

/-- The parts of an access inside one region (R44): one, or two that meet where a line begins. -/
theorem partsAt_cover {pre : Nat} {e : Word} {n : Nat} {d : List (Option Byte)} (hpos : 0 < n) (hmax : n ≤ 64)
    (hd : d.length = n) (h : oneRegion e n = true) :
    (partsAt pre e 0 n d).flatMap (fun p => (List.range p.len).map (p.va + ·)) = (List.range n).map (expand pre e + ·) ∧
    (partsAt pre e 0 n d).flatMap (·.data) = d ∧ ∀ p ∈ partsAt pre e 0 n d, p.InLine (expand pre e) := by
  by_cases hline : expand pre e % 64 + n ≤ 64
  · have hpart : (Part.mk0 (expand pre e) 0 n d .want).InLine (expand pre e) := Part.mk0_inLine rfl hpos hline hd
    rw [partsAt_of_oneLine h hd hline]
    simpa [Part.mk0] using hpart
  · obtain ⟨n1, hn1⟩ : ∃ n1, n1 = 64 - expand pre e % 64 := ⟨_, rfl⟩
    have hfirst : (Part.mk0 (expand pre e) 0 n1 (d.take n1) .want).InLine (expand pre e) :=
      Part.mk0_inLine rfl (by omega) (by omega) (by rw [List.length_take]; omega)
    have hsecond : (Part.mk0 (expand pre e + n1) n1 (n - n1) (d.drop n1) .want).InLine (expand pre e) :=
      Part.mk0_inLine rfl (by omega) (by omega) (by rw [List.length_drop, hd])
    have hbytes := range_map_append (expand pre e) n1 (n - n1)
    rw [Nat.add_sub_cancel' (by omega : n1 ≤ n)] at hbytes
    rw [partsAt_of_twoLines h hn1 (by omega), Nat.zero_add]
    refine ⟨by simpa [Part.mk0] using hbytes, by simp [Part.mk0], ?_⟩
    simpa using ⟨hfirst, hsecond⟩

/-- Settles O12: by whether the access ends in the line where it begins. -/
theorem accessPartsCoverItsBytes : Obligations.AccessPartsCoverItsBytes := by
  intro pre e n d hpos hmax hd
  refine ⟨fun h => partsAt_cover hpos hmax hd h, fun h => ?_, expand_of_lt pre e, expand_of_le pre e⟩
  exact ⟨_, partsAt_of_leaves h, rfl⟩

/-! ### A reply to a nullified load

The clause of R62 for a reply bounds the load that waits for it, its instruction, part and access, but does not ask that the load was
not nullified (R196). A nullified instruction makes no access (`Op.acc`), so the reply gives it nothing and it sends no token. The clause
speaks of every state; in a run a nullified instruction has no part and has had its answer, so the state below is not one of a run. -/

theorem Op.acc_of_nul {o : Op} (h : o.nul = true) : o.acc = none := by
  simp [Op.acc, h]

/-- A reply gives nothing to an instruction that was nullified. -/
theorem deliverPart_of_nul {s : State} {k q slot : Nat} {o : Op} (m : Msg) (inst : Bool) (j : Nat)
    (hop : (s.frame k q).bind (·.op slot) = some o) (hnul : o.nul = true) : deliverPart s m inst k q slot j = s := by
  cases hpart : o.parts[j]? <;> simp [deliverPart, hop, Op.acc_of_nul hnul, hpart]

/-- The byte of LDB at slot 0, asked for under message 0. -/
def nulledPart : Part := { Part.mk0 0 0 1 [none] (.sent 0) with pa := some 0, cls := 1 }

/-- LDB at slot 0 with target 1, nullified. -/
def nulledOp : Op := { Op.mk0 (.ldb ⟨0, 0, 0, 1⟩) 0 (some 0) (.s 0) .null .null with parts := [nulledPart], nul := true }

/-- The block of `nulledOp`. -/
def nulledFrame : Frame := { Frame.mk0 0 0 false 1 none with stage := 1, fired := [0], ops := [nulledOp] }

/-- The reply that brings grid 0 the line. -/
def nulledReply : Msg :=
  { Msg.mk0 .reply (.acc 0 0 0 0) with len := 64, data := List.replicate 64 (some 0), cls := 1, sub := 2, agent := 1 }

/-- A thread whose only block waits with `nulledOp` for `nulledReply`. -/
def nulledLoad : State :=
  { State.reset with thrs := [(0, { Thread.reset with run := true, frames := [nulledFrame] })], net := [(0, nulledReply)] }

/-- The reply is taken off the network and its line installed. -/
def nulledTaken : State :=
  (freeReg (install nulledLoad 0 nulledReply) 0 nulledReply).delMsg 0

/-- The one part that waits for the reply is that of `nulledOp`, so the block is left as it was. -/
theorem exec_loadReply_nulledLoad : exec (.loadReply 0 0) nulledLoad = .next nulledTaken := by
  have hop : (nulledTaken.frame 0 0).bind (·.op 0) = some nulledOp := rfl
  calc exec (.loadReply 0 0) nulledLoad
      = .next (deliverPart nulledTaken nulledReply true 0 0 0 0) := rfl
    _ = .next nulledTaken := by rw [deliverPart_of_nul nulledReply true 0 hop rfl]

/-- Refutes O52: of the clause for a reply. The load of `nulledLoad` meets its premises and sends no token. -/
theorem not_copiesAreRecalledAndFilled : ¬ Obligations.CopiesAreRecalledAndFilled := by
  rintro ⟨-, -, hreply, -, -⟩
  obtain ⟨s', f', hexec, hframe, htransit, -⟩ := hreply 0 0 0 nulledLoad nulledReply _ nulledFrame nulledOp nulledPart
    ⟨0, 0, 0, 0, 0, 1, false⟩ 0 0 rfl rfl rfl rfl (by decide) rfl rfl rfl rfl rfl (by decide) rfl rfl rfl rfl rfl rfl rfl rfl rfl rfl
    (by decide) rfl rfl rfl rfl rfl rfl rfl (by decide)
  rw [exec_loadReply_nulledLoad] at hexec
  obtain rfl := Host.Outcome.next.inj hexec
  have hkept : nulledTaken.frame 0 0 = some nulledFrame := rfl
  obtain rfl := Option.some.inj (hkept.symm.trans hframe)
  exact absurd htransit (by decide)

end Sys2Proof.Machine
end

section
/-! PROOFS. What putting the current block back leaves alone (R117, R163), that an instruction which computes does no more, and
`Obligations.ComputingChangesOnlyItsBlock`. -/

namespace Sys2Proof.Machine

/-! ### Putting the current block back -/

theorem Thread.seq_of_frame {t : Thread} {q : Nat} {f : Frame} (h : t.frame q = some f) : f.seq = q := by
  simpa using List.find?_some h

theorem State.current_eq_some_iff {s : State} {t : Thread} {f : Frame} :
    s.current = some (t, f) ↔ s.thr s.cur.1 = some t ∧ t.frame s.cur.2.1 = some f := by
  unfold State.current
  cases s.thr s.cur.1 with
  | none => simp
  | some t' =>
    simp only [Option.map_eq_some_iff, Prod.mk.injEq, Option.some.injEq]
    constructor
    · rintro ⟨_, hf, rfl, rfl⟩
      exact ⟨rfl, hf⟩
    · rintro ⟨rfl, hf⟩
      exact ⟨f, hf, rfl, rfl⟩

theorem State.seq_of_current {s : State} {t : Thread} {f : Frame} (h : s.current = some (t, f)) : f.seq = s.cur.2.1 :=
  Thread.seq_of_frame (State.current_eq_some_iff.mp h).2

/-- A block replaced by one of the same number leaves the thread's other blocks. -/
theorem Thread.frame_modFrame_other (t : Thread) {q q' : Nat} {g : Frame} (hg : g.seq = q) (hq : q' ≠ q) :
    (t.modFrame q fun _ => g).frame q' = t.frame q' := by
  unfold Thread.modFrame Thread.frame
  induction t.frames with
  | nil => rfl
  | cons x xs ih =>
    by_cases hx : x.seq = q
    · have hxq : x.seq ≠ q' := fun h => hq (h.symm.trans hx)
      have hgq : g.seq ≠ q' := fun h => hq (h.symm.trans hg)
      simpa [hx, hgq, hxq, hq.symm] using ih
    · by_cases hxq : x.seq = q'
      · simp [hxq, hq]
      · simpa [hx, hxq] using ih

theorem State.thr_modThr_same {s : State} {k : Nat} {t : Thread} (g : Thread → Thread) (h : s.thr k = some t) :
    (s.modThr k g).thr k = some (g t) := by
  rw [State.modThr, h]
  exact tget_tset_same ..

theorem State.thr_modThr_other (s : State) {k j : Nat} (g : Thread → Thread) (h : j ≠ k) :
    (s.modThr k g).thr j = s.thr j := by
  unfold State.modThr
  split
  · exact tget_tset_other _ _ _ _ h
  · rfl

theorem State.modThr_with_thrs (s : State) (k : Nat) (g : Thread → Thread) : { s.modThr k g with thrs := s.thrs } = s := by
  unfold State.modThr
  split <;> rfl

theorem SameButBlocks.refl (s : State) (k : Nat) : SameButBlocks s s k :=
  ⟨rfl, fun _ _ => rfl, fun t h => ⟨t.frames, h⟩⟩

theorem SameButBlocks.modFrame (s : State) (k q : Nat) (g : Frame → Frame) : SameButBlocks s (s.modFrame k q g) k :=
  ⟨State.modThr_with_thrs .., fun _ hj => State.thr_modThr_other s _ hj,
    fun _ ht => ⟨_, State.thr_modThr_same _ ht⟩⟩

theorem State.frame_putFrame_other {s : State} {g : Frame} {t : Thread} {q : Nat} (hg : g.seq = s.cur.2.1)
    (ht : s.thr s.cur.1 = some t) (hq : q ≠ s.cur.2.1) : (s.putFrame g).frame s.cur.1 q = t.frame q := by
  have hthr : (s.putFrame g).thr s.cur.1 = some (t.modFrame s.cur.2.1 fun _ => g) := State.thr_modThr_same _ ht
  simpa [State.frame, hthr] using t.frame_modFrame_other hg hq

/-! ### Outcomes that only put the current block back -/

/-- The step leaves everything alone, or puts the current block back under its own number. -/
def PutsBlock (s s' : State) : Prop := s' = s ∨ ∃ g : Frame, s' = s.putFrame g ∧ g.seq = s.cur.2.1

theorem PutsBlock.sameButBlocks {s s' : State} (h : PutsBlock s s') : SameButBlocks s s' s.cur.1 := by
  obtain rfl | ⟨g, rfl, -⟩ := h
  · exact .refl ..
  · exact .modFrame ..

theorem PutsBlock.frame_other {s s' : State} (h : PutsBlock s s') {t : Thread} {q : Nat} (ht : s.thr s.cur.1 = some t)
    (hq : q ≠ s.cur.2.1) : s'.frame s.cur.1 q = t.frame q := by
  obtain rfl | ⟨g, rfl, hg⟩ := h
  · simp [State.frame, ht]
  · exact State.frame_putFrame_other hg ht hq

/-- Whatever next state the outcome answers, the step put the current block back at most. -/
def OnlyPutsBlock (s : State) (o : Host.Outcome State Fault Refusal) : Prop := ∀ s', o = .next s' → PutsBlock s s'

section
variable {s : State} {p : BitVec 2} {na nb nc : Bool} {ts : List (BitVec 9)}

theorem fireWith_onlyPutsBlock {null : Thread → Frame → State} {go : Thread → Frame → Tok → Tok → Tok → State}
    (hnull : ∀ t f, f.seq = s.cur.2.1 → PutsBlock s (null t f))
    (hgo : ∀ t f a b c, f.seq = s.cur.2.1 → PutsBlock s (go t f a b c)) :
    OnlyPutsBlock s (fireWith s p na nb nc null go) := by
  intro s' h
  obtain ⟨t, f, hcur, hcase⟩ := fireWith_cases s s' p na nb nc null go h
  have hseq : f.seq = s.cur.2.1 := State.seq_of_current hcur
  obtain rfl | ⟨-, ⟨-, rfl⟩ | ⟨-, rfl⟩ | ⟨-, rfl⟩⟩ := hcase
  · exact .inl rfl
  · exact .inr ⟨_, rfl, hseq⟩
  · exact hnull t f hseq
  · exact hgo t f _ _ _ hseq

theorem nullResult_putsBlock (ts : List (BitVec 9)) (f : Frame) (h : f.seq = s.cur.2.1) :
    PutsBlock s (nullResult s ts f) :=
  .inr ⟨_, rfl, h⟩

theorem firePure_onlyPutsBlock {g : Tok → Tok → Tok → Tok} : OnlyPutsBlock s (firePure s p na nb nc ts g) :=
  fireWith_onlyPutsBlock (fun _ => nullResult_putsBlock ts) fun _ _ _ _ _ h => .inr ⟨_, rfl, h⟩

theorem fireEnv_onlyPutsBlock {g : FEnv → Tok → Tok → Tok → Tok × Flags} :
    OnlyPutsBlock s (fireEnv s p na nb nc ts g) := by
  refine fireWith_onlyPutsBlock (fun _ => nullResult_putsBlock ts) fun t f a b c h => ?_
  split
  · exact .inl rfl
  · exact .inr ⟨_, rfl, h⟩

theorem vecFlags_onlyPutsBlock {f : VecF} {b : Bool} {g : Vec → Vec → Vec × Flags} :
    OnlyPutsBlock s (vecFlags f s b g) :=
  fireWith_onlyPutsBlock (fun _ => nullResult_putsBlock _) fun _ _ _ _ _ h => .inr ⟨_, rfl, h⟩

/-! ### The shared operations of the instructions that compute -/

theorem scalar2_onlyPutsBlock {f : GF} {op : Word → Word → Word} : OnlyPutsBlock s (scalar2 f s op) :=
  firePure_onlyPutsBlock

theorem scalar1_onlyPutsBlock {f : GF} {op : Word → Word} : OnlyPutsBlock s (scalar1 f s op) :=
  firePure_onlyPutsBlock

theorem scalarI_onlyPutsBlock {f : IF} {imm : IF → Word} {op : Word → Word → Word} :
    OnlyPutsBlock s (scalarI f s imm op) :=
  firePure_onlyPutsBlock

theorem vecPure_onlyPutsBlock {f : VecF} {b c : Bool} {g : Tok → Tok → Tok → Tok} :
    OnlyPutsBlock s (vecPure f s b c g) :=
  firePure_onlyPutsBlock

theorem fscalar_onlyPutsBlock {f : GF} {F : Fmt} {op : FOp} {two : Bool} : OnlyPutsBlock s (fscalar f s F op two) :=
  fireEnv_onlyPutsBlock

theorem ffma_onlyPutsBlock {f : FmaF} {F : Fmt} : OnlyPutsBlock s (ffma f s F) := fireEnv_onlyPutsBlock

theorem fcmpOp_onlyPutsBlock {f : GF} {F : Fmt} {r : Rel} : OnlyPutsBlock s (fcmpOp f s F r) := fireEnv_onlyPutsBlock

theorem fconv_onlyPutsBlock {f : GF} {src dst : Nat} {rm : Option Rm} : OnlyPutsBlock s (fconv f s src dst rm) :=
  fireEnv_onlyPutsBlock

theorem vecEnv_onlyPutsBlock {f : VecF} {b c : Bool} {g : FEnv → Tok → Tok → Tok → Tok × Flags} :
    OnlyPutsBlock s (vecEnv f s b c g) :=
  fireEnv_onlyPutsBlock

theorem vecFp_onlyPutsBlock {f : VecF} {op : FOp} {b c : Bool} : OnlyPutsBlock s (vecFp f s op b c) :=
  vecEnv_onlyPutsBlock

theorem vecInt_onlyPutsBlock {f : VecF} {op : Int → Int → Int} : OnlyPutsBlock s (vecInt f s op) :=
  vecFlags_onlyPutsBlock

theorem vecInt1_onlyPutsBlock {f : VecF} {op : Int → Int} : OnlyPutsBlock s (vecInt1 f s op) :=
  vecFlags_onlyPutsBlock

end

/-! ### The instructions that compute -/

/-- Each instruction by the shared operation it fires through. -/
theorem exec_onlyPutsBlock_of_computes {i : Instr} (s : State) (h : computes i = true) : OnlyPutsBlock s (exec i s) := by
  unfold exec
  cases i with
  | add _ | sub _ | mul _ | mulh _ | mulhz _ | div _ | divz _ | rem _ | remz _ | min _ | max _ | minz _ | maxz _ | addW _
    | subW _ | mulW _ | mulhW _ | mulhzW _ | divW _ | divzW _ | remW _ | remzW _ | minW _ | maxW _ | minzW _ | maxzW _ | and _
    | or _ | xor _ | andn _ | orn _ | shl _ | shr _ | sar _ | rol _ | ror _ | exts _ | extz _ | ins _ | teq _ | tne _ | tlt _
    | tle _ | tltz _ | tlez _ | teqW _ | tneW _ | tltW _ | tleW _ | tltzW _ | tlezW _ => exact scalar2_onlyPutsBlock
  | abs _ | neg _ | absW _ | negW _ | clz _ | ctz _ | popc _ | brev _ | bswap _ => exact scalar1_onlyPutsBlock
  | addi _ | muli _ | andi _ | ori _ | xori _ | teqi _ | tnei _ | tlti _ | tlei _ | tltzi _ | tlezi _ | addiw _ =>
    exact scalarI_onlyPutsBlock
  | shli _ | shri _ | sari _ | mov _ | mov4 _ | hint _ | sel _ | null _ | movi _ | appi _ => exact firePure_onlyPutsBlock
  | faddF64 _ | fsubF64 _ | fmulF64 _ | fdivF64 _ | fminF64 _ | fmaxF64 _ | fsqrtF64 _ | faddF32 _ | fsubF32 _ | fmulF32 _
    | fdivF32 _ | fminF32 _ | fmaxF32 _ | fsqrtF32 _ => exact fscalar_onlyPutsBlock
  | ffmaF64 _ | ffmaF32 _ => exact ffma_onlyPutsBlock
  | fcmpEqF64 _ | fcmpLtF64 _ | fcmpLeF64 _ | fcmpUnF64 _ | fcmpEqF32 _ | fcmpLtF32 _ | fcmpLeF32 _ | fcmpUnF32 _ =>
    exact fcmpOp_onlyPutsBlock
  | fcvtF64F32 _ | fcvtF32F64 _ | fcvtI64F64 _ | fcvtF64I64 _ | fcvtI64F32 _ | fcvtF32I64 _ | fcvtI64F64Rtz _
    | fcvtI64F32Rtz _ => exact fconv_onlyPutsBlock
  | vaddInt _ | vsubInt _ | vmulInt _ | vmulh _ | vminInt _ | vmaxInt _ => exact vecInt_onlyPutsBlock
  | vabsInt _ | vnegInt _ => exact vecInt1_onlyPutsBlock
  | vaddFp _ | vsubFp _ | vmulFp _ | vfma _ | vfms _ | vminFp _ | vmaxFp _ | vabsFp _ | vnegFp _ | vrcp _ | vrsq _ | vexp2 _
    | vlog2 _ => exact vecFp_onlyPutsBlock
  | vcmpFp _ | vcvt _ | vred _ | vscan _ | vdot _ | vmxq _ | vmxdq _ => exact vecEnv_onlyPutsBlock
  | vand _ | vor _ | vxor _ | vshl _ | vshr _ | vsar _ | vcmpInt _ | vsel _ | vshuf _ | vbcast _ | vins _ | vext _ | vnipack _
    | vniunpack _ => exact vecPure_onlyPutsBlock
  | _ => cases h

/-- Settles O7: firing puts the current block back under its own number at most. -/
theorem computingChangesOnlyItsBlock : Obligations.ComputingChangesOnlyItsBlock := by
  intro i s s' hi hexec
  have hput : PutsBlock s s' := exec_onlyPutsBlock_of_computes s hi s' hexec
  exact ⟨hput.sameButBlocks, fun t f q ht hq hf => (hput.frame_other ht hq).trans hf⟩

end Sys2Proof.Machine
end

section
/-! PROOFS. The moves that a step takes (R163, R195, R200) and `Obligations.StepRunsTheDecodedInstruction`. -/

namespace Sys2Proof.Machine

/-! ### What a step takes -/

/-- Serving a context changes nothing but what its grid remembers (R180). -/
theorem serve_with_grids (s : State) (k q i : Nat) : { serve s k q i with grids := s.grids } = s := by
  unfold serve
  split
  · rfl
  · split <;> rfl

theorem serve_frame (s : State) (k q i j n : Nat) : (serve s k q i).frame j n = s.frame j n := by
  unfold serve
  split
  · rfl
  · split <;> rfl

theorem fireAt_of_decodes {s : State} {k q i : Nat} {f : Frame} {ins : Instr} (hf : s.frame k q = some f)
    (hd : decode (wordAt f.words i) (wordAt f.words (i + 1)) = .ok ins) :
    fireAt s k q i = exec ins { s with cur := (k, q, i) } := by
  simp only [fireAt, hf, hd]

theorem fireAt_of_reserved {s : State} {k q i : Nat} {f : Frame} {e : Reject} (hf : s.frame k q = some f)
    (hd : decode (wordAt f.words i) (wordAt f.words (i + 1)) = .error e) : fireAt s k q i = .next s := by
  simp only [fireAt, hf, hd]

/-- A free choice only lets time pass, or takes one of the moves. -/
theorem choose_cases (s : State) : choose s = .next (tick s) ∨ ∃ m ∈ moves s, choose s = take (tick s) m := by
  cases h : (moves s)[Config.freeChoice s.fresh % (moves s).length]? with
  | none => exact .inl (by simp only [choose, h])
  | some m => exact .inr ⟨m, List.mem_of_getElem? h, by simp only [choose, h]⟩

theorem step_of_agenda_nil {s : State} (h : s.agenda = []) : step s = choose s := by
  simp only [step, advanceOne, h]

theorem step_of_agenda_free {s : State} {r : List Move} (h : s.agenda = .free :: r) :
    step s = choose { s with agenda := r } := by
  simp only [step, advanceOne, h]

theorem step_of_agenda_fire {s : State} {r : List Move} {k q i : Nat} (h : s.agenda = .fire k q i :: r) :
    step s = fireAt (serve { s with agenda := r } k q i) k q i := by
  simp only [step, advanceOne, h, take]

/-- Settles O1, by the kind of the agenda's next move. -/
theorem stepRunsTheDecodedInstruction : Obligations.StepRunsTheDecodedInstruction := by
  intro s r
  have hserved : ∀ k q i, (serve { s with agenda := r } k q i).frame k q = s.frame k q := fun k q i => serve_frame ..
  refine ⟨fun k q i f ins ha hf hd => ?_, fun k q i f e ha hf hd => ?_, fun k q i => serve_with_grids { s with agenda := r } k q i,
    fun e ha he => ?_, fun e ha => ?_, fun e ha => ?_, fun ha => ?_, fun ha => ?_⟩
  · rw [step_of_agenda_fire ha, fireAt_of_decodes ((hserved k q i).trans hf) hd]
  · rw [step_of_agenda_fire ha, fireAt_of_reserved ((hserved k q i).trans hf) hd]
  · simp only [step, advanceOne, ha, take, he, if_true]
  · simp only [step, advanceOne, ha, take]
  · simp only [step, advanceOne, ha, take]
  · rw [step_of_agenda_nil ha]
    exact choose_cases s
  · rw [step_of_agenda_free ha]
    exact choose_cases { s with agenda := r }

end Sys2Proof.Machine
end

section
/-! PROOFS. The grids that a core has given up (R145, R168), the members of a pack whose leader rejoins (R174), and
`Obligations.GridsReturnAndRejoinsResolve`. -/

namespace Sys2Proof.Machine

/-! ### Grids and threads after an update -/

theorem State.grid_modGrid_same (s : State) (g : Nat) (x : Grid → Grid) : (s.modGrid g x).grid g = x (s.grid g) := by
  simp [State.modGrid, State.grid]

theorem State.grid_modGrid_other (s : State) {g h : Nat} (x : Grid → Grid) (hne : h ≠ g) :
    (s.modGrid g x).grid h = s.grid h := by
  simp [State.modGrid, State.grid, tget_tset_other _ _ _ _ hne]

theorem tget_of_keysFrom {α : Type} {t : Tab α} {lo : Option Nat} {k : Nat} {v : α} (h : keysFrom lo t = true)
    (hm : (k, v) ∈ t) : tget t k = some v := by
  induction t generalizing lo with
  | nil => cases hm
  | cons e r ih =>
    obtain ⟨k', v'⟩ := e
    simp only [keysFrom, Bool.and_eq_true] at h
    obtain ⟨-, hrest⟩ := h
    rcases List.mem_cons.mp hm with heq | htail
    · obtain ⟨rfl, rfl⟩ := Prod.mk.inj heq
      simp [tget]
    · have hk : k' ≠ k := by
        rintro rfl
        have hget := ih hrest htail
        rw [tget_above r k' k' hrest (Nat.le_refl _)] at hget
        cases hget
      simp [tget, hk, ih hrest htail]

/-- In a table in its canonical form an entry is found by its key. -/
theorem tget_of_mem {α : Type} {t : Tab α} {k : Nat} {v : α} (h : tabWf t = true) (hm : (k, v) ∈ t) :
    tget t k = some v :=
  tget_of_keysFrom h hm

/-! ### Grids that a core has given up (R145, R168) -/

/-- What GRID_RETURN does at one grid. -/
def returnAt (k : Nat) (s : State) (g : Nat) : State :=
  match (s.grid g).leaving with
  | some e => if e.1 = k then returnGrid s k e.2 g else s
  | none => s

theorem exec_gridReturn (k : Nat) (s : State) :
    exec (.gridReturn k) s = .next (((List.range 8).map (8 * cluOf k + ·)).foldl (returnAt k) s) := rfl

/-- No core of thread number `k` has given up the grid. -/
def StaysAt (s : State) (k g : Nat) : Prop := ∀ e, (s.grid g).leaving = some e → e.1 ≠ k

theorem returnAt_of_staysAt {s : State} {k g : Nat} (h : StaysAt s k g) : returnAt k s g = s := by
  unfold returnAt
  split
  · next e he => exact if_neg (h e he)
  · rfl

theorem foldl_returnAt_of_staysAt {s : State} {k : Nat} {gs : List Nat} (h : ∀ g ∈ gs, StaysAt s k g) :
    gs.foldl (returnAt k) s = s := by
  induction gs with
  | nil => rfl
  | cons g gs ih =>
    rw [List.foldl_cons, returnAt_of_staysAt (h g List.mem_cons_self)]
    exact ih fun g' hg' => h g' (List.mem_cons_of_mem _ hg')

/-- The one grid of a cluster that a core has given up is returned. -/
theorem foldl_returnAt_of_one {s : State} {k g : Nat} {gs : List Nat} (hg : g ∈ gs) (hne : ∀ h, h ≠ g → StaysAt s k h)
    (hafter : ∀ h, StaysAt (returnAt k s g) k h) : gs.foldl (returnAt k) s = returnAt k s g := by
  obtain ⟨before, after, rfl, hbefore⟩ := List.eq_append_cons_of_mem hg
  rw [List.foldl_append, foldl_returnAt_of_staysAt fun h hh => hne h fun heq => hbefore (heq ▸ hh), List.foldl_cons,
    foldl_returnAt_of_staysAt fun h _ => hafter h]

/-- A grid that nothing uses and nothing has to drain hands its pending signature to grid 0 of the core and is free. -/
def returned (s : State) (g g0 : Nat) : State :=
  (s.modGrid g fun y => { y with pend := Sig.empty, leaving := none }).modGrid g0 fun y => { y with pend := y.pend.or (s.grid g).pend }

theorem returnGrid_of_idle {s : State} {k g : Nat} {t : Thread} (ht : s.thr k = some t) (hf : t.frames = [])
    (hl1 : (s.grid g).l1 = []) (hwtq : (s.grid g).wtq = []) (hnet : s.net = []) :
    returnGrid s k t.ser g = returned s g (coreGrid0 (gridOfThr k) t.width) := by
  have hser : (some t).filter (·.ser == t.ser) = some t := by simp [Option.filter]
  simp [returnGrid, gridDrains, returned, ht, hf, hl1, hwtq, hnet, hser]

theorem returned_staysAt {s : State} {k g g0 : Nat} (hne : g ≠ g0) (h : ∀ h, h ≠ g → StaysAt s k h) (j : Nat) :
    StaysAt (returned s g g0) k j := by
  have hleaving : ((returned s g g0).grid j).leaving =
      ((s.modGrid g fun y => { y with pend := Sig.empty, leaving := none }).grid j).leaving := by
    by_cases hj : j = g0
    · subst hj
      rw [returned, State.grid_modGrid_same]
    · rw [returned, State.grid_modGrid_other _ _ hj]
  intro e he
  rw [hleaving] at he
  by_cases hj : j = g
  · subst hj
    rw [State.grid_modGrid_same] at he
    cases he
  · rw [State.grid_modGrid_other _ _ hj] at he
    exact h j hj e he

/-- The grid of a cluster, among its eight. -/
theorem mem_gridsOf {g c : Nat} (h : cluOfGrid g = c) : g ∈ (List.range 8).map (8 * c + ·) := by
  simp only [List.mem_map, List.mem_range, cluOfGrid] at h ⊢
  exact ⟨g % 8, by omega, by omega⟩

theorem gridReturn_of_idle {k g : Nat} {s : State} {t : Thread} (ht : s.thr k = some t) (hf : t.frames = [])
    (hleft : (s.grid g).leaving = some (k, t.ser)) (hclu : cluOfGrid g = cluOf k) (hothers : ∀ h, h ≠ g → StaysAt s k h)
    (hl1 : (s.grid g).l1 = []) (hwtq : (s.grid g).wtq = []) (hnet : s.net = [])
    (hne : g ≠ coreGrid0 (gridOfThr k) t.width) :
    exec (.gridReturn k) s = .next (returned s g (coreGrid0 (gridOfThr k) t.width)) := by
  have hreturn : returnAt k s g = returned s g (coreGrid0 (gridOfThr k) t.width) := by
    simp only [returnAt, hleft, if_true]
    exact returnGrid_of_idle ht hf hl1 hwtq hnet
  have hafter : ∀ h, StaysAt (returnAt k s g) k h := hreturn ▸ returned_staysAt hne hothers
  rw [exec_gridReturn, foldl_returnAt_of_one (mem_gridsOf hclu) hothers hafter, hreturn]

/-! ### REJOIN resolves (R174) -/

theorem State.thr_modThr (s : State) (k j : Nat) (x : Thread → Thread) :
    (s.modThr k x).thr j = if j = k then (s.thr j).map x else s.thr j := by
  by_cases hj : j = k
  · subst hj
    cases h : s.thr j with
    | none => simp [State.modThr, h]
    | some t => simp [State.thr_modThr_same x h]
  · simp [hj, State.thr_modThr_other s x hj]

/-- An update that says no more the second time, made to some threads. -/
theorem State.thr_foldl_modThr (s : State) (ms : List (Nat × Thread)) {x : Thread → Thread} (hx : ∀ u, x (x u) = x u) (j : Nat) :
    (ms.foldl (fun s e => s.modThr e.1 x) s).thr j = if j ∈ ms.map (·.1) then (s.thr j).map x else s.thr j := by
  induction ms generalizing s with
  | nil => rfl
  | cons e ms ih =>
    rw [List.foldl_cons, ih, State.thr_modThr]
    by_cases hj : j = e.1 <;> by_cases hm : j ∈ ms.map (·.1) <;> simp_all [Function.comp_def]

theorem State.mem_foldl_modThr (s : State) (ms : List (Nat × Thread)) (x : Thread → Thread) :
    (ms.foldl (fun s e => s.modThr e.1 x) s).mem = s.mem := by
  induction ms generalizing s with
  | nil => rfl
  | cons e ms ih => rw [List.foldl_cons, ih, State.modThr_mem]

/-- What the resolution makes of a member of leader `k`, whose next block and place are `t`'s. -/
def resolved (k : Nat) (t m : Thread) : Thread :=
  if m.pack != .waiting k then m
  else if m.pc = t.pc then { m with pack := .following k, pos := t.pos } else { m with pack := .stray k }

theorem resolved_of_not_waiting {k : Nat} {t m : Thread} (h : m.pack ≠ .waiting k) : resolved k t m = m := by
  simp [resolved, h]

theorem resolved_of_waiting_here {k : Nat} {t m : Thread} (h : m.pack = .waiting k) (hpc : m.pc = t.pc) :
    resolved k t m = { m with pack := .following k, pos := t.pos } := by
  simp [resolved, h, hpc]

theorem resolved_of_waiting_elsewhere {k : Nat} {t m : Thread} (h : m.pack = .waiting k) (hpc : m.pc ≠ t.pc) :
    resolved k t m = { m with pack := .stray k } := by
  simp [resolved, h, hpc]

theorem resolved_not_waiting (k : Nat) (t m : Thread) : (resolved k t m).pack ≠ .waiting k := by
  by_cases h : m.pack = .waiting k
  · by_cases hpc : m.pc = t.pc
    · simp [resolved_of_waiting_here h hpc]
    · simp [resolved_of_waiting_elsewhere h hpc]
  · rwa [resolved_of_not_waiting h]

theorem resolved_resolved (k : Nat) (t m : Thread) : resolved k t (resolved k t m) = resolved k t m :=
  resolved_of_not_waiting (resolved_not_waiting k t m)

/-- The members of `k`'s pack after its REJOIN. -/
def resolveAll (s : State) (k : Nat) (t : Thread) : State := (members s k).foldl (fun s e => s.modThr e.1 (resolved k t)) s

theorem exec_rejoinResolve {k l : Nat} {t0 : Word} {s : State} {t : Thread} (ht : s.thr k = some t)
    (hr : t.rejoin = some (l, t0)) :
    exec (.rejoinResolve k) s =
      if ((members s k).any fun e => e.2.pack == .stray k) && (s.cycThr k - t0).toNat < l then .next s
      else .next ((resolveAll s k t).modThr k fun t => { t with rejoin := none }) := by
  show execRejoinResolve k s = _
  simp only [execRejoinResolve, ht, hr]
  rfl

theorem mem_members_of_waiting {s : State} {k j : Nat} {u : Thread} (hu : s.thr j = some u) (hp : u.pack = .waiting k) :
    (j, u) ∈ members s k := by
  simp [members, hp, mem_of_tget hu]

/-- Every thread as the resolution leaves it: one that is no Waiting member stays as it is. -/
theorem thr_resolveAll {s : State} {k j : Nat} {t u : Thread} (hu : s.thr j = some u) :
    (resolveAll s k t).thr j = some (resolved k t u) := by
  rw [resolveAll, State.thr_foldl_modThr s _ (resolved_resolved k t)]
  split
  · rw [hu, Option.map_some]
  · next hm =>
    have hp : u.pack ≠ .waiting k := fun hp => hm (List.mem_map_of_mem (mem_members_of_waiting hu hp))
    rw [hu, resolved_of_not_waiting hp]

theorem any_stray_iff {s : State} {k : Nat} (hwf : tabWf s.thrs = true) :
    ((members s k).any fun e => e.2.pack == .stray k) = true ↔ ∃ j u, s.thr j = some u ∧ u.pack = .stray k := by
  simp only [List.any_eq_true, members, List.mem_filter, beq_iff_eq]
  constructor
  · rintro ⟨⟨j, u⟩, ⟨hm, -⟩, hp⟩
    exact ⟨j, u, tget_of_mem hwf hm, hp⟩
  · rintro ⟨j, u, hu, hp⟩
    exact ⟨(j, u), ⟨mem_of_tget hu, by simp [hp]⟩, hp⟩

/-- Settles O34: the first clause by the one grid that is returned, the second by what the resolution makes of each thread. -/
theorem gridsReturnAndRejoinsResolve : Obligations.GridsReturnAndRejoinsResolve := by
  refine ⟨fun k g s t ht hf hleft hclu hothers hl1 hwtq hnet hne => ?_, fun k l t0 s t hwf ht hp hr => ?_⟩
  · refine ⟨_, gridReturn_of_idle ht hf hleft hclu hothers hl1 hwtq hnet hne, ?_, ?_, ?_, rfl, rfl⟩
    · rw [returned, State.grid_modGrid_other _ _ hne, State.grid_modGrid_same]
    · rw [returned, State.grid_modGrid_other _ _ hne, State.grid_modGrid_same]
    · rw [returned, State.grid_modGrid_same, State.grid_modGrid_other _ _ hne.symm]
  · have hguard : (((members s k).any fun e => e.2.pack == .stray k) && decide ((s.cycThr k - t0).toNat < l)) = true ↔
        (∃ j u, s.thr j = some u ∧ u.pack = .stray k) ∧ (s.cycThr k - t0).toNat < l := by
      rw [Bool.and_eq_true, any_stray_iff hwf, decide_eq_true_iff]
    refine ⟨fun hw => ?_, fun hw => ⟨(resolveAll s k t).modThr k fun t => { t with rejoin := none }, ?_, ?_, ?_,
      fun j u hj hu => ?_⟩⟩
    · rw [exec_rejoinResolve ht hr, if_pos (hguard.mpr hw)]
    · rw [exec_rejoinResolve ht hr, if_neg (fun h => hw (hguard.mp h))]
    · have hk : (resolveAll s k t).thr k = some t := by
        rw [thr_resolveAll ht, resolved_of_not_waiting (by simp [hp])]
      exact State.thr_modThr_same _ hk
    · rw [State.modThr_mem]
      exact State.mem_foldl_modThr ..
    · rw [State.thr_modThr_other _ _ hj, thr_resolveAll hu]
      exact ⟨fun hw hpc => by rw [resolved_of_waiting_here hw hpc], fun hw hpc => by rw [resolved_of_waiting_elsewhere hw hpc],
        fun hw => by rw [resolved_of_not_waiting hw]⟩

end Sys2Proof.Machine
end

section
/-! PROOFS. A FOLLOW in a table of threads out of order, and the refutation of `Obligations.ThreadInstructionsFire`.

The clause of R173 for a granted FOLLOW lists the two threads of the machine, the leader first, but does not ask that their numbers
rise. When the caller's number is the lower one, putting its block back moves it to the front of the table; and when it has the thread
number that FOLLOW names too, it is itself the first thread of that number, so that FOLLOW gives 0. The table of a run is in its
canonical form, which that of the state below is not. -/

namespace Sys2Proof.Machine

/-- FOLLOW with the target 1. -/
def followForm : GF := { p := 0, t1 := 0x1FF, t0 := 1 }

/-- A mapped block whose slot 0 has the operand 0. -/
def followFrame : Frame := { Frame.mk0 0 0 false 1 none with stage := 1, toks := [(0, .s 0)] }

/-- The thread that fires the FOLLOW; its own number is 0. -/
def followThread : Thread := { Thread.reset with run := true, frames := [followFrame] }

/-- Thread 4, whose number is 0 too, stands before thread 0, which is to fire. -/
def outOfOrder : State := { State.reset with thrs := [(4, Thread.reset), (0, followThread)] }

/-- FOLLOW finds its own thread, and gives 0. -/
theorem exec_follow_outOfOrder :
    exec (.follow followForm) outOfOrder = .next (firedWith outOfOrder followFrame (.follow followForm) none (.s 0)) := rfl

/-- Refutes O33: of the clause for a FOLLOW that is granted. In `outOfOrder`, which meets its premises, FOLLOW sends 0. -/
theorem not_threadInstructionsFire : ¬ Obligations.ThreadInstructionsFire := by
  intro h
  obtain ⟨-, hshape, -, -⟩ := h outOfOrder followThread followFrame 0 rfl rfl
  obtain ⟨-, -, -, -, -, -, hfollow⟩ := hshape followForm ⟨rfl, rfl, rfl⟩ (fun _ ho => nomatch ho)
  obtain ⟨s', f', hexec, hframe, htransit, -⟩ := hfollow 4 Thread.reset rfl rfl (by decide) rfl rfl rfl rfl rfl rfl rfl
    (fun _ _ => rfl)
  rw [exec_follow_outOfOrder] at hexec
  obtain rfl := Host.Outcome.next.inj hexec
  have hsent : ((firedWith outOfOrder followFrame (.follow followForm) none (.s 0)).frame 0 0).map (·.transit) =
      some [(1, .s 0)] := rfl
  rw [show outOfOrder.cur.1 = 0 from rfl, show followFrame.seq = 0 from rfl] at hframe
  rw [hframe, Option.map_some, htransit] at hsent
  exact absurd hsent (by decide)

end Sys2Proof.Machine
end

section
/-! PROOFS. The registers that a commit leaves (R164, R186, R222, R250 to R252), the commit of a block that made no access (R109,
R118), and `Obligations.CommitLeavesTheRegisters`. -/

namespace Sys2Proof.Machine

/-! ### Reading a general or vector register after a write or a kill -/

/-- What a register of the kind of `r` holds of a token (R194). -/
def regTok (r : Nat) (x : Tok) : Tok := if r < 128 then .s x.word else .v x.vec

/-- What a dead register of the kind of `r` holds (R251). -/
def regZero (r : Nat) : Tok := if r < 128 then .s 0 else .v 0

theorem regCommitted_congr {t u : Thread} (hg : u.g = t.g) (hv : u.v = t.v) {r : Nat} (hr : r < 192) :
    regCommitted u 0 r = regCommitted t 0 r := by
  simp only [regCommitted, hg, hv, if_pos hr]

theorem regCommitted_general (t : Thread) {r : Nat} (h0 : 0 < r) (hr : r < 128) :
    regCommitted t 0 r = .s ((tget t.g r).getD 0) := by
  simp only [regCommitted, if_neg (Nat.ne_of_gt h0), if_pos hr]

theorem regCommitted_vector (t : Thread) {r : Nat} (hlo : 128 ≤ r) (hr : r < 192) :
    regCommitted t 0 r = .v ((tget t.v (r - 128)).getD 0) := by
  have h0 : r ≠ 0 := by omega
  have h1 : ¬r < 128 := by omega
  simp only [regCommitted, if_neg h0, if_neg h1, if_pos hr]

theorem writeReg_null {t : Thread} {r : Nat} {x : Tok} (h : x = .null) : writeReg t r x = t := by
  simp [writeReg, h, Tok.isNull]

theorem Tok.isNull_iff {x : Tok} : x.isNull = true ↔ x = .null := by
  cases x <;> simp [Tok.isNull]

theorem writeReg_g_same {t : Thread} {r : Nat} {x : Tok} (hx : x ≠ .null) (h0 : 0 < r) (hr : r < 128) :
    tget (writeReg t r x).g r = some x.word := by
  have hnull : ¬(x.isNull = true) := fun h => hx (Tok.isNull_iff.mp h)
  simp [writeReg, hnull, hr, Nat.ne_of_gt h0]

theorem writeReg_v_same {t : Thread} {r : Nat} {x : Tok} (hx : x ≠ .null) (hlo : 128 ≤ r) (hr : r < 192) :
    tget (writeReg t r x).v (r - 128) = some x.vec := by
  have hnull : ¬(x.isNull = true) := fun h => hx (Tok.isNull_iff.mp h)
  have h0 : r ≠ 0 := by omega
  have h1 : ¬r < 128 := by omega
  simp [writeReg, hnull, h0, h1, hr]

theorem writeReg_g_other (t : Thread) {r r' : Nat} (x : Tok) (hne : r ≠ r') : tget (writeReg t r' x).g r = tget t.g r := by
  unfold writeReg
  split
  · rfl
  · split
    · exact tget_tset_other _ _ _ _ hne
    · split <;> rfl

theorem writeReg_v_other (t : Thread) {r r' : Nat} (x : Tok) (hlo : 128 ≤ r) (hne : r ≠ r') :
    tget (writeReg t r' x).v (r - 128) = tget t.v (r - 128) := by
  unfold writeReg
  split
  · rfl
  · split
    · rfl
    · split
      · exact tget_tset_other _ _ _ _ (by omega)
      · rfl

/-- A written register holds the token (R164). -/
theorem regCommitted_writeReg_same {t : Thread} {r : Nat} {x : Tok} (hx : x ≠ .null) (h0 : 0 < r) (hr : r < 192) :
    regCommitted (writeReg t r x) 0 r = regTok r x := by
  by_cases hlt : r < 128
  · rw [regCommitted_general _ h0 hlt, writeReg_g_same hx h0 hlt, Option.getD_some, regTok, if_pos hlt]
  · have hlo : 128 ≤ r := Nat.le_of_not_lt hlt
    rw [regCommitted_vector _ hlo hr, writeReg_v_same hx hlo hr, Option.getD_some, regTok, if_neg hlt]

theorem regCommitted_writeReg_other (t : Thread) {r r' : Nat} (x : Tok) (hne : r ≠ r') (hr : r < 192) :
    regCommitted (writeReg t r' x) 0 r = regCommitted t 0 r := by
  obtain rfl | h0 := Nat.eq_zero_or_pos r
  · rfl
  · by_cases hlt : r < 128
    · rw [regCommitted_general _ h0 hlt, regCommitted_general _ h0 hlt, writeReg_g_other t x hne]
    · have hlo : 128 ≤ r := Nat.le_of_not_lt hlt
      rw [regCommitted_vector _ hlo hr, regCommitted_vector _ hlo hr, writeReg_v_other t x hlo hne]

theorem tget_filter_key {α : Type} (t : Tab α) (p : Nat → Bool) (a : Nat) :
    tget (t.filter fun e => p e.1) a = if p a then tget t a else none := by
  induction t with
  | nil => simp
  | cons e r ih =>
    obtain ⟨k, v⟩ := e
    by_cases hk : k = a
    · subst hk
      by_cases hp : p k <;> simp [hp, tget, ih]
    · by_cases hp : p k <;> simp [hp, tget, hk, ih]

/-- A mask kills the registers it names, and no other (R251, R252). -/
theorem regCommitted_killRegs (t : Thread) (m : Word) {r : Nat} (hr : r < 192) :
    regCommitted (killRegs t m) 0 r = if kills m r then regZero r else regCommitted t 0 r := by
  obtain rfl | h0 := Nat.eq_zero_or_pos r
  · simp [kills, regCommitted]
  · by_cases hlt : r < 128
    · rw [regCommitted_general _ h0 hlt, regCommitted_general _ h0 hlt]
      simp only [killRegs, tget_filter_key t.g fun a => !kills m a]
      cases kills m r <;> simp [regZero, hlt]
    · have hlo : 128 ≤ r := Nat.le_of_not_lt hlt
      rw [regCommitted_vector _ hlo hr, regCommitted_vector _ hlo hr]
      simp only [killRegs, tget_filter_key t.v fun a => !kills m (128 + a), Nat.add_sub_cancel' hlo]
      cases kills m r <;> simp [regZero, hlt]

theorem kills_iff_groupOf (m : Word) {r : Nat} (hr : r < 192) : kills m r = true ↔ groupOf m r := by
  unfold kills groupOf
  by_cases h4 : r < 4
  · have hle : ¬4 ≤ r := Nat.not_le_of_lt h4
    have hlo : ¬128 ≤ r := by omega
    simp [h4, hle, hlo]
  · by_cases hlt : r < 128
    · have hlo : ¬128 ≤ r := Nat.not_le_of_lt hlt
      simp [h4, hlt, hlo, Nat.le_of_not_lt h4]
    · simp [h4, hlt, hr, Nat.le_of_not_lt hlt]

/-! ### The write entries of a block (R186) -/

/-- The thread with the tokens of a block's write entries in its registers. -/
def writeEntries (t : Thread) (f : Frame) (es : List (Nat × Nat)) : Thread :=
  es.foldl (fun t e => writeReg t e.2 ((f.wrTok e.1).getD .null)) t

theorem regCommitted_writeEntries_unnamed (t : Thread) (f : Frame) {es : List (Nat × Nat)} {r : Nat} (hr : r < 192)
    (hnone : ∀ y ∈ es, y.2 ≠ r) : regCommitted (writeEntries t f es) 0 r = regCommitted t 0 r := by
  induction es generalizing t with
  | nil => rfl
  | cons y es ih =>
    have hy : r ≠ y.2 := (hnone y List.mem_cons_self).symm
    exact (ih _ fun z hz => hnone z (List.mem_cons_of_mem _ hz)).trans (regCommitted_writeReg_other t _ hy hr)

/-- The one entry that names a register gives it its token, a null one leaves it. -/
theorem regCommitted_writeEntries_named (t : Thread) (f : Frame) {es : List (Nat × Nat)} {e r : Nat} (h0 : 0 < r) (hr : r < 192)
    (hmem : (e, r) ∈ es) (honly : ∀ y ∈ es, y.2 = r → y = (e, r)) :
    regCommitted (writeEntries t f es) 0 r =
      if (f.wrTok e).getD .null = .null then regCommitted t 0 r else regTok r ((f.wrTok e).getD .null) := by
  induction es generalizing t with
  | nil => cases hmem
  | cons y es ih =>
    have htail : ∀ z ∈ es, z.2 = r → z = (e, r) := fun z hz => honly z (List.mem_cons_of_mem _ hz)
    have hfirst : y = (e, r) → regCommitted (writeReg t y.2 ((f.wrTok y.1).getD .null)) 0 r =
        if (f.wrTok e).getD .null = .null then regCommitted t 0 r else regTok r ((f.wrTok e).getD .null) := by
      rintro rfl
      split
      · next hx => rw [writeReg_null hx]
      · next hx => exact regCommitted_writeReg_same hx h0 hr
    show regCommitted (writeEntries (writeReg t y.2 ((f.wrTok y.1).getD .null)) f es) 0 r = _
    by_cases hes : (e, r) ∈ es
    · rw [ih _ hes htail]
      by_cases hy : y = (e, r)
      · split
        · next hx => rw [hfirst hy, if_pos hx]
        · rfl
      · have hyr : r ≠ y.2 := fun h => hy (honly y List.mem_cons_self h.symm)
        rw [regCommitted_writeReg_other t _ hyr hr]
    · have hy : y = (e, r) := ((List.mem_cons.mp hmem).resolve_right hes).symm
      rw [regCommitted_writeEntries_unnamed _ f hr fun z hz hzr => hes (htail z hz hzr ▸ hz), hfirst hy]

theorem writtenVal_writeEntries (t : Thread) {f : Frame} {r : Nat} (h0 : 0 < r) (hr : r < 192) (hd : DistinctWrites f) :
    writtenVal t f r (regCommitted (writeEntries t f (wrEntries f.hdr)) 0 r) := by
  refine ⟨fun e he x hx => ?_, fun hnone => ?_⟩
  · have honly : ∀ y ∈ wrEntries f.hdr, y.2 = r → y = (e, r) := fun y hy hyr => hd y hy (e, r) he hyr
    have hval := regCommitted_writeEntries_named t f h0 hr he honly
    rw [hx, Option.getD_some] at hval
    exact ⟨fun hnull => hval.trans (if_pos hnull), fun hnull => hval.trans (if_neg hnull)⟩
  · exact regCommitted_writeEntries_unnamed t f hr fun y hy hyr => hnone y.1 (hyr ▸ hy)

theorem mem_wrEntries_of_entryOf {f : Frame} {e r : Nat} (h : f.entryOf r = some e) : (e, r) ∈ wrEntries f.hdr := by
  obtain ⟨y, hy, rfl⟩ := Option.map_eq_some_iff.mp h
  have hyr : y.2 = r := by simpa using List.find?_some hy
  exact hyr ▸ List.mem_of_find?_eq_some hy

theorem entryOf_of_mem {f : Frame} {e r : Nat} (hd : DistinctWrites f) (h : (e, r) ∈ wrEntries f.hdr) : f.entryOf r = some e := by
  cases hfind : (wrEntries f.hdr).find? (·.2 == r) with
  | none => simpa using List.find?_eq_none.mp hfind (e, r) h
  | some y =>
    have hyr : y.2 = r := by simpa using List.find?_some hfind
    obtain rfl := hd y (List.mem_of_find?_eq_some hfind) (e, r) h hyr
    simp [Frame.entryOf, hfind]

/-- What a block writes to a register: the token, not null, of the entry that names it. -/
theorem written_eq_some_iff {f : Frame} {r : Nat} {w : Word} (hd : DistinctWrites f) :
    written f r = some w ↔ ∃ e m, (e, r) ∈ wrEntries f.hdr ∧ f.wrTok e = some m ∧ m ≠ .null ∧ m.word = w := by
  simp only [written, Option.bind_eq_some_iff]
  constructor
  · rintro ⟨m, ⟨e, he, hm⟩, hw⟩
    split at hw
    · cases hw
    · next hnull => exact ⟨e, m, mem_wrEntries_of_entryOf he, hm, fun h => hnull (Tok.isNull_iff.mpr h), Option.some.inj hw⟩
  · rintro ⟨e, m, he, hm, hnull, rfl⟩
    exact ⟨m, ⟨e, entryOf_of_mem hd he, hm⟩, if_neg fun h => hnull (Tok.isNull_iff.mp h)⟩

theorem writeSpec_fcr (x : Spec) {r : Nat} (w : Word) (h : r ≠ 192) : (writeSpec x r w).fcr = x.fcr := by
  unfold writeSpec
  split
  · exact absurd rfl h
  all_goals rfl

theorem writeReg_fcr (t : Thread) {r : Nat} (x : Tok) (h : r ≠ 192) : (writeReg t r x).spec.fcr = t.spec.fcr := by
  unfold writeReg
  split
  · rfl
  · split
    · rfl
    · split
      · rfl
      · exact writeSpec_fcr t.spec x.word h

theorem writeEntries_fcr (t : Thread) (f : Frame) {es : List (Nat × Nat)} (h : ∀ y ∈ es, y.2 ≠ 192) :
    (writeEntries t f es).spec.fcr = t.spec.fcr := by
  induction es generalizing t with
  | nil => rfl
  | cons y es ih =>
    exact (ih _ fun z hz => h z (List.mem_cons_of_mem _ hz)).trans (writeReg_fcr t _ (h y List.mem_cons_self))

/-! ### What a commit leaves (R164, R222, R250 to R252) -/

/-- The thread after its block's write entries, flags, key and ordinal, before the kills and the link. -/
def entriesDone (t : Thread) (f : Frame) : Thread :=
  let u := writeEntries t f (wrEntries f.hdr)
  let u := { u with spec := { u.spec with fcr := fcrMerge u.spec.fcr f.flags } }
  let u := match written f 203 with
    | some w => if (written f 197).isSome then u else { u with spec := { u.spec with srkey := seedKey u w } }
    | none => u
  { u with ord := if (written f 197).isSome || (written f 203).isSome then 0 else u.ord + 1 }

theorem entriesDone_g (t : Thread) (f : Frame) : (entriesDone t f).g = (writeEntries t f (wrEntries f.hdr)).g := by
  simp only [entriesDone]
  split
  · split <;> rfl
  · rfl

theorem entriesDone_v (t : Thread) (f : Frame) : (entriesDone t f).v = (writeEntries t f (wrEntries f.hdr)).v := by
  simp only [entriesDone]
  split
  · split <;> rfl
  · rfl

theorem entriesDone_fcr (t : Thread) (f : Frame) :
    (entriesDone t f).spec.fcr = fcrMerge (writeEntries t f (wrEntries f.hdr)).spec.fcr f.flags := by
  simp only [entriesDone]
  split
  · split <;> rfl
  · rfl

/-- `dmask`'s kill, when the block writes it (R252). -/
def maskKill (u : Thread) (f : Frame) : Thread :=
  match written f 194 with
  | some m => killRegs u m
  | none => u

/-- The link of a CALL (R250). -/
def linked (u : Thread) (f : Frame) (kind : Nat) : Thread :=
  if kind = 1 then writeReg u 3 (.s (f.retAddr.setWidth 64)) else u

/-- The kill of a CALL or RET by the `conv` that its block had (R251). -/
def callKill (u : Thread) (conv : Word) (kind : Nat) : Thread := if kind = 1 || kind = 2 then killRegs u conv else u

/-- The end of a commit is the write entries, then `dmask`'s kill, the link and the kill by `conv`. -/
theorem commitRegs_stages (t : Thread) (f : Frame) (cyc : Word) :
    commitRegs t f cyc =
      let kind := (f.exit.map (·.kind)).getD 0
      callKill (linked (maskKill (entriesDone t f) f) f kind) ((t.regFor cyc f.seq 193).getD .null).word kind := rfl

theorem commitRegs_eq {t : Thread} {f : Frame} {x : Exit} {cyc : Word} (hx : f.exit = some x)
    (hconv : t.regFor cyc f.seq 193 = some (.s t.spec.conv)) :
    commitRegs t f cyc = callKill (linked (maskKill (entriesDone t f) f) f x.kind) t.spec.conv x.kind := by
  rw [commitRegs_stages, hx, hconv]
  rfl

theorem maskKill_spec (u : Thread) (f : Frame) : (maskKill u f).spec = u.spec := by
  unfold maskKill
  split <;> rfl

theorem linked_spec (u : Thread) (f : Frame) (kind : Nat) : (linked u f kind).spec = u.spec := by
  unfold linked writeReg
  split <;> rfl

theorem callKill_spec (u : Thread) (conv : Word) (kind : Nat) : (callKill u conv kind).spec = u.spec := by
  unfold callKill
  split <;> rfl

section
variable {u : Thread} {f : Frame} {r : Nat}

theorem regCommitted_maskKill (hr : r < 192) : regCommitted (maskKill u f) 0 r =
    if ∃ m, written f 194 = some m ∧ kills m r = true then regZero r else regCommitted u 0 r := by
  unfold maskKill
  cases written f 194 with
  | none => simp
  | some m => simpa using regCommitted_killRegs u m hr

theorem regCommitted_linked_other {kind : Nat} (hr : r < 192) (h : ¬(r = 3 ∧ kind = 1)) :
    regCommitted (linked u f kind) 0 r = regCommitted u 0 r := by
  unfold linked
  split
  · next hk => exact regCommitted_writeReg_other u _ (fun h3 => h ⟨h3, hk⟩) hr
  · rfl

theorem regCommitted_linked_g3 : regCommitted (linked u f 1) 0 3 = .s (f.retAddr.setWidth 64) :=
  regCommitted_writeReg_same (t := u) (x := .s (f.retAddr.setWidth 64)) (r := 3) (by simp) (by decide) (by decide)

theorem regCommitted_callKill {conv : Word} {kind : Nat} (hr : r < 192) : regCommitted (callKill u conv kind) 0 r =
    if (kind = 1 ∨ kind = 2) ∧ kills conv r = true then regZero r else regCommitted u 0 r := by
  by_cases hk : kind = 1 ∨ kind = 2
  · simpa [callKill, hk] using regCommitted_killRegs u conv hr
  · simp [callKill, hk]

end

section
variable {t : Thread} {f : Frame} {x : Exit} {cyc : Word}

/-- The registers that a block's end kills (R251, R252). -/
def Dead (t : Thread) (f : Frame) (x : Exit) (r : Nat) : Prop :=
  (x.kind ≠ 0 ∧ groupOf t.spec.conv r) ∨
    ∃ (e : Nat) (m : Tok), (e, 194) ∈ wrEntries f.hdr ∧ f.wrTok e = some m ∧ m ≠ .null ∧ groupOf m.word r

theorem groupOf_four_le {m : Word} {r : Nat} (h : groupOf m r) : 4 ≤ r := by
  obtain ⟨h4, -⟩ | ⟨hlo, -⟩ := h <;> omega

theorem dead_iff {r : Nat} (hr : r < 192) (hk : x.kind < 3) (hd : DistinctWrites f) :
    Dead t f x r ↔ ((x.kind = 1 ∨ x.kind = 2) ∧ kills t.spec.conv r = true) ∨ ∃ m, written f 194 = some m ∧ kills m r = true := by
  have hkind : x.kind ≠ 0 ↔ x.kind = 1 ∨ x.kind = 2 := by omega
  simp only [Dead, hkind, kills_iff_groupOf _ hr, written_eq_some_iff hd]
  constructor
  · rintro (h | ⟨e, m, he, hm, hnull, hg⟩)
    · exact .inl h
    · exact .inr ⟨m.word, ⟨e, m, he, hm, hnull, rfl⟩, hg⟩
  · rintro (h | ⟨_, ⟨e, m, he, hm, hnull, rfl⟩, hg⟩)
    · exact .inl h
    · exact .inr ⟨e, m, he, hm, hnull, hg⟩

variable (hx : f.exit = some x) (hk : x.kind < 3) (hd : DistinctWrites f)
  (hconv : t.regFor cyc f.seq 193 = some (.s t.spec.conv))
include hx hconv

theorem regCommitted_commitRegs_g3 (h : x.kind = 1) : regCommitted (commitRegs t f cyc) 0 3 = .s (f.retAddr.setWidth 64) := by
  rw [commitRegs_eq hx hconv, regCommitted_callKill (by decide), h, regCommitted_linked_g3]
  exact if_neg fun ⟨_, hkill⟩ => absurd hkill (by simp [kills])

theorem commitRegs_fcr (h : ∀ e, (e, 192) ∉ wrEntries f.hdr) :
    (commitRegs t f cyc).spec.fcr = t.spec.fcr ||| f.flags.setWidth 64 <<< 16 := by
  rw [commitRegs_eq hx hconv, callKill_spec, linked_spec, maskKill_spec, entriesDone_fcr,
    writeEntries_fcr t f fun y hy hy2 => h y.1 (hy2 ▸ hy), fcrMerge]

include hk hd

theorem regCommitted_commitRegs_dead {r : Nat} (hr : r < 192) (h : Dead t f x r) :
    regCommitted (commitRegs t f cyc) 0 r = regZero r := by
  have h3 : r ≠ 3 := by
    rintro rfl
    obtain ⟨-, hg⟩ | ⟨_, _, -, -, -, hg⟩ := h <;> exact absurd (groupOf_four_le hg) (by decide)
  rw [commitRegs_eq hx hconv, regCommitted_callKill hr, regCommitted_linked_other hr fun h => h3 h.1, regCommitted_maskKill hr]
  obtain hcall | hmask := (dead_iff hr hk hd).mp h
  · rw [if_pos hcall]
  · rw [if_pos hmask, ite_self]

theorem regCommitted_commitRegs_live {r : Nat} (hr : r < 192) (h : ¬Dead t f x r) (h3 : ¬(r = 3 ∧ x.kind = 1)) :
    regCommitted (commitRegs t f cyc) 0 r = regCommitted (writeEntries t f (wrEntries f.hdr)) 0 r := by
  obtain ⟨hcall, hmask⟩ := not_or.mp (mt (dead_iff hr hk hd).mpr h)
  rw [commitRegs_eq hx hconv, regCommitted_callKill hr, if_neg hcall, regCommitted_linked_other hr h3, regCommitted_maskKill hr,
    if_neg hmask, regCommitted_congr (entriesDone_g t f) (entriesDone_v t f) hr]

end

/-! ### The commit of a block that made no access (R109, R118) -/

theorem Frame.inOrder_of_noOps {f : Frame} (h : f.ops = []) : f.inOrder = [] := by simp [Frame.inOrder, h]

theorem outward_of_noOps {f : Frame} (s : State) (k : Nat) (t : Thread) (h : f.ops = []) : outward s k t f = [] := by
  simp [outward, Frame.inOrder_of_noOps h]

theorem Frame.shapes_of_noOps {f : Frame} (h : f.ops = []) : f.shapes = [] := by simp [Frame.shapes, h]

theorem State.modClu_id_clu (s : State) (c c' : Nat) : (s.modClu c fun u => u).clu c' = s.clu c' := by
  by_cases h : c' = c
  · subst h
    simp [State.modClu, State.clu]
  · simp [State.modClu, State.clu, tget_tset_other _ _ _ _ h]

theorem reserveGroup_of_noOps {f : Frame} (k : Nat) (s : State) (grp : Nat) (h : f.ops = []) :
    reserveGroup k f s grp = some (s.modClu (cluOf k) fun u => u) := by
  have hneeds : needsOf s k f grp = [] := by
    simp only [needsOf, issuedBelow, h]
    split
    · rfl
    · split <;> rfl
  simp [reserveGroup, hneeds]

/-- Nothing of a state has changed but its clusters, which have the arbiter locks that they had. -/
def OnlyClusters (s s' : State) : Prop :=
  (∃ cs, s' = { s with clus := cs }) ∧ ∀ c, (s'.clu c).lock = (s.clu c).lock

theorem OnlyClusters.trans {s s' s'' : State} (h : OnlyClusters s s') (h' : OnlyClusters s' s'') : OnlyClusters s s'' := by
  obtain ⟨⟨cs, rfl⟩, hlock⟩ := h
  obtain ⟨⟨cs', rfl⟩, hlock'⟩ := h'
  exact ⟨⟨cs', rfl⟩, fun c => (hlock' c).trans (hlock c)⟩

theorem modClu_id_onlyClusters (s : State) (c : Nat) : OnlyClusters s (s.modClu c fun u => u) :=
  ⟨⟨_, rfl⟩, fun c' => by rw [State.modClu_id_clu]⟩

/-- A block without commands reserves nothing. -/
theorem reserve_of_noOps {f : Frame} (s : State) (k : Nat) (h : f.ops = []) :
    ∃ s', reserve s k f = some s' ∧ OnlyClusters s s' := by
  refine ⟨((s.modClu (cluOf k) fun u => u).modClu (cluOf k) fun u => u).modClu (cluOf k) fun u => u, ?_, ?_⟩
  · simp [reserve, reserveGroup_of_noOps k _ _ h]
  · exact (modClu_id_onlyClusters ..).trans ((modClu_id_onlyClusters ..).trans (modClu_id_onlyClusters ..))

theorem commitable_of_readyPlain {s : State} {k : Nat} {t : Thread} {f : Frame} {x : Exit} (h : ReadyPlain s k t f x) :
    commitable s k t f = true := by
  obtain ⟨⟨-, hpack, -⟩, -, hstage, hrefused, hcolls, hfaults, hfails, hops, hexit, hmask, htoks, hmap, -, -, hleash, -⟩ := h
  have hsound : f.faulty = false := by
    simp [Frame.faulty, Frame.failed, Frame.shapes_of_noOps hops, hrefused, hcolls, hfaults, hfails, hops]
  have htoks' : (wrEntries f.hdr).all (fun e => (f.wrTok e.1).isSome) = true :=
    List.all_eq_true.mpr fun e he => Option.isSome_iff_ne_none.mpr (htoks e he)
  have hbelow : f.below_ 32 = true := by simp [Frame.below_, hmask]
  have hroom : wtBlocked s k f = false := by simp [wtBlocked, hops]
  simp [commitable, leaderChose, hstage, hsound, hexit, hmap, hbelow, htoks', hops, hpack, hleash, hroom]

/-- A block without operations or a start number is granted at once, and its thread's leash counts from there (R109, R181). -/
theorem commitNow_of_noOps {s : State} {k : Nat} {f : Frame} (t : Thread) (hops : f.ops = []) (hs0 : f.s0 = none)
    (hlock : (s.clu (cluOf k)).lock = none) :
    commitNow s k t f = commitRun ((unreserve (s.modThr k fun t => { t with leash0 := s.cycThr k }) k f.seq).modFrame k f.seq
      fun f => { f with stage := 2 }) k f.seq false 40 := by
  simp [commitNow, conflicts, grantCommit, claimWrites, issueAll, hs0, hlock, outward_of_noOps _ _ _ hops,
    Frame.inOrder_of_noOps hops]

/-- A block without operations to perform ends its commit. -/
theorem commitRun_of_noOps {s : State} {k q n : Nat} {d : Bool} {t : Thread} {f : Frame} (ht : s.thr k = some t)
    (hf : s.frame k q = some f) (hops : f.ops = []) (hheld : commitHeld s k = false) :
    commitRun s k q d (n + 1) = finishCommit s k q := by
  simp [commitRun, ht, hf, Frame.nextOp, Frame.inOrder_of_noOps hops, hheld]

theorem commitHeld_of_noStore {s : State} {k : Nat} (hnet : ∀ e ∈ s.net, ∀ g, e.2.src ≠ .store g k) : commitHeld s k = false := by
  simp only [commitHeld, List.any_eq_false]
  intro e he
  split
  · next g t hsrc =>
    have hne : t ≠ k := fun h => hnet e he g (h ▸ hsrc)
    simp [hne]
  · simp

/-- Whether a hold is block `q`'s of thread `k`. -/
def Hold.isOf (k q : Nat) : Hold → Bool
  | .block t q' _ => t == k && q' == q
  | .eng _ _ _ => false

theorem endHolds_eq (s : State) (k q : Nat) :
    endHolds s k q = (((s.holds.filter fun e => e.2.isOf k q).map fun e => vaultClu (16 * e.1)).eraseDups).foldl vaultPass
      { s with holds := s.holds.filter fun e => !e.2.isOf k q } := rfl

theorem endHolds_of_none {s : State} {k : Nat} (q : Nat) (hholds : ∀ e ∈ s.holds, ∀ t q' b, e.2 = .block t q' b → t ≠ k) :
    endHolds s k q = s := by
  have hmine : ∀ e ∈ s.holds, e.2.isOf k q = false := fun e he => by
    cases heq : e.2 with
    | block t q' b => simp [Hold.isOf, hholds e he t q' b heq]
    | eng c u n => rfl
  have hnone : s.holds.filter (fun e => e.2.isOf k q) = [] := List.filter_eq_nil_iff.mpr fun e he => by simp [hmine e he]
  have hall : s.holds.filter (fun e => !e.2.isOf k q) = s.holds := List.filter_eq_self.mpr fun e he => by simp [hmine e he]
  rw [endHolds_eq, hnone, hall]
  rfl

/-- The lock passes on (R110): nothing but clusters changes. -/
theorem relock_with_clus (s : State) (c : Nat) : ∃ cs, relock s c = { s with clus := cs } := by
  simp only [relock]
  split
  · exact ⟨s.clus, rfl⟩
  · split
    · exact ⟨_, rfl⟩
    · exact ⟨s.clus, rfl⟩

theorem commitShape_of_noOps {f : Frame} (s : State) (k : Nat) (hops : f.ops = []) : commitShape s k f = s := by
  simp [commitShape, hops]

theorem commitExit_of_branch {f : Frame} {x : Exit} (s : State) (k : Nat) (tstat epc : Word) (hops : f.ops = []) (hx : x.kind < 3) :
    commitExit s k f x tstat epc = s := by
  have h3 : x.kind ≠ 3 := by omega
  have h4 : x.kind ≠ 4 := by omega
  simp [commitExit, hops, h3, h4]

/-- The end of a commit without operations: the thread goes on, and nothing else changes but clusters. -/
theorem finishCommit_of_noOps {s : State} {k q : Nat} {t : Thread} {f : Frame} {x : Exit} (ht : s.thr k = some t)
    (hf : s.frame k q = some f) (hops : f.ops = []) (hexit : f.exit = some x) (hx : x.kind < 3)
    (hholds : ∀ e ∈ s.holds, ∀ t q' b, e.2 = .block t q' b → t ≠ k) (hdying : (s.ctx t.ctx).dying = none) :
    ∃ cs, finishCommit s k q = { s.setThr k (commitThread t f x (s.cycThr k)) with clus := cs } := by
  obtain ⟨cs, hrelock⟩ := relock_with_clus ((s.setThr k (commitThread t f x (s.cycThr k))).modClu (cluOf k)
    fun c => { c with lock := if c.lock = some (k, q) then none else c.lock }) (cluOf k)
  refine ⟨cs, ?_⟩
  have hends : endHolds { s.setThr k (commitThread t f x (s.cycThr k)) with clus := cs } k q =
      { s.setThr k (commitThread t f x (s.cycThr k)) with clus := cs } := endHolds_of_none q hholds
  have hrelock' : relock ((s.setThr k (commitThread t f x (s.cycThr k))).modClu (cluOf k)
      fun c => { c with lock := if c.lock = some (k, q) then none else c.lock }) (cluOf k) =
      { s.setThr k (commitThread t f x (s.cycThr k)) with clus := cs } := hrelock
  have hctx : ({ s.setThr k (commitThread t f x (s.cycThr k)) with clus := cs }.ctx t.ctx).dying = none := hdying
  simp only [finishCommit, ht, hf, hexit, Option.getD_some, hrelock', hends, commitShape_of_noOps _ _ hops,
    commitExit_of_branch _ _ _ _ hops hx, hctx]

/-- The thread while its block's commit is performed: the leash counts from the grant (R181). -/
def committing (s : State) (k : Nat) (t : Thread) (f : Frame) : Thread :=
  { t with leash0 := s.cycThr k, frames := [{ f with stage := 2 }] }

/-- The commit of such a block from its grant: its thread goes on, and memory and the other threads stay as they are. -/
theorem commitNow_of_plain {s : State} {k : Nat} {t : Thread} {f : Frame} {x : Exit} (ht : s.thr k = some t)
    (hframes : t.frames = [f]) (hops : f.ops = []) (hs0 : f.s0 = none) (hlock : (s.clu (cluOf k)).lock = none)
    (hexit : f.exit = some x) (hx : x.kind < 3) (hholds : ∀ e ∈ s.holds, ∀ t q' b, e.2 = .block t q' b → t ≠ k)
    (hnet : ∀ e ∈ s.net, ∀ g, e.2.src ≠ .store g k) (hdying : (s.ctx t.ctx).dying = none) :
    ∃ cyc : Word, (commitNow s k t f).thr k = some (commitThread (committing s k t f) { f with stage := 2 } x cyc) ∧
      (commitNow s k t f).mem = s.mem ∧ ∀ j, j ≠ k → (commitNow s k t f).thr j = s.thr j := by
  obtain ⟨s1, hs1⟩ : ∃ s1, s1 = unreserve (s.modThr k fun t => { t with leash0 := s.cycThr k }) k f.seq := ⟨_, rfl⟩
  obtain ⟨s2, hs2⟩ : ∃ s2, s2 = s1.modFrame k f.seq fun f => { f with stage := 2 } := ⟨_, rfl⟩
  have ht1 : s1.thr k = some { t with leash0 := s.cycThr k } := by
    rw [hs1]
    exact State.thr_modThr_same _ ht
  have ht2 : s2.thr k = some (committing s k t f) := by
    rw [hs2, State.modFrame, State.thr_modThr_same _ ht1]
    simp [Thread.modFrame, committing, hframes]
  have hf2 : s2.frame k f.seq = some { f with stage := 2 } := by
    simp [State.frame, ht2, committing, Thread.frame]
  have hothers : ∀ j, j ≠ k → s2.thr j = s.thr j := fun j hj => by
    rw [hs2, State.modFrame, State.thr_modThr_other _ _ hj, hs1]
    exact State.thr_modThr_other _ _ hj
  have hsame : s2.mem = s.mem ∧ s2.holds = s.holds ∧ s2.net = s.net ∧ s2.ctxs = s.ctxs := by
    simp [hs2, hs1, unreserve]
  obtain ⟨hmem, hholds2, hnet2, hctxs⟩ := hsame
  have hnone : commitHeld s2 k = false := commitHeld_of_noStore fun e he => hnet e (hnet2 ▸ he)
  have hctx : (s2.ctx (committing s k t f).ctx).dying = none := by
    rw [State.ctx, hctxs]
    exact hdying
  obtain ⟨cs, hfinish⟩ := finishCommit_of_noOps ht2 hf2 hops hexit hx (fun e he => hholds e (hholds2 ▸ he)) hctx
  have hcommit : commitNow s k t f =
      { s2.setThr k (commitThread (committing s k t f) { f with stage := 2 } x (s2.cycThr k)) with clus := cs } := by
    rw [commitNow_of_noOps t hops hs0 hlock, ← hs1, ← hs2, commitRun_of_noOps ht2 hf2 hops hnone, hfinish]
  rw [hcommit]
  exact ⟨s2.cycThr k, tget_tset_same .., hmem, fun j hj => (tget_tset_other _ _ _ _ hj).trans (hothers j hj)⟩

/-- A block that may commit does so at one request (R109). -/
theorem exec_commitRequest_of_readyPlain {s : State} {k : Nat} {t : Thread} {f : Frame} {x : Exit} (h : ReadyPlain s k t f x)
    (hx : x.kind < 3) :
    ∃ (s' : State) (cyc : Word), exec (.commitRequest k) s = .next s' ∧
      s'.thr k = some (commitThread (committing s k t f) { f with stage := 2 } x cyc) ∧ s'.mem = s.mem ∧
      ∀ j, j ≠ k → s'.thr j = s.thr j := by
  have hready := commitable_of_readyPlain h
  obtain ⟨⟨ht, -, -⟩, hframes, hstage, -, -, -, -, hops, hexit, -, -, -, hs0, hlock, -, hheld, -, hdying⟩ := h
  obtain ⟨hholds, -, hnet, -⟩ := hheld
  obtain ⟨s1, hreserve, ⟨cs, rfl⟩, hlocks⟩ := reserve_of_noOps s k hops
  have hlock1 : ({ s with clus := cs }.clu (cluOf k)).lock = none := (hlocks _).trans hlock
  have hfree : lockedOut { s with clus := cs } k f = false := by simp [lockedOut, hlock1]
  have hclear : writesClear { s with clus := cs } k t f = true := by simp [writesClear, outward_of_noOps _ _ _ hops, hops]
  have holdest : t.oldest = some f := by simp [Thread.oldest, hframes]
  have hexec : exec (.commitRequest k) s = .next (commitNow { s with clus := cs } k t f) := by
    show execCommitRequest k s = _
    simp [execCommitRequest, ht, holdest, hstage, hready, hreserve, hfree, hclear, hs0]
  obtain ⟨cyc, hcommit⟩ := commitNow_of_plain (s := { s with clus := cs }) ht hframes hops hs0 hlock1 hexit hx hholds
    (fun e he => (hnet e he).2.2) hdying
  exact ⟨_, cyc, hexec, hcommit⟩

/-! ### What a commit leaves of its thread beside the registers -/

/-- A thread with the registers and the block ordinal of another. -/
def Thread.withRegsOf (u t : Thread) : Thread :=
  { u with g := t.g, v := t.v, gdead := t.gdead, vdead := t.vdead, spec := t.spec, ord := t.ord }

/-- From `t` to `u` nothing changes but registers and the block ordinal. -/
def SameButRegs (t u : Thread) : Prop := u.withRegsOf t = t

theorem SameButRegs.trans {t u w : Thread} (h : SameButRegs t u) (h' : SameButRegs u w) : SameButRegs t w :=
  calc w.withRegsOf t = (w.withRegsOf u).withRegsOf t := rfl
    _ = u.withRegsOf t := congrArg (·.withRegsOf t) h'
    _ = t := h

theorem SameButRegs.frames {t u : Thread} (h : SameButRegs t u) : u.frames = t.frames :=
  calc u.frames = (u.withRegsOf t).frames := rfl
    _ = t.frames := congrArg Thread.frames h

theorem SameButRegs.leash0 {t u : Thread} (h : SameButRegs t u) : u.leash0 = t.leash0 :=
  calc u.leash0 = (u.withRegsOf t).leash0 := rfl
    _ = t.leash0 := congrArg Thread.leash0 h

theorem writeReg_sameButRegs (t : Thread) (r : Nat) (x : Tok) : SameButRegs t (writeReg t r x) := by
  unfold writeReg
  split
  · rfl
  · split
    · rfl
    · split <;> rfl

theorem writeEntries_sameButRegs (t : Thread) (f : Frame) (es : List (Nat × Nat)) : SameButRegs t (writeEntries t f es) := by
  induction es generalizing t with
  | nil => rfl
  | cons y es ih => exact (writeReg_sameButRegs t y.2 _).trans (ih _)

theorem entriesDone_sameButRegs (t : Thread) (f : Frame) : SameButRegs t (entriesDone t f) := by
  refine (writeEntries_sameButRegs t f (wrEntries f.hdr)).trans ?_
  simp only [entriesDone]
  split
  · split <;> rfl
  · rfl

theorem maskKill_sameButRegs (u : Thread) (f : Frame) : SameButRegs u (maskKill u f) := by
  unfold maskKill
  split <;> rfl

theorem linked_sameButRegs (u : Thread) (f : Frame) (kind : Nat) : SameButRegs u (linked u f kind) := by
  unfold linked
  split
  · exact writeReg_sameButRegs ..
  · rfl

theorem callKill_sameButRegs (u : Thread) (conv : Word) (kind : Nat) : SameButRegs u (callKill u conv kind) := by
  unfold callKill
  split <;> rfl

theorem commitRegs_sameButRegs (t : Thread) (f : Frame) (cyc : Word) : SameButRegs t (commitRegs t f cyc) := by
  rw [commitRegs_stages]
  exact (((entriesDone_sameButRegs t f).trans (maskKill_sameButRegs ..)).trans (linked_sameButRegs ..)).trans (callKill_sameButRegs ..)

theorem commitThread_leash0 (t : Thread) (f : Frame) (x : Exit) (cyc : Word) : (commitThread t f x cyc).leash0 = t.leash0 := by
  simp only [commitThread, Thread.count, (commitRegs_sameButRegs t f cyc).leash0]

theorem commitThread_frames (t : Thread) (f : Frame) (x : Exit) (cyc : Word) :
    (commitThread t f x cyc).frames = t.frames.filter (·.seq != f.seq) := by
  simp only [commitThread, Thread.count, (commitRegs_sameButRegs t f cyc).frames]

theorem commitThread_pc (t : Thread) (f : Frame) (x : Exit) (cyc : Word) : (commitThread t f x cyc).pc = x.dest := by
  simp only [commitThread]

theorem commitThread_fcr (t : Thread) (f : Frame) (x : Exit) (cyc : Word) :
    (commitThread t f x cyc).spec.fcr = (commitRegs t f cyc).spec.fcr := by
  simp only [commitThread, Thread.count]

theorem regCommitted_commitThread (t : Thread) (f : Frame) (x : Exit) (cyc : Word) {r : Nat} (hr : r < 192) :
    regCommitted (commitThread t f x cyc) 0 r = regCommitted (commitRegs t f cyc) 0 r :=
  regCommitted_congr (by simp only [commitThread, Thread.count]) (by simp only [commitThread, Thread.count]) hr

/-- The oldest block reads `conv` as its thread has it (R164). -/
theorem regFor_conv_of_oldest {t : Thread} {f : Frame} {fs : List Frame} (cyc : Word) (h : t.frames = f :: fs) :
    t.regFor cyc f.seq 193 = some (.s t.spec.conv) := by
  simp [Thread.regFor, Thread.older, h, regFwd, regCommitted]

/-- Settles O20, by the stages of a commit: the write entries, `dmask`'s kill, the link, and the kill by `conv`. -/
theorem commitLeavesTheRegisters : Obligations.CommitLeavesTheRegisters := by
  intro k s t f x hready hk
  obtain ⟨s', cyc, hexec, hthr, hmem, hothers⟩ := exec_commitRequest_of_readyPlain hready hk
  obtain ⟨-, -, -, -, -, -, -, -, hexit, -, -, -, -, -, -, -, hd, -⟩ := hready
  have hconv : (committing s k t f).regFor cyc f.seq 193 = some (.s t.spec.conv) := 
    regFor_conv_of_oldest (f := { f with stage := 2 }) (fs := []) cyc rfl
  refine ⟨s', _, hexec, hthr, hmem, hothers, ?_, commitThread_pc .., commitThread_leash0 .., ?_⟩
  · rw [commitThread_frames]
    simp [committing]
  · refine ⟨fun r hr hdead => ?_, fun r h0 hr hlive h3 => ?_, fun hcall => ?_, fun hfcr => ?_⟩
    · rw [regCommitted_commitThread _ _ _ _ hr]
      exact regCommitted_commitRegs_dead (f := { f with stage := 2 }) hexit hk hd hconv hr hdead
    · rw [regCommitted_commitThread _ _ _ _ hr,
        regCommitted_commitRegs_live (f := { f with stage := 2 }) hexit hk hd hconv hr hlive h3]
      exact writtenVal_writeEntries (committing s k t f) (f := { f with stage := 2 }) h0 hr hd
    · rw [regCommitted_commitThread _ _ _ _ (by decide)]
      exact regCommitted_commitRegs_g3 (f := { f with stage := 2 }) hexit hconv hcall
    · rw [commitThread_fcr]
      exact commitRegs_fcr (f := { f with stage := 2 }) hexit hconv hfcr

end Sys2Proof.Machine
end
